-- ==== Sys2Proof/Word.lean ====
section
/-! DEFINITION. The plainest types of the block: numbers of carriers, subcarriers and instances, TIME96 words, bytes.
The spec counts device time in units of 1/65 536 ns (chapter 00, "Device-time values"); the model calls that unit fu. -/

namespace Sys2Proof

/-- One byte of an external format (R5). -/
abbrev Byte := BitVec 8

/-- Carrier C0 or C1 (glossary). -/
abbrev CarrierNo := Fin 2

/-- Subcarrier SC0 to SC15 of a carrier (glossary). -/
abbrev ScNo := Fin 16

/-- Leaf 0 to 127 of a hub carrier (R174). -/
abbrev LeafNo := Fin 128

/-- Slice group 0 to 65 535 (Table 1.3). -/
abbrev GroupNo := Fin 65536

/-- Queue 0 to 262 143 (Table 1.3). -/
abbrev QueueNo := Fin 262144

/-- Client port CL00 to CL31 (Table 1.3). -/
abbrev PortNo := Fin 32

/-- A TIME96 word: seconds [95:48], nanoseconds [47:16], fraction [15:0] (chapter 00). -/
abbrev Time96 := BitVec 96

end Sys2Proof
end

