-- ==== Sys2Proof/Syntax.lean ====
section
/-! DEFINITION. The commands of the block, one constructor per row of spec/opcode_table.json, and the operands they carry:
what the request or message says, and, for an event, what the device measures at it. -/

namespace Sys2Proof

/-- A request as it arrives (Table 17.1): transport, source address (on a client VLAN the port times 2^48 plus the MAC address), ROUTE, LEAF, SESSION, REQ_ID, LATE, the bake time of its
body (all zeros where the service has none), TAGGED with the tag, COUNTER, how many requests already wait on its transport (R409), and its header and body as they
came, over which the tag runs (R423). On the line the address is 256 times the carrier plus the leaf, 128 for the far end. -/
structure Req where
  transport : Fin 4
  addr : Nat
  route : Fin 5
  leaf : BitVec 8
  session : BitVec 8
  reqId : BitVec 16
  late : Fin 3
  bake : Time96
  tagged : Bool
  tag : BitVec 128
  counter : BitVec 48
  waiting : Nat
  bytes : List Byte
deriving DecidableEq, Repr

/-- What the load at power-up cannot read (R313, R405, R440, "Key storage"): stored objects damaged in both copies (references); items of the calibration
set, or its header; pairs whose Current half does not unwrap; starter samples by their place in the ring, oldest first; copies of the model (0 is A, 1 is B);
blocks (by the order of R448) that failed their power-up self-test, and whether whole (R433). -/
structure LoadFaults where
  damaged : List (BitVec 24)
  cal : List (Fin 16)
  calHeader : Bool
  keys : List (BitVec 8)
  samples : List Nat
  model : List (Fin 2)
  selfTest : List (Fin 16 × Bool)
deriving DecidableEq, Repr

/-- A written value: its length in bytes and its bytes as a number (R5). -/
structure Val where
  len : Nat
  raw : Nat
deriving DecidableEq, Repr

/-- A member of a BUNDLE: reference and value (Table 17.4). -/
structure BundleMember where
  ref : BitVec 24
  val : Val
deriving DecidableEq, Repr

/-- An event that reaches the arbiter (R31): the row of Table 2.4, the sub-order the row names, the further order of the
source's chapter, the fabric clock on which it came, its place among those its source presented on that clock. -/
structure ArbEvent where
  row : Fin 12
  sub : Nat
  order : Nat
  clock : Nat
  place : Nat
deriving DecidableEq, Repr

/-- What an ITLA response says (R49 to R51): whether its checksum is right, the register value, whether an operation is pending, whether the laser reports
ready, power settled and an alarm, and whether it supports the rate asked about. -/
structure ItlaAnswer where
  valid : Bool
  value : BitVec 32
  pending : Bool
  ready : Bool
  settled : Bool
  alarm : Bool
  baudOk : Bool
deriving DecidableEq, Repr

/-- A symbol of a subcarrier: I and Q of both polarisations. Sent: amplitudes 1, 3, 5, 7 with their sign (R42); received: the equaliser's output in
units of 1/1024 of amplitude 1. -/
structure Sym where
  xi : Int
  xq : Int
  yi : Int
  yq : Int
deriving DecidableEq, Repr

/-- A codeword of group g of carrier c that becomes ready (R111): its number, and what the equalisers of the carrier's active subcarriers gave since the
codeword before it: by subcarrier, symbols of whole mapping periods between the LINE_RX_CPR_HALF before and after them (R87). Of a burst: its payload's symbols,
whole mapping periods whose phase the burst receiver has recovered (R160). -/
structure ReadyWord where
  c : CarrierNo
  g : ScNo
  num : Nat
  samples : List (Nat × List Sym)
deriving DecidableEq, Repr

/-- What a read finds wrong in one copy of the slice map (R184): the next bank's or the active one's, the copy, the output slot (port times 2^24 plus slot), the bits of
the entry that differ, or the entry uncorrectable. -/
structure Upset where
  next : Bool
  copy : Fin 3
  key : Nat
  mask : BitVec 96
  gone : Bool
deriving DecidableEq, Repr

/-- What the burst receiver measures on a burst beside its codewords (R160, R163): frequency offset in MHz, SNR over the payload symbols in 0.01 dB, timing
phase, and the equaliser taps it ends with. -/
structure BurstReport where
  freq : Int
  snr : BitVec 16
  timing : Int
  taps : List Int
deriving DecidableEq, Repr

/-- An MRAM line whose write completes: a line by address, or the line of a stored scalar's record (R248, R436). -/
inductive MramLine where
  | line (address : BitVec 25)
  | record (ref : BitVec 24)
deriving DecidableEq, Repr

/-- What the device measures of a candidate over a second (R264): whether it was measured, phase in ps, frequency in 0.01 ppb. -/
structure CandMeas where
  measured : Bool
  phase : Int
  freq : Int
deriving DecidableEq, Repr

/-- A PTP message as the port reads it (R267): its kind (0 Sync, 1 Follow_Up, 2 Delay_Resp, 3 Delay_Req, 4 Announce, 5 any other), domain, whether
well formed, two-step, sequence number, the time it carries (fu), its arrival (fu), clockClass, stepsRemoved, and the portState that the
alternate BMCA of G.8275.1 decides from it. -/
structure PtpMsg where
  kind : Fin 6
  domain : Nat
  good : Bool
  twoStep : Bool
  seqId : Nat
  time : Nat
  arrival : Nat
  clockClass : Nat
  steps : Nat
  verdict : Fin 10
deriving DecidableEq, Repr

/-- One object write inside a bundle. -/
structure Member where
  ref : Nat
  value : Nat
deriving DecidableEq, Repr

/-- A record of the mirror journal (R354 to R357). KIND 0: a value, with the selector value it depends on. 1: the contents of a DOMAIN. 2: an action:
its target, value, bake time, handle, boundary (0: not yet known), members of a bundle, and as data its class, kind and late policy. 3: an action cancelled. -/
structure MirrorRec where
  kind : Nat
  ref : Nat
  value : Nat
  selector : Nat
  bake : Nat
  handle : Nat
  boundary : Nat
  data : List Nat
  members : List Member
deriving DecidableEq, Repr

/-- A message of the mate link's control channel (R344, R349, R353, R355, R357): identities (unit, pair identifier, whether the twin accepts this
unit's mirror version and this unit the twin's), the twin's claim and the bus value it read, its time state, QL and steps, the delays of an
exchange over the link (to this unit and from it, in ps), records of an epoch not yet closed (its number), and boundaries of mirrored actions by handle. -/
structure MateMsg where
  hello : Option (Nat × Nat × Bool × Bool)
  claim : Option (BitVec 16 × BitVec 16)
  time : Option (Nat × Nat × Nat)
  delays : Option (Int × Int)
  part : Option (Nat × List MirrorRec)
  bounds : List (Nat × Nat)
deriving DecidableEq, Repr

/-- A baseline complete in the standby (R358): the number of the last epoch it holds, the banks as edit records over an empty bank with the generation,
flow entries as edit records, queue and crypt-group records, key pairs (pair, current and next half: state, epoch, key; shared), and the values,
DOMAINs and actions of the mirror set followed by the records of the epochs since. -/
structure Baseline where
  epoch : Nat
  mapGen : Nat
  mapActive : List Nat
  mapNext : List Nat
  flows : List Nat
  queues : List Nat
  cgGen : Nat
  crypt : List Nat
  keys : List (Nat × (Nat × Nat × Nat) × (Nat × Nat × Nat) × Bool)
  records : List MirrorRec
deriving DecidableEq, Repr


/-- An error that a block meets in a memory it reads (R249, R254): class 1 to 6, wrong bits (class 4: symbols) of the code unit, the symbol of an HBM granule, the byte
address of the unit in its memory's space, and the block that owns the memory (Table 18.4). -/
structure MemError where
  cls : Fin 6
  errs : Nat
  symbol : Fin 72
  address : Nat
  owner : Fin 16
deriving DecidableEq, Repr

/-- What the PCS of a client port gave since the last calendar boundary (R370, Table 15.6): codewords corrected and uncorrectable, and the 66b blocks received, each
with its bit k as the k-th received: the port's by first slot 0, a FlexE client's by the first slot of its group on the lowest member's port. -/
structure LaneReport where
  port : Fin 32
  corrected : Nat
  uncorrectable : Nat
  rx : List (Nat × List (BitVec 66))
deriving DecidableEq, Repr

/-- What a line-path run measures on a receive chain (R73 to R75, R402): the RMS level of each ADC in 0.1 dB below full scale, samples at full scale since the
last report, the worst spur in 0.1 dBc, the eight corrections (skew XI, XQ, YI, YQ in 0.1 ps; IQ gain X, Y in 0.001 dB; IQ phase X, Y in 0.01°), the time-path
delays' corrections in ps in the order of Table 16.6. -/
structure AdcReport where
  rms : List Nat
  clips : Nat
  spur : Int
  terms : List Int
  delays : List Int
deriving DecidableEq, Repr

/-- A CAL_REPORT (Table 16.5): SEQ, VALID, and the eight terms in its units. -/
structure CalMsg where
  seq : BitVec 8
  valid : BitVec 8
  terms : List Int
deriving DecidableEq, Repr

/-- What the receive chain measures with an SNR window (R73, R82): RMS level of each ADC in 0.1 dB below full scale, samples at full scale since the last
report, mean DGD in 0.1 ps, mean PDL in 0.1 dB. -/
structure RxMeas where
  rms : List Nat
  clips : Nat
  dgd : Nat
  pdl : Nat
deriving DecidableEq, Repr
/-- The commands (spec/opcode_table.json). -/
inductive Instr where
  /-- READ (R415): EOP READ service reads up to 64 object references at one instant and returns a status per item. -/
  | read (q : Req) (refs : List (BitVec 24)) (poisoned : List (BitVec 24))
  /-- WRITE (R416): EOP WRITE service writes one object that has no row of its own, creating an action for RWS objects, resetting RWC objects and refusing invalid values. -/
  | write (q : Req) (ref : BitVec 24) (v : Val)
  /-- BUNDLE (R417): EOP BUNDLE service checks 1 to 64 members and accepts them as one immediate or timed action of class 0x0009. -/
  | bundle (q : Req) (fits : Bool) (members : List BundleMember)
  /-- SUBSCRIBE_ADD (R420): SUBSCRIBE op 0 adds a subscription to an index range, with or without a session. -/
  | subscribeAdd (q : Req) (first : BitVec 16) (last : BitVec 16) (period : BitVec 16)
  /-- SUBSCRIBE_CANCEL (R420): SUBSCRIBE op 1 cancels a subscription named by its number. -/
  | subscribeCancel (q : Req) (num : BitVec 8)
  /-- BLOCK_OPEN_WRITE (R421): BLOCK op 1 opens a write transfer of a DOMAIN with a given total length. -/
  | blockOpenWrite (q : Req) (ref : BitVec 24) (total : BitVec 32)
  /-- BLOCK_CHUNK (R421): BLOCK op 2 carries a chunk of up to 1 024 bytes at the next offset of a write transfer. -/
  | blockChunk (q : Req) (ref : BitVec 24) (offset : BitVec 32) (data : List Byte)
  /-- BLOCK_END_WRITE (R421): BLOCK op 3 checks the CRC-32 and length and applies the whole DOMAIN value as one write of a DOMAIN that has no row of its own. -/
  | blockEndWrite (q : Req) (ref : BitVec 24) (crc : BitVec 32)
  /-- BLOCK_ABANDON (R421): BLOCK op 4 abandons the read or write transfer in progress. -/
  | blockAbandon (q : Req) (ref : BitVec 24)
  /-- BLOCK_READ (R421): BLOCK op 5 reads a chunk of a DOMAIN, taking a snapshot at offset 0. -/
  | blockRead (q : Req) (ref : BitVec 24) (offset : BitVec 32) (wanted : BitVec 32)
  /-- BLOCK_TRANSFER_TIMEOUT (R421): A BLOCK transfer ends after 10 s without a request. -/
  | blockTransferTimeout (ref : BitVec 24)
  /-- SESSION_OPEN (R422): SESSION op 0 opens a session at a privilege level, checking the nonce and tag, and returns a counter base. -/
  | sessionOpen (q : Req) (level : BitVec 8) (nonce : BitVec 48)
  /-- SESSION_CLOSE (R422): SESSION op 1 closes the session. -/
  | sessionClose (q : Req)
  /-- SESSION_KEEPALIVE (R422): SESSION op 2 keeps the session alive. -/
  | sessionKeepalive (q : Req)
  /-- SESSION_IDLE_TIMEOUT (R422): A session, or a sessionless subscription, ends after EOP_SESSION_IDLE seconds without a request. -/
  | sessionIdleTimeout (session : BitVec 8) (transport : Fin 4) (addr : Nat)
  /-- EOP_HEADER_UNREADABLE (R408): A message whose header cannot be read is discarded without answer and counted in EOP_DISCARDS. -/
  | eopHeaderUnreadable (transport : Fin 4)
  /-- SPI_WRITE_MESSAGE (R410): SPI command 0x01 writes one EOP message into the device. -/
  | spiWriteMessage (space : Bool)
  /-- SPI_READ_MESSAGE (R410): SPI command 0x02 returns the oldest waiting response or notice with its length. -/
  | spiReadMessage
  /-- SPI_DIRECT_READ (R411): SPI command 0x20 reads one half of a scalar object at operator privilege, latching the high half of a 64-bit value. -/
  | spiDirectRead (ref : BitVec 24) (high : Bool)
  /-- SPI_DIRECT_WRITE (R410): SPI command 0x21 writes a scalar object of 32 bits or fewer at operator privilege. -/
  | spiDirectWrite (ref : BitVec 24) (word : BitVec 32)
  /-- EOP_SEGMENT (R412): An EOP segment received in a management-class slot is reassembled by MSG_ID and INDEX into a message. -/
  | eopSegment (c : CarrierNo) (leaf : Nat) (seg : BitVec 512)
  /-- EOP_REASSEMBLY_TIMEOUT (R412): A line message not complete within 100 ms of its first segment is discarded and counted. -/
  | eopReassemblyTimeout (c : CarrierNo) (leaf : Nat) (msg : BitVec 16)
  /-- FORWARDED_ANSWER (R413): The answer to a forwarded request arrives from the line and is returned under the original REQ_ID. -/
  | forwardedAnswer (msg : BitVec 16) (status : BitVec 8) (body : List Byte)
  /-- FORWARD_TIMEOUT (R413): No answer to a forwarded request within EOP_FORWARD_LIMIT gives a timeout response. -/
  | forwardTimeout (msg : BitVec 16)
  /-- NOTICE_PERIOD (R420): A subscription period or change-notice spacing expires and the latest value change is sent. -/
  | noticePeriod (sub : BitVec 16) (ref : BitVec 24)
  /-- ARBITER_CYCLE (R31): Each 2.5 ns arbiter cycle orders waiting events and gives the first 16 their sequence numbers, carrying the rest. -/
  | arbiterCycle (fresh : List ArbEvent)
  /-- SCHED_TIME_STEP (R19): A host write of SCHED_TIME_STEP is checked and accepted as the value for the next calendar boundary, replacing an earlier pending step. -/
  | schedTimeStep (q : Req) (v : Val)
  /-- TIME_STEP_EFFECT (R21): An accepted step takes effect at the first calendar boundary with no armed action, relabelling device time and moving pending actions. -/
  | timeStepEffect
  /-- SCHED_CANCEL (R24): A write of SCHED_CANCEL cancels a pending action, refusing armed or unknown handles. -/
  | schedCancel (q : Req) (v : Val)
  /-- ACTION_ARMING (R24): An action is armed 25.6 µs before its boundary, fixing the boundary and starting class-specific preparation. -/
  | actionArming (handle : BitVec 32) (tick : Nat)
  /-- DEVICE_ACTION_PLACE_FREED (R28): A device-created action waiting for a scheduler place is scheduled once a place frees, with late policy 1. -/
  | deviceActionPlaceFreed
  /-- SINGLE_RWS_WRITE_FIRE (R23): An action of class 0x0008 without a row of its own fires and applies its written value. -/
  | singleRwsWriteFire (handle : BitVec 32) (poison : Bool)
  /-- TIMED_BUNDLE_FIRE (R418): A bundle's members take effect together at its boundary in acceptance order. -/
  | timedBundleFire (handle : BitVec 32) (poisoned : Option Nat)
  /-- PREIMAGE_DURABLE (R418): Once every pre-image of a bundle is durable, the new stored values are written to MRAM. -/
  | preimageDurable (bundle : Nat)
  /-- BUNDLE_COMMIT_MARK (R418): Once every new stored value is durable, the commit mark is written and pre-images freed. -/
  | bundleCommitMark (bundle : Nat)
  /-- CALENDAR_BOUNDARY (R175): At each 12.8 µs calendar boundary the fabric switches pages, reads outputs under the active bank and takes line slots per group. -/
  | calendarBoundary (upsets : List Upset) (errors : List MemError) (lanes : List LaneReport) (counts : List (Nat × Nat))
  /-- LINE_TX_ENABLE_ON (R62): Writing 1 to LINE_TX_ENABLE in Off moves the carrier to Starting and begins fill framing and laser bring-up. -/
  | lineTxEnableOn (q : Req) (c : CarrierNo)
  /-- LINE_TX_ENABLE_OFF (R62): Writing 0 to LINE_TX_ENABLE returns the carrier to Off, disabling lasers at once. -/
  | lineTxEnableOff (q : Req) (c : CarrierNo)
  /-- TX_ACTIVE_ENTRY (R62): The carrier goes from Starting to Active once lasers are Ready and settled and every closed loop is Locked. -/
  | txActiveEntry (c : CarrierNo)
  /-- TX_START_TIMEOUT (R62): LINE_TX_START_LIMIT expires in Starting and a transmit start timeout event is raised. -/
  | txStartTimeout (c : CarrierNo)
  /-- LINE_TX_SQUELCH_SET (R63): Writing 1 to LINE_TX_SQUELCH sets squelch cause [0] and squelches the carrier. -/
  | lineTxSquelchSet (q : Req) (c : CarrierNo)
  /-- LINE_TX_SQUELCH_CLEAR (R64): Writing 0 to LINE_TX_SQUELCH clears cause [0], returning the carrier to Active or Starting when no cause remains. -/
  | lineTxSquelchClear (q : Req) (c : CarrierNo)
  /-- TXOFF_N_LOW (R64): TXOFF_N low for 20 ns sets squelch cause [1] on both carriers. -/
  | txoffNLow
  /-- TXOFF_N_CLEAR (R64): TXOFF_N high for 10 ms without a break clears cause [1]. -/
  | txoffNClear
  /-- DAC_SYNTH_LOCK_LOSS (R63): Loss of lock of the DAC clock synthesiser sets squelch cause [3]. -/
  | dacSynthLockLoss (c : CarrierNo)
  /-- LINE_ASPI_XFER (R55): A host transfer list is written and run in order, refused while another list runs. -/
  | lineAspiXfer (q : Req) (crc : BitVec 32)
  /-- ASPI_TRANSFER_DONE (R55): An SPI transfer and its delay complete and the next record of the list starts. -/
  | aspiTransferDone (word : BitVec 32)
  /-- LINE_ITLA_USE (R50): A write of LINE_ITLA_USE sets the laser's use and takes a Faulted port out of Faulted. -/
  | lineItlaUse (q : Req) (port : Fin 4) (v : Val)
  /-- LINE_ITLA_RAW (R49): A write of LINE_ITLA_RAW queues one raw ITLA command whose response is read back. -/
  | lineItlaRaw (q : Req) (port : Fin 4) (v : Val)
  /-- ITLA_RESPONSE (R50): A valid ITLA response completes the outstanding transaction and the next queued one starts. -/
  | itlaResponse (port : Fin 4) (answer : ItlaAnswer)
  /-- ITLA_RESPONSE_TIMEOUT (R50): No response within 10 ms causes a retry, and after two retries the port becomes Faulted. -/
  | itlaResponseTimeout (port : Fin 4)
  /-- ITLA_PENDING_POLL (R51): A pending ITLA operation is polled every 10 ms. -/
  | itlaPendingPoll (port : Fin 4)
  /-- ITLA_TUNE_LIMIT_EXPIRY (R51): A pending operation lasting beyond LINE_ITLA_TUNE_LIMIT makes the port Faulted. -/
  | itlaTuneLimitExpiry (port : Fin 4)
  /-- ITLA_STATUS_POLL (R51): Laser status is polled every 100 ms. -/
  | itlaStatusPoll (port : Fin 4)
  /-- ITLA_SRQ (R51): ITLAn_SRQ_N going low causes an immediate status poll. -/
  | itlaSrq (port : Fin 4)
  /-- LINE_BIAS_MODE (R60): A write of a bias loop's mode is checked for monitor-channel ownership and opens, closes or holds the loop. -/
  | lineBiasMode (q : Req) (loop : Fin 12) (v : Val)
  /-- BIAS_DITHER_PERIOD_END (R57): A dither period of a bias visit completes its high and low halves and records d. -/
  | biasDitherPeriodEnd
  /-- BIAS_VISIT_END (R57): At the end of a visit the loop's error and step are computed, its code updated and the next loop visited. -/
  | biasVisitEnd
  /-- LINE_RX_ENABLE_ON (R77): Writing 1 to LINE_RX_ENABLE moves the receive chain from Off to Searching, subject to the pool load check. -/
  | lineRxEnableOn (q : Req) (c : CarrierNo)
  /-- LINE_RX_ENABLE_OFF (R77): Writing 0 to LINE_RX_ENABLE moves the receive chain to Off from any state. -/
  | lineRxEnableOff (q : Req) (c : CarrierNo)
  /-- RX_STAGE_COMPLETE (R79): An acquisition stage completes and the chain moves to the next stage, Converging or Tracking. -/
  | rxStageComplete (c : CarrierNo) (result : Int) (adc : AdcReport)
  /-- RX_ACQ_TIMEOUT (R77): The chain not reaching Tracking within LINE_RX_ACQ_LIMIT sets cause [6] and restarts a full-range search. -/
  | rxAcqTimeout (c : CarrierNo)
  /-- RX_CAUSE_SET (R78): A receive cause of Table 4.4 is set, moving the chain to Lost or restarting the search. -/
  | rxCauseSet (c : CarrierNo) (cause : Fin 7)
  /-- RX_CAUSE_CLEAR (R78): A receive cause clears, and when the last Lost cause clears the chain re-enters Searching. -/
  | rxCauseClear (c : CarrierNo) (cause : Fin 7)
  /-- CD_TRACK_UPDATE (R81): Every 10 ms in Tracking the dispersion compensation moves towards the estimate. -/
  | cdTrackUpdate (c : CarrierNo) (estimate : Int) (freq : Int) (clock : Int)
  /-- EQ_STATE_WINDOW (R84): A symbol window of an equaliser ends and the equaliser changes state per Table 4.7. -/
  | eqStateWindow (c : CarrierNo) (sc : ScNo) (snr : Int) (ser : Nat) (reinit : Bool)
  /-- PHASE_SLIP_SUSPECT (R88): A suspected phase slip starts quadrant resolution on the next codeword holding the subcarrier. -/
  | phaseSlipSuspect (c : CarrierNo) (sc : ScNo)
  /-- QUADRANT_RESOLVED (R88): Quadrant resolution of a subcarrier completes with the rotation leaving fewest unsatisfied checks, and a slip is counted. -/
  | quadrantResolved (c : CarrierNo) (sc : ScNo) (samples : List (Nat × List Sym))
  /-- SNR_WINDOW_END (R90): An SNR window ends and its value is reported when Valid. -/
  | snrWindowEnd (c : CarrierNo) (sc : ScNo) (snr : BitVec 16) (meas : RxMeas)
  /-- LOAD_UPGRADE_INTERVAL (R94): Every LINE_LOAD_INTERVAL ms subcarriers are checked for upgrade. -/
  | loadUpgradeInterval (c : CarrierNo)
  /-- LOAD_REQ (R97): A received REQ is checked and either NAKed or turned into a loading-switch action with an ACK. -/
  | loadReq (c : CarrierNo) (g : ScNo) (msg : BitVec 512)
  /-- LOAD_ACK (R98): A received ACK fixes the switch frame at the receiver, counting a late ACK. -/
  | loadAck (c : CarrierNo) (g : ScNo) (msg : BitVec 512) (demapped : Bool)
  /-- LOAD_NAK (R99): A received NAK ends the proposal and is counted in LINE_LOAD_REJECTS. -/
  | loadNak (c : CarrierNo) (g : ScNo) (msg : BitVec 512)
  /-- LOAD_RESTART (R100): A received RESTART makes the transmitter revert to the start table. -/
  | loadRestart (c : CarrierNo) (g : ScNo) (msg : BitVec 512)
  /-- LOAD_PROPOSAL_ABANDON (R99): 2 × LEAD without ACK, NAK or frame abandons the proposal. -/
  | loadProposalAbandon (c : CarrierNo)
  /-- LOAD_FALLBACK_EXPIRY (R100): LOF or LOS for LINE_LOAD_FALLBACK ms adds the start table to the hunt and sends RESTART. -/
  | loadFallbackExpiry (c : CarrierNo)
  /-- LINE_LOAD_PROPOSE (R101): A manual proposal write sends a REQ with the written codes. -/
  | lineLoadPropose (q : Req) (c : CarrierNo) (v : Val)
  /-- LOADING_TABLE_SWITCH (R44): A loading-switch action fires on its frame tick and applies new codes from the marked frame. -/
  | loadingTableSwitch (handle : BitVec 32) (poison : Bool)
  /-- CODEWORD_READY (R113): A ready codeword is placed in a free slot, preempts a slot, or is held. -/
  | codewordReady (words : List ReadyWord)
  /-- HELD_CODEWORD_RETRY (R113): A held codeword retries for a slot on a later fabric clock. -/
  | heldCodewordRetry
  /-- CODEWORD_DECODE_STOP (R111): A codeword's decoding stops as Converged or Maximum and frees its slot. -/
  | codewordDecodeStop (slot : Fin 80)
  /-- DECODE_CUTOFF (R111): At ready + D − 120 ns the iteration in progress is abandoned. -/
  | decodeCutoff (num : Nat)
  /-- BLOCK_DELIVERY (R118): At ready + D the outer decoder's result is delivered to the framer with its block status. -/
  | blockDelivery (num : Nat)
  /-- FEC_BER_WINDOW_END (R120): A BER window ends and FEC_PRE_BER, FEC_SC_BER and FEC_MEAN_ITER are updated. -/
  | fecBerWindowEnd (c : CarrierNo)
  /-- FEC_MS_INTERVAL_END (R123): Each 1 ms the pool passes the BER and failed-frame count to the framer. -/
  | fecMsIntervalEnd
  /-- FRM_BOND_MODE (R126): A write of FRM_BOND_MODE while both carriers are Off sets bonded or independent mode. -/
  | frmBondMode (q : Req) (v : Val)
  /-- TX_FRAME_TICK (R130): The transmit frame clock ticks at the start of a reference-group frame. -/
  | txFrameTick (c : CarrierNo) (g : ScNo) (tick : Nat) (poison : List (BitVec 8))
  /-- RX_BLOCK (R138): A decoded block's header is examined by the alignment state machine and its payload delivered. -/
  | rxBlock (c : CarrierNo) (g : ScNo) (arrival : Nat)
  /-- DELINEATION_ACCEPT (R137): A codeword start is accepted on three codewords and alignment goes to Hunt. -/
  | delineationAccept (c : CarrierNo) (g : ScNo) (start : Nat) (samples : List (Nat × List Sym))
  /-- DELINEATION_TABLE_TIMEOUT (R137): After 2 ms on one table delineation moves to the next candidate table. -/
  | delineationTableTimeout (c : CarrierNo) (g : ScNo)
  /-- HUNT_BLOCK_LIMIT (R138): 64 blocks without a valid header return alignment to Delineate. -/
  | huntBlockLimit (c : CarrierNo) (g : ScNo)
  /-- LOF_SET_EXPIRY (R140): OOF held for FRM_LOF_SET ms declares LOF. -/
  | lofSetExpiry (c : CarrierNo) (g : ScNo)
  /-- LOF_CLEAR_EXPIRY (R140): Sync held for FRM_LOF_CLR ms clears LOF. -/
  | lofClearExpiry (c : CarrierNo) (g : ScNo)
  /-- SC_LOST_EXPIRY (R147): A subcarrier in Idle or Blind for FRM_SC_LOST_MS becomes lost and due for code 0. -/
  | scLostExpiry (c : CarrierNo) (sc : ScNo)
  /-- SC_PROBE_EXPIRY (R147): FRM_SC_PROBE seconds after exclusion the receiver proposes code 24 for a lost subcarrier. -/
  | scProbeExpiry (c : CarrierNo) (sc : ScNo)
  /-- HUB_ENABLE (R150): A write of HUB_ENABLE while the carrier is Off enters or leaves hub mode. -/
  | hubEnable (q : Req) (c : CarrierNo) (v : Val)
  /-- HUB_DS_CODE (R151): A write of a downstream code creates a loading action of class 0x0002. -/
  | hubDsCode (q : Req) (c : CarrierNo) (sc : ScNo) (v : Val)
  /-- HUB_GRANT_NEXT (R155): A grant table written by BLOCK is checked and held as the next table. -/
  | hubGrantNext (q : Req) (c : CarrierNo) (crc : BitVec 32)
  /-- HUB_GRANT_TABLE (R156): A write of HUB_GRANT_TABLE creates a grant switch action of class 0x000A. -/
  | hubGrantTable (q : Req) (c : CarrierNo) (v : Val)
  /-- HUB_GRANT_TABLE_SWITCH (R156): A grant switch fires and the next table comes in force for launch and reception cycles. -/
  | hubGrantTableSwitch (handle : BitVec 32) (poison : Bool)
  /-- GRANT_UPSTREAM_CYCLE (R156): At upstream cycle n_t + lead + K the hub begins receiving under the new table. -/
  | grantUpstreamCycle (c : CarrierNo)
  /-- BURST_WINDOW_OPEN (R161): A granted window opens and the subcarrier path becomes Armed. -/
  | burstWindowOpen (c : CarrierNo) (sc : ScNo) (leaf : Fin 129)
  /-- BURST_DETECTION (R161): Correlator A detects a preamble and the path goes to Detected. -/
  | burstDetection (c : CarrierNo) (sc : ScNo) (power : Int) (corr : Nat) (pos : Int)
  /-- BURST_B_DETECTION (R162): Correlator B detects a second preamble, causing a capture or a counted collision. -/
  | burstBDetection (c : CarrierNo) (sc : ScNo) (power : Int) (corr : Nat) (pos : Int)
  /-- BURST_SYNC_FOUND (R161): The sync word is found, RSSI latched and the path goes to Receiving. -/
  | burstSyncFound (c : CarrierNo) (sc : ScNo) (word : BitVec 64) (shift : Int) (rssi : Int)
  /-- BURST_SYNC_MISSED (R162): The predicted sync position passes without the word and the path re-arms. -/
  | burstSyncMissed (c : CarrierNo) (sc : ScNo)
  /-- BURST_WINDOW_CLOSE (R161): The window closes without a detection and the burst is missed. -/
  | burstWindowClose (c : CarrierNo) (sc : ScNo)
  /-- BURST_END (R163): After LENGTH units a burst is judged valid or not, its leaf's state and slices updated. -/
  | burstEnd (c : CarrierNo) (sc : ScNo) (m : BurstReport)
  /-- ROGUE_BURST (R165): The rogue watch finds a preamble in Idle, counted as rogue or as a violation. -/
  | rogueBurst (c : CarrierNo) (sc : ScNo) (corr : Nat) (header : Option (BitVec 128)) (unit : Nat)
  /-- DISCOVERY_PERIOD (R168): Every HUB_DISC_PERIOD ms DISCOVER is sent and the open subcarrier armed. -/
  | discoveryPeriod (c : CarrierNo)
  /-- REGISTER (R169): A REGISTER is checked, ranged and answered with ASSIGN, or refused and counted. -/
  | register (c : CarrierNo)
  /-- UPSTREAM_HUB_MESSAGE (R324): A tagged upstream hub message is checked against the leaf's burst count; a failing tag is a violation. -/
  | upstreamHubMessage (c : CarrierNo)
  /-- LEAF_TRIM_PERIOD (R170): Once per second TRIM is sent to every Active leaf. -/
  | leafTrimPeriod (c : CarrierNo)
  /-- LEAF_ASSIGN_TIMEOUT (R171): An Assigned leaf without a valid burst within 100 ms returns to Absent. -/
  | leafAssignTimeout (c : CarrierNo) (leaf : LeafNo)
  /-- LEAF_DEREG_TIMEOUT (R171): A leaf Lost for HUB_DEREG_TIME is sent DISABLE and becomes Absent. -/
  | leafDeregTimeout (c : CarrierNo) (leaf : LeafNo)
  /-- HUB_LEAF_ENABLE_ON (R171): Writing 1 to HUB_LEAF_ENABLE moves a Disabled leaf entry to Absent. -/
  | hubLeafEnableOn (q : Req) (c : CarrierNo) (leaf : LeafNo)
  /-- HUB_LEAF_ENABLE_OFF (R171): Writing 0 to HUB_LEAF_ENABLE sends DISABLE and makes the leaf Disabled. -/
  | hubLeafEnableOff (q : Req) (c : CarrierNo) (leaf : LeafNo)
  /-- SET_ENTRY (R185): Edit record OP 1 sets one slice-map entry in the next bank. -/
  | setEntry (q : Req) (rec : BitVec 192)
  /-- SET_RANGE (R185): Edit record OP 2 sets a range of entries with ascending sources. -/
  | setRange (q : Req) (rec : BitVec 192)
  /-- CLEAR_RANGE (R185): Edit record OP 3 clears a range of entries. -/
  | clearRange (q : Req) (rec : BitVec 192)
  /-- PORT_SIZES (R185): Edit record OP 4 sets a port's IN_SIZE and OUT_SIZE. -/
  | portSizes (q : Req) (rec : BitVec 192)
  /-- GROUP_RECORD (R185): Edit record OP 5 sets a group configuration record. -/
  | groupRecord (q : Req) (rec : BitVec 192)
  /-- FAB_MAP_REVERT (R185): Writing 1 to FAB_MAP_REVERT discards edits by rebuilding the next bank, held while rebuilding or armed. -/
  | fabMapRevert (q : Req) (v : Val)
  /-- FAB_MAP_SWAP (R187): A write of FAB_MAP_SWAP creates a bank-swap action of class 0x0001. -/
  | fabMapSwap (q : Req) (v : Val)
  /-- SWAP_VALIDATION_PASS (R186): The one-cycle pass over the next banks completes and the swap proceeds or fails. -/
  | swapValidationPass (handle : BitVec 32) (upsets : List Upset)
  /-- SLICE_MAP_BANK_SWAP (R187): At its boundary all three copies exchange active and next banks. -/
  | sliceMapBankSwap (handle : BitVec 32) (poison : Bool)
  /-- NEXT_BANK_REBUILT (R187): The next bank is rebuilt from the active bank and held edits are applied. -/
  | nextBankRebuilt
  /-- RETIMING_SLIP (R178): A re-timing buffer under- or over-runs, repeating or dropping a cycle of the port's slices. -/
  | retimingSlip (port : Fin 66) (beyond : Bool)
  /-- GROUP_HEADER (R195): A group block header at a monitoring point advances group alignment and defects. -/
  | groupHeader (group : GroupNo) (leg : Fin 2) (header : BitVec 128) (poison : Bool) (arrival : Int)
  /-- GLOF_EXPIRY (R196): GOOF or Sync held for FAB_GLOF_MS declares or clears GLOF. -/
  | glofExpiry (group : GroupNo) (leg : Fin 2) (declare : Bool)
  /-- HOLD_OFF_EXPIRY (R200): An SF or SD present through HOLD_OFF becomes a protection request. -/
  | holdOffExpiry (group : GroupNo) (leg : Fin 2) (degrade : Bool)
  /-- WTR_EXPIRY (R201): Wait-to-restore expires and the group enters NR and selects working. -/
  | wtrExpiry (group : GroupNo)
  /-- PG_CLEAR (R202): Protection command Clear removes LO, FS and MS requests and ends WTR. -/
  | pgClear (q : Req) (group : GroupNo)
  /-- LOCKOUT (R202): Protection command LO locks out protection. -/
  | lockout (q : Req) (group : GroupNo)
  /-- FORCED_SWITCH (R202): Protection command FS forces a switch to protection. -/
  | forcedSwitch (q : Req) (group : GroupNo)
  /-- MANUAL_SWITCH_P (R202): Protection command MS-P requests a manual switch to protection. -/
  | manualSwitchP (q : Req) (group : GroupNo)
  /-- MANUAL_SWITCH_W (R202): Protection command MS-W requests a manual switch to working. -/
  | manualSwitchW (q : Req) (group : GroupNo)
  /-- REALIGN (R208): Protection command Realign sets a hitless group's output time at the next boundary. -/
  | realign (q : Req) (group : GroupNo)
  /-- PKT_PORT_MODE (R212): A write of PKT_PORT_MODE puts a client port in or out of packet mode after slot and rate checks. -/
  | pktPortMode (q : Req) (port : PortNo) (v : Val)
  /-- INGRESS_FRAME_START (R215): A frame on a packet port is classified by flow key and begun as an item in its queue. -/
  | ingressFrameStart (port : PortNo) (bytes : List Byte) (unreadable : Bool)
  /-- INGRESS_OVERSIZE (R226): A frame exceeding PKT_MTU words is rewound at once and counted as errored. -/
  | ingressOversize (port : PortNo)
  /-- INGRESS_FRAME_END (R226): At a frame's EOI word it is checked, policed and admitted or rewound. -/
  | ingressFrameEnd (port : PortNo) (rest : List Byte) (macError : Bool) (recPoison : Bool) (headTaken : Nat)
  /-- FLOW_ADD (R219): A flow edit OP 1 places a new entry, moving occupants if needed. -/
  | flowAdd (q : Req) (rec : BitVec 576)
  /-- FLOW_REPLACE (R219): A flow edit OP 2 replaces an entry keeping tokens and counts. -/
  | flowReplace (q : Req) (rec : BitVec 576)
  /-- FLOW_DELETE (R219): A flow edit OP 3 folds short counts and deletes an entry. -/
  | flowDelete (q : Req) (rec : BitVec 576)
  /-- PKT_Q_CONFIG (R222): Queue configuration records are checked against Table 9.4 and applied, reserving spill. -/
  | pktQConfig (q : Req) (crc : BitVec 32)
  /-- EGRESS_ITEM_END (R227): At an egress item's EOI it is checked, admitted and committed or rewound. -/
  | egressItemEnd (group : GroupNo) (headTaken : Nat)
  /-- EXTRACTOR_ITEM_HEADER (R238): The extractor takes an item header, losing delineation on a bad header and resuming at FIRST. -/
  | extractorItemHeader (group : GroupNo)
  /-- CHANNEL_ITEM_BOUNDARY (R231): At an item boundary a channel takes the committed head item with the earliest deadline or an idle item. -/
  | channelItemBoundary (group : GroupNo) (poison : Bool)
  /-- PORT_TX_ITEM_BOUNDARY (R231): At an item boundary a packet port's transmitter takes the earliest-deadline egress item. -/
  | portTxItemBoundary (port : PortNo) (bad : Option Nat)
  /-- PKT_Q_FLUSH (R239): A write of PKT_Q_FLUSH is sequenced as a flush event for a queue. -/
  | pktQFlush (q : Req) (v : Val)
  /-- FLUSH_FENCE (R239): At the fence the queue's unstarted committed items and the open item are discarded and spill freed. -/
  | flushFence (queue : QueueNo) (headTaken : Nat)
  /-- FLUSH_COMPLETE (R239): The begun item ends and a Flushing queue returns to Active or becomes Disabled. -/
  | flushComplete (queue : QueueNo)
  /-- PKT_Q_WM_LATCH (R240): A write of PKT_Q_WM_LATCH clears the latch and removes the queue from PKT_WM_LIST. -/
  | pktQWmLatch (q : Req) (v : Val)
  /-- SWEEP_READ (R253): The crumb sweep reads a code unit in an idle cycle, writing back a correction or poison. -/
  | sweepRead (cls : Fin 6) (stack : Fin 4) (errs : Nat) (symbol : Fin 72) (raced : Bool) (owner : Fin 16)
  /-- CE_RATE_SECOND (R254): A class whose correctable count rises by more than MEM_CE_ALARM in one second raises an event. -/
  | ceRateSecond (stackFree : List (BitVec 32))
  /-- MATRIX_REQUEST (R259): A master's request is arbitrated at its target and served as one transaction. -/
  | matrixRequest (master : Fin 6) (target : Fin 4) (write : Bool) (address : BitVec 48) (data : List Byte) (len : Fin 65) (named : Bool) (mapped : Bool) (errs : Nat) (symbol : Fin 72) (owner : Fin 16) (rivals : List (Fin 6))
  /-- MRAM_LINE_WRITE (R248): A buffered MRAM line write completes, at most one per line per millisecond. -/
  | mramLineWrite (which : MramLine)
  /-- MEM_ERR_LOG_CLEAR (R262): Writing 1 to MEM_ERR_LOG_CLEAR empties the error log. -/
  | memErrLogClear (q : Req) (v : Val)
  /-- PPS_BOUNDARY (R264): At each PPS boundary candidate phase and frequency are recorded, TIME_MEAS updated and PPS outputs edge. -/
  | ppsBoundary (meas : List CandMeas) (loopMean : Int) (loopNow : Int)
  /-- TOD_TX_START (R290): 1 ms after the PPS_OUT0 edge the ToD message is sent. -/
  | todTxStart
  /-- GNSS_PPS_EDGE (R265): A GNSS_PPS edge is timestamped. -/
  | gnssPpsEdge (rising : Bool) (at_ : Nat)
  /-- GNSS_TOD_MESSAGE (R265): A ToD message received on GNSS_TOD_RX is paired with its pulse and sets status and QL. -/
  | gnssTodMessage (valid : Bool) (status : Fin 4) (seconds : Nat)
  /-- PTP_MESSAGE (R267): A PTP message on a PTP port is processed under G.8275.1. -/
  | ptpMessage (port : Fin 8) (m : PtpMsg)
  /-- ESMC_MESSAGE (R268): An ESMC message sets the SyncE port's received QL. -/
  | esmcMessage (port : Fin 8) (good : Bool) (ssm : BitVec 4) (enhanced : Option (BitVec 8))
  /-- ESMC_TIMEOUT (R268): No ESMC message for 5 s gives the port QL DNU. -/
  | esmcTimeout (port : Fin 8)
  /-- CANDIDATE_FAULT_CHANGE (R269): A candidate fault is declared or cleared, changing its state. -/
  | candidateFaultChange (cand : Fin 16) (fault : Fin 4) (declare : Bool)
  /-- PROOFING_EXPIRY (R270): A candidate's proofing time elapses and it becomes Qualified. -/
  | proofingExpiry (cand : Fin 16)
  /-- TIME_CAND_SOURCE (R263): A write of TIME_CAND_SOURCE names a source for a candidate, checked for conflicts. -/
  | timeCandSource (q : Req) (cand : Fin 16) (v : Val)
  /-- TIME_FORCE (R276): A write of TIME_FORCE creates a reference-change action of class 0x0004. -/
  | timeForce (q : Req) (v : Val)
  /-- REFERENCE_CHANGE (R276): A reference change fires on a PPS boundary, selecting a Qualified candidate and starting a pull. -/
  | referenceChange (handle : BitVec 32) (phase : Int) (poison : Bool)
  /-- PULL_COMPLETE (R277): The build-out reaches zero and the pull ends. -/
  | pullComplete
  /-- LOCK_WINDOW_REACHED (R280): Phase within TIME_LOCK_WIN for 10 s with no pull makes TIME_LOCK Locked. -/
  | lockWindowReached
  /-- TIME_LOOP_MODE (R283): A write of TIME_LOOP_MODE creates an action of kind PPS for software or hardware control. -/
  | timeLoopMode (q : Req) (v : Val)
  /-- SOFTWARE_LOOP_ENTRY (R283): TIME_LOOP_MODE = 1 fires and the loop filter stops acting. -/
  | softwareLoopEntry (handle : BitVec 32) (poison : Bool)
  /-- SOFTWARE_LOOP_EXIT (R283): TIME_LOOP_MODE = 0 fires, loading the integrator and taking a build-out. -/
  | softwareLoopExit (handle : BitVec 32) (phase : Int) (poison : Bool)
  /-- TIME_SW_FREQ (R283): A write of TIME_SW_FREQ sets the synthesiser correction from the next calendar boundary. -/
  | timeSwFreq (q : Req) (v : Val)
  /-- TIME_SW_PHASE (R283): A write of TIME_SW_PHASE replaces the remaining pull. -/
  | timeSwPhase (q : Req) (v : Val)
  /-- SW_WATCHDOG_EXPIRY (R284): TIME_SW_FREQ unwritten for TIME_SW_WATCHDOG returns the loop to hardware control by a device action. -/
  | swWatchdogExpiry
  /-- TT_MARK_INTERVAL (R285): Each 62.5 ms the transmitter marks a frame and sends TT_INFO. -/
  | ttMarkInterval (c : CarrierNo) (txOffset : BitVec 32)
  /-- TT_INFO (R286): A received TT_INFO keeps the frame arrival as a measurement and queues TT_RETURN. -/
  | ttInfo (c : CarrierNo) (g : ScNo) (msg : BitVec 512) (failedHalf : Bool) (arrival : Nat)
  /-- TT_RETURN (R286): A received TT_RETURN is paired with a measurement to compute offset and mean delay. -/
  | ttReturn (c : CarrierNo) (g : ScNo) (msg : BitVec 512) (failedHalf : Bool)
  /-- TIME_PPS_OFFSET (R292): A write of TIME_PPS_OFFSET or TIME_FREQ_OUT takes effect from the next eligible PPS boundary. -/
  | timePpsOffset (q : Req) (freq : Bool) (k : Fin 2) (v : Val)
  /-- THERM_CONVERSION (R298): Every 100 ms the starter converts its thermistor channel. -/
  | thermConversion (code : Int) (beyond : Bool)
  /-- TEMP_INVALID_TIMEOUT (R298): No valid temperature second for 10 s sets holdover fault [0]. -/
  | tempInvalidTimeout
  /-- LEARNING_SAMPLE_COMPLETE (R297): 16 learning seconds form a sample written to the history and checked for outlier. -/
  | learningSampleComplete
  /-- OSCILLATOR_RETRACE (R300): 64 consecutive outliers refit A, mark BOOT and reset learning time. -/
  | oscillatorRetrace
  /-- MODEL_FIT (R299): Every 3 600 s of learning the model is refitted and written to MRAM. -/
  | modelFit
  /-- TIME_HO_IMPORT (R314): An imported history and model replace the stored history. -/
  | timeHoImport (q : Req) (crc : BitVec 32)
  /-- TIME_HO_CLEAR (R314): Writing 1 to TIME_HO_CLEAR empties the history. -/
  | timeHoClear (q : Req) (v : Val)
  /-- SEC_CG_NEXT (R320): A crypt-group table written by BLOCK is checked and held as next. -/
  | secCgNext (q : Req) (crc : BitVec 32)
  /-- SEC_CG_APPLY (R318): A write of SEC_CG_APPLY creates an action of class 0x0008, kind Calendar. -/
  | secCgApply (q : Req) (v : Val)
  /-- CRYPT_TABLE_APPLY (R318): The crypt-group table comes in force at its boundary after a firing check. -/
  | cryptTableApply (handle : BitVec 32) (poison : Bool)
  /-- SEC_SEG (R325): A received SEC_SEG checks each entry's tag and delivers or poisons the segment's units. -/
  | secSeg (c : CarrierNo) (g : ScNo) (msg : Option (BitVec 512)) (poison : List Bool)
  /-- SEC_KEY_WRITE (R326): A key and epoch are written to the next half of the selected pair, which becomes Loaded. -/
  | secKeyWrite (q : Req) (v : Val)
  /-- SEC_ROLL (R327): A write of SEC_ROLL creates a key-roll action of class 0x0003. -/
  | secRoll (q : Req) (v : Val)
  /-- KEY_ROLL (R327): A roll fires, exchanging Loaded and Current halves from segment 0 of the affected frame. -/
  | keyRoll (handle : BitVec 32) (poison : Bool)
  /-- SEC_ERASE (R328): A write of SEC_ERASE creates an erase action with an all-zero bake time. -/
  | secErase (q : Req) (v : Val)
  /-- KEY_ERASE (R328): An erase fires, zeroing both halves and the wrapped copy. -/
  | keyErase (handle : BitVec 32) (poison : Bool)
  /-- RETIRE_HOLD_EXPIRY (R327): A Retired half unmatched for SEC_RETIRE_HOLD becomes Empty. -/
  | retireHoldExpiry (pair : BitVec 8)
  /-- GUARD_THRESHOLD (R329): CUR_USES reaches the guard margin or limit, giving a roll-due notice or guard stop. -/
  | guardThreshold (pair : BitVec 8)
  /-- SEG_RESERVATION (R330): SEG nearing its reservation writes a new reservation to MRAM. -/
  | segReservation (c : CarrierNo) (g : ScNo)
  /-- DUAL_MISMATCH (R333): An engine's two computations differ and the invocation's units are filled or failed. -/
  | dualMismatch (c : CarrierNo) (g : ScNo) (cg : Fin 128) (transmit : Bool)
  /-- TAMPER_DETECTION (R334): A tamper sensor detects and its class's action is taken. -/
  | tamperDetection (sensor : Fin 8)
  /-- WRAPPED_ERASE_COMPLETE (R335): The erase of every wrapped key completes. -/
  | wrappedEraseComplete
  /-- SEC_ALARM_CLEAR (R336): Writing 1 to SEC_ALARM_CLEAR unlatches alarms and ends squelch cause [2]. -/
  | secAlarmClear (q : Req) (v : Val)
  /-- SEC_SENSOR_CLASS (R334): A vendor write sets sensor classes, refused when lowering a locked class. -/
  | secSensorClass (q : Req) (v : Val)
  /-- SEC_CLASS_LOCK (R334): Writing 1 to SEC_CLASS_LOCK locks sensor classes until power-up. -/
  | secClassLock (q : Req) (v : Val)
  /-- CORE_DISSENT (R340): A core's copy differs from the majority; the voted result proceeds. -/
  | coreDissent (core : Fin 3) (allDiffer : Bool)
  /-- CORE_RESYNC (R340): At the next calendar boundary the cores stall and the dissenting core is resynchronised. -/
  | coreResync (gap : Fin 4097)
  /-- CONTROL_RESTART_END (R342): The control cores resume after restoring dictionary values, and the restart is notified. -/
  | controlRestartEnd
  /-- TWIN_CORE_RETRY (R341): Writing 1 to TWIN_CORE_RETRY resynchronises removed cores into service. -/
  | twinCoreRetry (q : Req) (v : Val)
  /-- TWIN_HOST_CLASS (R347): A write of TWIN_HOST_CLASS raises or lowers the claimed health class. -/
  | twinHostClass (q : Req) (v : Val)
  /-- HEALTH_HOLD_EXPIRY (R347): A lower health class held for TWIN_HEALTH_HOLD takes effect. -/
  | healthHoldExpiry
  /-- CLAIM_LISTEN_END (R344): The random listening time after reset ends and the unit begins driving the claim bus. -/
  | claimListenEnd (presence : Bool)
  /-- CLAIM_FRAME_START (R348): Every 100 µs a unit starts a claim frame and sends its claim. -/
  | claimFrameStart
  /-- CLAIM_SYNC_JOIN (R348): A unit seeing a foreign CLAIM_SYNC falling edge joins the frame. -/
  | claimSyncJoin
  /-- CLAIM_EFFECT_INSTANT (R349): At S + 26 µs the claim result takes effect, assigning roles and CLAIM_WON. -/
  | claimEffectInstant (bus : BitVec 16) (presence : Fin 3) (stuck : Bool)
  /-- BOTH_LINKS_LOST_TAKEOVER (R351): Unit 0 takes the active role 1 ms after finding both links lost. -/
  | bothLinksLostTakeover
  /-- SHARED_OUTPUT_START (R352): The new active unit starts driving shared outputs at the first calendar boundary at least 2 µs after the effect instant. -/
  | sharedOutputStart
  /-- MATE_CONTROL_MESSAGE (R344): A mate control-channel message carries identities, claims or time, advancing pairing. -/
  | mateControlMessage (m : MateMsg)
  /-- MATE_LINK_DOWN (R350): No valid control-channel message for 200 µs marks the mate link down. -/
  | mateLinkDown
  /-- EPOCH_CLOSE (R355): The active unit closes the open epoch and sends it to the standby. -/
  | epochClose (poison : Fin 3)
  /-- EPOCH_RECEIVED (R356): A complete epoch with correct CRC is accepted by the standby for commit. -/
  | epochReceived (num : Nat) (records : List MirrorRec) (good : Bool)
  /-- EPOCH_COMMIT (R356): At the first calendar boundary after the close the standby applies the epoch in one step and sends ACK. -/
  | epochCommit
  /-- EPOCH_ACK (R357): An ACK releases withheld responses and handles of writes in that epoch. -/
  | epochAck (num : Nat)
  /-- EPOCH_ACK_TIMEOUT (R359): No ACK within TWIN_ACK_LIMIT makes the mirror Stale. -/
  | epochAckTimeout
  /-- BASELINE_COMPLETE (R358): The standby holds the whole baseline and following epochs and commits them, mirror Current. -/
  | baselineComplete (b : Baseline)
  /-- LANE_PORT_TYPE (R366): A write of LANE_PORT_TYPE sets a client port's type after alignment and ownership checks. -/
  | lanePortType (q : Req) (port : PortNo) (v : Val)
  /-- LANE_TRAIN (R368): A write of LANE_TRAIN selects a lane's training mode, all port lanes alike. -/
  | laneTrain (q : Req) (lane : PortNo) (v : Val)
  /-- LANE_PORT_ENABLE (R381): A write of LANE_PORT_ENABLE creates a calendar action enabling port directions. -/
  | lanePortEnable (q : Req) (port : PortNo) (v : Val)
  /-- TRAINING_TIMEOUT (R368): Link training's own timeout expires and the lane restarts training. -/
  | trainingTimeout (lane : PortNo)
  /-- LANE_LOCK_CHANGE (R377): A lane gains or loses lock, raising an event. -/
  | laneLockChange (lane : Fin 40) (lock : Bool) (snr : BitVec 16)
  /-- PORT_LINK_CHANGE (R367): A client port's LANE_PORT_STATE changes, failing or restoring the port. -/
  | portLinkChange (port : PortNo) (aligned : Bool) (highBer : Bool) (localFault : Bool) (remoteFault : Bool)
  /-- FLEXE_REJOIN_EXPIRY (R374): A PHY up with matching overhead for LANE_FLEXE_REJOIN rejoins its group. -/
  | flexeRejoinExpiry (port : PortNo)
  /-- LANE_FLEXE_NEXT (R373): The whole FlexE configuration is written by BLOCK. -/
  | laneFlexeNext (q : Req) (crc : BitVec 32)
  /-- LANE_FLEXE_APPLY (R373): A write of LANE_FLEXE_APPLY creates a calendar action of class 0x0008. -/
  | laneFlexeApply (q : Req) (v : Val)
  /-- FLEXE_CALENDAR_START (R373): At the firing boundary the FlexE calendar switch protocol begins. -/
  | flexeCalendarStart (handle : BitVec 32) (poison : Bool)
  /-- FLEXE_CALENDAR_SWAP (R373): Calendars swap at the overhead multiframe agreed with the far end. -/
  | flexeCalendarSwap
  /-- MATE_LANE_MARK (R377): A received lane mark advances lock, reports RX_LANES and may set NEXT_LANES. -/
  | mateLaneMark (lane : Fin 8) (mark : Option (BitVec 128)) (blocks : List (BitVec 128)) (skew : Int)
  /-- MATE_WIDTH_SWITCH (R379): At cycle SWITCH both ends change the mate lane set and U. -/
  | mateWidthSwitch (transmit : Bool)
  /-- MON_RESULT (R391): At a result boundary the converter delivers a result and chooses its next work. -/
  | monResult (code : Int) (ovr : Bool)
  /-- MON_REF_READY (R389): 2 ms after enable the reference is ready and waiting work may start. -/
  | monRefReady
  /-- MON_REF_ENABLE (R389): A write of MON_REF_ENABLE turns the reference buffer on or off, refused while in use. -/
  | monRefEnable (q : Req) (v : Val)
  /-- MON_CAL_START (R395): Writing 1 to MON_CAL_START queues a converter self-calibration. -/
  | monCalStart (q : Req) (v : Val)
  /-- MON_SELF_CAL_DONE (R394): A self-calibration run ends and new offset and gain apply. -/
  | monSelfCalDone (delays : List Int)
  /-- DIE_TEMP_TRIGGER (R399): CAL_DIE_TEMP moves beyond CAL_TEMP_STEP, queuing converter and line-path runs. -/
  | dieTempTrigger (temp : Int)
  /-- MON_SEQ_STEPS (R392): A sequence's step list is written, taking channel ownership. -/
  | monSeqSteps (q : Req) (k : Fin 8) (crc : BitVec 32)
  /-- MON_SEQ_RUN_START (R393): Writing 1 to MON_SEQ_RUN creates a calendar action to start the sequence. -/
  | monSeqRunStart (q : Req) (k : Fin 8)
  /-- MON_SEQ_RUN_STOP (R393): Writing 0 to MON_SEQ_RUN stops the sequence after the step in progress. -/
  | monSeqRunStop (q : Req) (k : Fin 8)
  /-- SEQ_PASS_START (R393): A sequence pass starts at its firing boundary or period, delayed if the last pass runs. -/
  | seqPassStart (k : Fin 8) (handle : BitVec 32) (poison : Bool)
  /-- SEQ_STEP_DONE (R392): A sequence step averages its settled results and completes. -/
  | seqStepDone (k : Fin 8)
  /-- CAL_RUN (R399): Writing 1 to CAL_RUN starts a line-path run of both directions. -/
  | calRun (q : Req) (c : CarrierNo) (v : Val)
  /-- CAL_ESTIMATE_DONE (R397): A receive calibration run ends estimation and its targets begin to ramp. -/
  | calEstimateDone (c : CarrierNo) (adc : AdcReport)
  /-- CAL_RAMP_STEP (R398): Every CAL_RAMP_MS a ramp moves its terms one of 64 steps. -/
  | calRampStep (c : CarrierNo) (transmit : Bool)
  /-- CAL_REPORT_SEND (R400): Every 10 ms a Tracking receiver sends a CAL_REPORT. -/
  | calReportSend (c : CarrierNo) (terms : List Int)
  /-- CAL_REPORT (R400): A received CAL_REPORT feeds the transmit calibration averages. -/
  | calReport (c : CarrierNo) (g : ScNo) (msg : CalMsg)
  /-- CAL_TX_SETTLE_EXPIRY (R401): The settle wait of a transmit iteration ends and averaging begins. -/
  | calTxSettleExpiry (c : CarrierNo) (delays : List Int)
  /-- CAL_TX_NO_REPORT_TIMEOUT (R401): 1 s without a VALID report ends the transmit run. -/
  | calTxNoReportTimeout (c : CarrierNo)
  /-- CAL_TX_ENABLE (R401): A write of CAL_TX_ENABLE enables or stops transmit calibration. -/
  | calTxEnable (q : Req) (c : CarrierNo) (v : Val)
  /-- CAL_SET (R406): A written calibration set is checked and written to MRAM as host-written. -/
  | calSet (q : Req) (crc : BitVec 32)
  /-- POWER_UP_LOAD (R439): After boot the device compacts the live image and runs the scalar pass of the dictionary load. -/
  | powerUpLoad (m : LoadFaults)
  /-- DOMAIN_PASS_RESUME (R439): After the restored swap fires or fails, the DOMAIN pass continues and ends with dictionary ready. -/
  | domainPassResume
  /-- DOMAIN_SLOT_REWRITE (R438): A stored DOMAIN slot rewrite completes and a pending change is taken up. -/
  | domainSlotRewrite (ref : BitVec 24)
  /-- DICT_SAVE (R442): Writing 1 to DICT_SAVE starts copying the live image to the saved image. -/
  | dictSave (q : Req) (v : Val)
  /-- DICT_SAVE_COMPLETE (R442): The saved-image copy completes, its header is written and a notice sent. -/
  | dictSaveComplete
  /-- DICT_RESTORE_CANCEL (R443): DICT_RESTORE = 0 cancels a restore request. -/
  | dictRestoreCancel (q : Req)
  /-- DICT_RESTORE_SAVED (R443): DICT_RESTORE = 1 requests the saved image at next power-up. -/
  | dictRestoreSaved (q : Req)
  /-- DICT_RESTORE_DEFAULTS (R443): DICT_RESTORE = 2 requests factory defaults at next power-up. -/
  | dictRestoreDefaults (q : Req)
  /-- DICT_RESTORE_KEEP_COMM (R443): DICT_RESTORE = 3 requests defaults keeping communication objects. -/
  | dictRestoreKeepComm (q : Req)
  /-- DICT_IMPORT (R444): An imported image is checked and replaces the saved image. -/
  | dictImport (q : Req) (crc : BitVec 32)
  /-- TEL_CNT_CTRL (R450): A counter control write takes effect and zeroes the counter at the next calendar boundary. -/
  | telCntCtrl (q : Req) (block : Fin 16) (k : Fin 8) (v : Val)
  /-- TEL_CNT (R450): A write of TEL_CNT zeroes the counter when it reaches the block. -/
  | telCnt (q : Req) (block : Fin 16) (k : Fin 8) (v : Val)
  /-- TEL_GRP_MEMBERS (R451): A snapshot group's member list is written and checked against TEL_LATCHABLE. -/
  | telGrpMembers (q : Req) (g : Fin 32) (crc : BitVec 32)
  /-- TEL_GRP_DUMP (R452): A write of TEL_GRP_DUMP creates a counter-group dump action. -/
  | telGrpDump (q : Req) (g : Fin 32) (v : Val)
  /-- COUNTER_GROUP_DUMP (R452): A group latches every member on one fabric clock and queues a snapshot record. -/
  | counterGroupDump (handle : BitVec 32) (poisoned : List Nat) (poison : Bool)
  /-- RING_RECORD_WRITE (R455): A waiting record is written to the ring when HBM takes it, overwriting the oldest. -/
  | ringRecordWrite
  /-- TEL_RING_FROM (R456): A write of TEL_RING_FROM sets the next ring read position. -/
  | telRingFrom (q : Req) (v : Val)
  /-- TEL_SWEEP_START (R457): Writing 1 to TEL_SWEEP_START creates a calendar action for a sweep. -/
  | telSweepStart (q : Req) (set : Fin 3) (v : Val)
  /-- SWEEP_START (R457): A sweep starts at its boundary, or after the previous sweep ends, writing a start record. -/
  | sweepStart (set : Fin 3) (handle : BitVec 32) (poison : Bool)
  /-- SWEEP_ITEM_READ (R458): A sweep reads one item at the rate limit and writes it to the ring. -/
  | sweepItemRead (set : Fin 3) (flow : Option (BitVec 320 × BitVec 32))
  /-- SWEEP_PERIOD_DUE (R457): TEL_SWEEP_PERIOD after a start the next sweep falls due. -/
  | sweepPeriodDue (set : Fin 3) (handle : BitVec 32) (poison : Bool)
  /-- BW_WINDOW_END (R459): A bandwidth window ends and per-port rates are updated. -/
  | bwWindowEnd
  /-- RESET_ASSERT (R463): RESET_N low or a supply below threshold puts the device in reset. -/
  | resetAssert (supply : Bool)
  /-- BROWNOUT (R465): A supply below its threshold for 1 µs resets the device with cause brownout. -/
  | brownout
  /-- OCXO_CLK_RUNNING (R493): OCXO_CLK running for 1 ms without a break allows reset to end. -/
  | ocxoClkRunning
  /-- RESET_END (R464): At X the device samples UNIT_SEL, raises the boot count, starts device time and runs boot code. -/
  | resetEnd (unitSel : Fin 2) (good : Bool × Bool)
  /-- BOOT_FAILURE_TIMEOUT (R467): The dictionary not ready within 2 s fails the boot attempt. -/
  | bootFailureTimeout (good : Bool × Bool)
  /-- PWR_IMG_DATA (R469): An image written to the idle slot is checked and written to MRAM. -/
  | pwrImgData (q : Req) (crc : BitVec 32)
  /-- IMAGE_WRITE_DURABLE (R469): The last image line is durable and the slot is marked valid. -/
  | imageWriteDurable
  /-- PWR_IMG_SWITCH (R470): A write of PWR_IMG_SWITCH creates an image-switch action of kind PPS. -/
  | pwrImgSwitch (q : Req) (v : Val)
  /-- FIRMWARE_IMAGE_SWITCH (R470): An image switch fires, making a control restart into the slot on trial. -/
  | firmwareImageSwitch (handle : BitVec 32) (poison : Bool)
  /-- PWR_IMG_CONFIRM (R470): Writing 1 to PWR_IMG_CONFIRM confirms the trial image. -/
  | pwrImgConfirm (q : Req) (v : Val)
  /-- IMAGE_TRIAL_EXPIRY (R470): No confirm within PWR_IMG_TRIAL restarts into the other slot. -/
  | imageTrialExpiry
  /-- POWER_STATE_ENTRY (R476): An entry action fires and an idle resource enters its chosen power state. -/
  | powerStateEntry (handle : BitVec 32) (poison : Bool)
  /-- POWER_STATE_WAKE (R476): A wake action fires and a sleeping resource starts to wake. -/
  | powerStateWake (handle : BitVec 32) (poison : Bool)
  /-- RESOURCE_READY (R477): A waking resource becomes ready and writes waiting on it take effect. -/
  | resourceReady (resource : Fin 848)
  /-- PWR_FEC_ACTIVE (R479): A write of PWR_FEC_ACTIVE sets the awake engines and pool size, checked against the load limit. -/
  | pwrFecActive (q : Req) (v : Val)
  /-- EXT_REF_EDGE (R266): An edge on EXT_REF0 or EXT_REF1 is timestamped as a PPS or frequency measurement of its candidate. -/
  | extRefEdge (k : Fin 2) (at_ : Nat)
  /-- PTP_MESSAGE_TRANSMIT (R267): A PTP port sends its Sync, Announce or Delay_Req message at its configured message rate. -/
  | ptpMessageTransmit (port : Fin 8) (kind : Fin 3)
  /-- ESMC_MESSAGE_TRANSMIT (R268): A SyncE port with TIME_SYNCE_ESMC_TX set sends an ESMC message carrying the advertised QL, or DNU towards the selected source. -/
  | esmcMessageTransmit (port : Fin 8)
  /-- FLEXE_OVERHEAD_LOCK_CHANGE (R374): A FlexE member PHY loses or regains lock on the FlexE overhead, removing it from its group or starting its rejoin wait. -/
  | flexeOverheadLockChange (port : PortNo) (lock : Bool)
  /-- TAMPER_SENSOR_CLEAR (R336): A tamper sensor stops detecting, clearing its bit in SEC_SENSORS so that SEC_ALARM_CLEAR may be accepted. -/
  | tamperSensorClear (sensor : Fin 8)
  /-- DAC_SYNTHESISER_RELOCK (R63): The synthesiser that derives the DAC clock regains lock, clearing squelch cause [3] and possibly ending the squelch. -/
  | dacSynthesiserRelock (c : CarrierNo)
  /-- EOP_MESSAGE_MALFORMED (R408): A message with an intact header but a wrong VERSION, unknown SERVICE, wrong LENGTH or non-zero reserved field is answered message malformed and not executed. -/
  | eopMessageMalformed (q : Req) (svc : BitVec 8)
deriving DecidableEq, Repr

end Sys2Proof
end

