-- ==== Sys2Proof/Config.lean ====
section
/-! DEFINITION. What the spec leaves open: free values. None has a body, so no statement can rest on one. -/

namespace Sys2Proof

/-- A member of a FlexE group (R373): its port, its PHY number, the client identity of each calendar slot (0: unused). -/
structure FlexeMember where
  port : Nat
  phy : Nat
  slots : List Nat
deriving DecidableEq, Repr

/-- A FlexE group: its number, its members, the slice group that carries each client identity. -/
structure FlexeGroup where
  num : Nat
  members : List FlexeMember
  clients : List (Nat × Nat)
deriving DecidableEq, Repr

namespace Config

/-- What a counter without a stated rule holds after counting past its top (assumption 4). -/
opaque counterPastTop : Nat → Nat

/-- The first tick at or after an instant of a running transmit frame clock, from its carrier and last tick (R130 states no
phase; assumption 12). -/
opaque frameTick : Nat → Nat → Nat → Nat

/-- The FRAME_COUNT of a group's frame that begins on or after a boundary, from the carrier, the group, the count now, the
device time now and the boundary: frame lengths against device time are not stated (assumption 12). -/
opaque frameAt : Nat → Nat → Nat → Nat → Nat → Nat

/-- What a code makes of more errors than it detects, from the class and the count of such values taken before: 0 clean, 1 corrected, 2 uncorrectable (assumption 170). -/
opaque beyondCode : Nat → Nat → Nat

/-- A value the spec does not state, of whatever width it is cut to, from the count of such values taken before (assumption 22). -/
opaque unstated : Nat → Nat

/-- The positions h1 (0) and h2 (1) of a flow key: PKT_FLOW_HASH_SPEC, which gives them, is not in the spec (assumption 24). -/
opaque flowHash : Fin 2 → Nat → Nat

/-- The next value of the temperature filter (10^-6 °C) from the last, the mean of a valid second and TIME_HO_TEMP_TAU: R298 names a first-order
low-pass filter without its discrete form (assumption 29). -/
opaque lowPass : Int → Int → Nat → Int

/-- What brings D_fl and D_lf of R286 to a common instant, in fu, from LINE_RX_CLOCK_OFFSET and the times of the two frames: the rule names the
correction without its formula (assumption 30). -/
opaque ttRefer : Int → Nat → Nat → Int

/-- The FlexE configuration that the bytes of LANE_FLEXE_NEXT spell; none where they spell none. R373 says what it holds without its layout
(assumption 33). -/
opaque flexe : List Nat → Option (List FlexeGroup)

/-- A block of the mate link's control channel, from the count of such values taken before and its place: R378 names its traffic without its form (assumption 176). -/
opaque mateControl : Nat → Nat → Nat

/-- The bytes of LANE_FLEXE_ACTIVE for a configuration and the calendar in use (assumption 33). -/
opaque flexeActive : List Nat → Bool → List Nat

/-- Header and record CRCs of a calibration set are right: Table 16.7 names its items without their formats (assumption 35). -/
opaque calSetGood : List Nat → Bool

/-- The code of the internal reference that the bytes of a calibration set hold (R394; assumption 35). -/
opaque referenceCode : List Nat → Int

/-- The bytes of an event's content in a notice, from the reference and what the event says: R420 names it without a layout (assumption 178). -/
opaque eventContent : Nat → List Nat → List Nat

/-- The block-specific events of TEL_EVENT_LIST: block, code from 0x100 on, highest instance; and the bytes that list a number of events (assumption 36). -/
opaque events : List (Nat × Nat × Nat)
opaque eventForm : List (Nat × Nat × Nat) → List Nat


/-- The hardware counters of other chapters that TEL_LATCHABLE lists, by reference, and the bytes that list a number of objects (assumption 36). -/
opaque latchable : List Nat
opaque latchableForm : List Nat → List Nat

/-- Factory and hardware values whose Default column reads "—" or "Factory value", by reference (assumption 37). -/
opaque factory : Nat → Nat

/-- The keys of pairs 254 and 255 as the device leaves manufacture (R424; assumption 37). -/
opaque factoryKey : Nat → Nat

/-- Which composition a shaped code uses among those of lowest mean energy, and the bytes of LINE_TX_PS_TABLE for codes 95 and 96: R42 leaves the
first open where several share that energy, Table 3.6 the layout of the second (assumption 39). -/
opaque shapingChoice : Nat → Nat
opaque shapingRest : List Nat

/-- Bytes of the constant DOMAINs whose contents the manual leaves to the device, by reference: FEC_CODE_SPEC, PKT_FLOW_HASH_SPEC,
the factory CAL_SET (assumption 39). -/
opaque table : Nat → List Nat

/-- The header of the saved image from its number of records, save generation, save time and CRC-32, and what the bytes of one hold: its size and the four. The
32-byte header of a DOMAIN's slot from REF, GEN, LENGTH and CRC-32, and what the bytes of one hold. R438, R442 and R444 name the parts of both headers, not their places
(assumption 40). -/
opaque savedHeader : Nat → Nat → Nat → Nat → List Nat
opaque readSavedHeader : List Nat → Option (Nat × Nat × Nat × Nat × Nat)
opaque slotHeader : Nat → Nat → Nat → Nat → List Nat
opaque readSlotHeader : List Nat → Option (Nat × Nat × Nat × Nat)

/-- LINE_TX_LATENCY (0) or LINE_RX_LATENCY (1) in ps, from direction, carrier, mode, overhead and group layout (R39, R71; assumption 37). -/
opaque lineLatency : Nat → Nat → Nat → Nat → Nat → Nat

/-- The signature of an image header verifies under the Nelmal key whose hash is fixed in the silicon, from the bytes it covers and its own bytes
(R466; assumption 38). -/
opaque imageSigned : List Nat → List Nat → Bool

/-- What FEC_CODE_SPEC holds (R107), which the spec does not give (assumption 39): the circulant shift at a row and a column of a base matrix (none: a zero
block); the word that the parity equations take in a group with shaped codes, from its codes, the codeword's place on the bit stream and the codeword;
where a mapping period of a code places each of its bits; start positions that delineation may test; the checks that no π/2 rotation changes; ratios that
belong to a codeword in a group with shaped codes. -/
opaque baseMatrix : Nat → Nat → Nat → Option Nat
opaque labelWord : Nat → List Nat → Nat → List Bool → List Bool
opaque placement : Nat → Nat → Nat
opaque startAllowed : Nat → List Nat → Nat → Bool
opaque invariantCheck : Nat → List Nat → Nat → Nat → Bool
opaque wordRatios : Nat → List Nat → Nat → Nat

/-- The decisions of the layered decoder after k iterations, from overhead, codes, place and ratios: R106 names the order of the layers, no rule the update
(assumption 155). -/
opaque decide : Nat → List Nat → Nat → List Int → Nat → List Bool

/-- The arrangement that the distribution matcher of a code gives for its input bits, by number among all arrangements: R42 names the matcher without its
order (assumption 153). -/
opaque matcherIndex : Nat → Nat → Nat

/-- The sign bit that stands for a negative amplitude, and whether a Gray label begins with its sign bit: R42 states neither (assumption 153). -/
opaque signNegative : Bool
opaque signFirst : Bool

/-- The SNR (0.01 dB) that the demapper takes for a subcarrier before its first valid window, from carrier and subcarrier: R89 states none (assumption 156). -/
opaque firstSnr : Nat → Nat → Nat

/-- The JTAG port: bits of its instruction register, the instruction that other codes than all ones name (1 IDCODE, 2 SAMPLE/PRELOAD, 3 EXTEST, else BYPASS), and the
32 bits of IDCODE: R496 names the instructions only (assumption 116). -/
opaque jtagIrBits : Nat
opaque jtagCode : List Bool → Nat
opaque jtagId : Nat

/-- The SEC field of a block-0 header while a crypt group is in force, from carrier, group and FRAME_COUNT: Table 6.3 refers to chapter 13, which does not
define it (assumption 157). -/
opaque secField : Nat → Nat → Nat → Nat

end Config

end Sys2Proof
end

