-- ==== Sys2Proof/Machine/Obj.lean ====
section
/-! DEFINITION. What the object dictionary is made of: an object, its access class and stated range, a row of the object
tables, and the association lists (ascending keys, no key twice) in which the state holds values. -/

namespace Sys2Proof.Machine

/-- Access classes of the object tables (R6, R416). -/
inductive Access where
  | ro | rw | wo | rws | rwc
deriving DecidableEq, Repr

/-- The values the Meaning column of an object allows: all of the type; an interval; listed values; an interval or
listed values; an interval in steps; or every value with the reserved bits (those outside the mask) held at 0 (R6). -/
inductive Range where
  | any
  | span (lo hi : Int)
  | among (vs : List Int)
  | spanOr (lo hi : Int) (vs : List Int)
  | steps (lo hi step : Int)
  | bitsOf (mask : Nat)
deriving DecidableEq, Repr

/-- One object: index and subindex as one number (index * 256 + subindex), width in bits, Default as an unsigned word,
and whether its type is signed. -/
structure Obj where
  ref : Nat
  width : Nat
  dflt : Nat
  signed : Bool
deriving DecidableEq, Repr

/-- A row of an object table: first index, instances (at the next indices), first subindex, subindices, type code of
Table 17.7, width in bits, access, Defaults (the last repeats), range, and the write level per subindex where the owning
chapter raises it (the last repeats; none: the range's level of Table 18.1). -/
structure ObjRow where
  index : Nat
  instances : Nat
  sub : Nat
  subs : Nat
  ty : Nat
  width : Nat
  access : Access
  dflts : List Nat
  range : Range
  levels : List Nat
deriving DecidableEq, Repr

/-- The value listed under key `k`. -/
def tblGet {α : Type} : List (Nat × α) → Nat → Option α
  | [], _ => none
  | (k', v) :: r, k => if k = k' then some v else tblGet r k

/-- The list with `v` under key `k`, in ascending order of the keys. -/
def tblPut {α : Type} : List (Nat × α) → Nat → α → List (Nat × α)
  | [], k, v => [(k, v)]
  | (k', v') :: r, k, v =>
    if k < k' then (k, v) :: (k', v') :: r
    else if k = k' then (k, v) :: r
    else (k', v') :: tblPut r k v

/-- The list without key `k`. -/
def tblDel {α : Type} : List (Nat × α) → Nat → List (Nat × α)
  | [], _ => []
  | (k', v) :: r, k => if k = k' then tblDel r k else (k', v) :: tblDel r k

/-- The value under `k`, or `z` where none is listed. -/
def tblGetD {α : Type} (t : List (Nat × α)) (k : Nat) (z : α) : α := (tblGet t k).getD z

/-- Writes `v` under `k`; the value `z` of an unlisted key is not listed, so that equal contents are equal lists. -/
def tblSet {α : Type} [DecidableEq α] (t : List (Nat × α)) (k : Nat) (v z : α) : List (Nat × α) :=
  if v = z then tblDel t k else tblPut t k v

/-- The keys rise strictly from the front: the canonical form of every association list of the state. -/
def tblSorted {α : Type} : List (Nat × α) → Bool
  | [] => true
  | [_] => true
  | (k, _) :: (k', v') :: r => decide (k < k') && tblSorted ((k', v') :: r)

end Sys2Proof.Machine
end

