-- ==== Sys2Proof/Machine/ObjTable.lean ====
section
/-! DEFINITION. The rows of the object tables as the generic READ, WRITE, BUNDLE and BLOCK services see them: index, number
of instances, first subindex, number of subindices, type code (Table 17.7), width in bits, access class, Defaults (the last
repeats), the range the Meaning column states, and the extra write level an owning chapter states. -/

namespace Sys2Proof.Machine
/-- Rows 0 to 39 of the object tables, in ascending index. -/
def objRows00 : List ObjRow := [
  ⟨0x1000, 1, 0x01, 1, 13, 128, .ro, [0x4E656C6D616C00000000000000000000], .any, []⟩,
  ⟨0x1000, 1, 0x02, 1, 13, 128, .ro, [0x5658343838302D454100000000000000], .any, []⟩,
  ⟨0x1000, 1, 0x03, 1, 13, 32, .ro, [0x42300000], .any, []⟩,
  ⟨0x1000, 1, 0x04, 1, 6, 64, .ro, [0], .any, []⟩,
  ⟨0x1000, 1, 0x05, 1, 11, 96, .ro, [0], .any, []⟩,
  ⟨0x1000, 1, 0x06, 1, 4, 16, .ro, [0x100], .any, []⟩,
  ⟨0x1000, 1, 0x07, 1, 5, 32, .ro, [0], .any, []⟩,
  ⟨0x1000, 1, 0x08, 1, 3, 8, .ro, [0], .any, []⟩,
  ⟨0x1000, 1, 0x09, 1, 6, 64, .ro, [0], .any, []⟩,
  ⟨0x1000, 1, 0x0A, 1, 1, 1, .ro, [0], .any, []⟩,
  ⟨0x1000, 1, 0x0B, 1, 13, 128, .rw, [0], .any, []⟩,
  ⟨0x1000, 1, 0x0C, 1, 13, 128, .rw, [0], .any, []⟩,
  ⟨0x1100, 1, 0x01, 1, 12, 48, .rw, [0], .any, [2]⟩,
  ⟨0x1100, 1, 0x02, 1, 3, 8, .rw, [0xFF], .any, []⟩,
  ⟨0x1100, 1, 0x03, 1, 3, 8, .rw, [8], .any, []⟩,
  ⟨0x1102, 1, 0x01, 1, 4, 16, .rw, [0xFFE], .span (1) (4094), []⟩,
  ⟨0x1102, 1, 0x02, 1, 5, 32, .rw, [0], .any, []⟩,
  ⟨0x1102, 1, 0x03, 1, 4, 16, .rw, [0x1F4], .span (10) (10000), []⟩,
  ⟨0x1104, 1, 0x01, 4, 2, 8, .rw, [3, 3, 1, 0], .span (0) (3), [2]⟩,
  ⟨0x1106, 1, 0x01, 2, 4, 16, .rw, [0xFE, 0xFF], .spanOr (0) (255) [65535], [2, 3]⟩,
  ⟨0x1106, 1, 0x03, 1, 4, 16, .rw, [0x3C], .span (5) (3600), []⟩,
  ⟨0x1106, 1, 0x04, 1, 3, 8, .ro, [0], .any, []⟩,
  ⟨0x1106, 1, 0x05, 1, 4, 16, .rw, [0xA], .span (1) (10000), []⟩,
  ⟨0x1108, 1, 0x01, 1, 5, 32, .rwc, [0], .any, []⟩,
  ⟨0x1108, 1, 0x02, 1, 5, 32, .rwc, [0], .any, []⟩,
  ⟨0x1108, 1, 0x03, 1, 5, 32, .rwc, [0], .any, []⟩,
  ⟨0x1200, 1, 0x01, 1, 1, 1, .wo, [0], .any, []⟩,
  ⟨0x1200, 1, 0x02, 1, 2, 8, .rw, [0], .span (0) (3), []⟩,
  ⟨0x1200, 1, 0x03, 1, 2, 8, .ro, [0], .any, []⟩,
  ⟨0x1200, 1, 0x04, 1, 3, 8, .ro, [0], .any, []⟩,
  ⟨0x1200, 1, 0x05, 1, 4, 16, .ro, [0], .any, []⟩,
  ⟨0x1200, 1, 0x06, 1, 11, 96, .ro, [0], .any, []⟩,
  ⟨0x1200, 1, 0x07, 1, 5, 32, .ro, [0], .any, []⟩,
  ⟨0x1200, 1, 0x08, 1, 5, 32, .rwc, [0], .any, []⟩,
  ⟨0x1200, 1, 0x09, 1, 14, 0, .ro, [0], .any, []⟩,
  ⟨0x1200, 1, 0x0A, 1, 14, 0, .ro, [0], .any, []⟩,
  ⟨0x1200, 1, 0x0B, 1, 14, 0, .wo, [0], .any, [2]⟩,
  ⟨0x2010, 2, 0x01, 1, 1, 1, .rw, [0], .any, []⟩,
  ⟨0x2010, 2, 0x02, 1, 2, 8, .ro, [0], .any, []⟩,
  ⟨0x2010, 2, 0x03, 1, 1, 1, .rw, [0], .any, []⟩]

/-- Rows 40 to 79 of the object tables, in ascending index. -/
def objRows01 : List ObjRow := [
  ⟨0x2010, 2, 0x04, 1, 2, 8, .rw, [1], .span (0) (1), []⟩,
  ⟨0x2010, 2, 0x05, 1, 4, 16, .ro, [0], .any, []⟩,
  ⟨0x2010, 2, 0x06, 1, 3, 8, .rw, [4], .span (2) (6), []⟩,
  ⟨0x2010, 2, 0x07, 1, 5, 32, .ro, [0], .any, []⟩,
  ⟨0x2010, 2, 0x08, 1, 4, 16, .rw, [0xA], .any, []⟩,
  ⟨0x2012, 2, 0x01, 16, 3, 8, .ro, [0], .any, []⟩,
  ⟨0x2016, 2, 0x01, 1, 4, 16, .rw, [0x1F4], .steps 300 800 10, []⟩,
  ⟨0x2016, 2, 0x02, 1, 9, 32, .rw, [0], .span (-10000) (10000), []⟩,
  ⟨0x2016, 2, 0x03, 4, 8, 16, .rw, [0], .span (-250) (250), []⟩,
  ⟨0x2016, 2, 0x07, 2, 8, 16, .rw, [0], .span (-1000) (1000), []⟩,
  ⟨0x2016, 2, 0x09, 2, 8, 16, .rw, [0], .span (-1000) (1000), []⟩,
  ⟨0x2016, 2, 0x0B, 1, 3, 8, .rw, [0x5A], .span (60) (120), []⟩,
  ⟨0x2016, 2, 0x0C, 1, 14, 0, .rw, [0], .any, []⟩,
  ⟨0x2016, 2, 0x0D, 1, 14, 0, .ro, [0], .any, []⟩,
  ⟨0x2018, 4, 0x01, 1, 2, 8, .rw, [0], .span (0) (3), []⟩,
  ⟨0x2018, 4, 0x02, 1, 5, 32, .rw, [0x2580], .span (0) (115200), []⟩,
  ⟨0x2018, 4, 0x03, 1, 5, 32, .rw, [0xB8278E0], .any, []⟩,
  ⟨0x2018, 4, 0x04, 1, 8, 16, .rw, [0x514], .any, []⟩,
  ⟨0x2018, 4, 0x05, 1, 9, 32, .rw, [0], .any, []⟩,
  ⟨0x2018, 4, 0x06, 1, 2, 8, .ro, [0], .any, []⟩,
  ⟨0x2018, 4, 0x07, 1, 4, 16, .rw, [0x3C], .any, []⟩,
  ⟨0x2018, 4, 0x08, 1, 12, 32, .rw, [0], .any, []⟩,
  ⟨0x2018, 4, 0x09, 1, 5, 32, .rwc, [0], .any, []⟩,
  ⟨0x2018, 4, 0x0A, 1, 2, 8, .rw, [0], .span (0) (1), []⟩,
  ⟨0x201C, 1, 0x01, 1, 5, 32, .rw, [0x2710], .span (1000) (25000), []⟩,
  ⟨0x201C, 1, 0x02, 8, 4, 16, .rw, [0x1C], .bitsOf 0x7F, []⟩,
  ⟨0x201C, 1, 0x0A, 1, 14, 0, .rw, [0], .any, []⟩,
  ⟨0x201C, 1, 0x0B, 1, 14, 0, .rw, [0], .any, []⟩,
  ⟨0x201C, 1, 0x0C, 1, 14, 0, .rw, [0], .any, []⟩,
  ⟨0x201C, 1, 0x0D, 1, 5, 32, .rwc, [0], .any, []⟩,
  ⟨0x2020, 12, 0x01, 1, 2, 8, .rw, [0], .span (0) (2), []⟩,
  ⟨0x2020, 12, 0x02, 1, 4, 16, .rw, [0], .any, []⟩,
  ⟨0x2020, 12, 0x03, 1, 3, 8, .rw, [0xFF], .spanOr (0) (31) [255], []⟩,
  ⟨0x2020, 12, 0x04, 1, 2, 8, .rw, [0], .span (0) (1), []⟩,
  ⟨0x2020, 12, 0x05, 1, 9, 32, .rw, [0], .any, []⟩,
  ⟨0x2020, 12, 0x06, 1, 4, 16, .rw, [0x100], .any, []⟩,
  ⟨0x2020, 12, 0x07, 1, 4, 16, .rw, [0], .any, []⟩,
  ⟨0x2020, 12, 0x08, 1, 4, 16, .rw, [0xFFFF], .any, []⟩,
  ⟨0x2020, 12, 0x09, 1, 4, 16, .rw, [0x148], .any, []⟩,
  ⟨0x2020, 12, 0x0A, 1, 5, 32, .rw, [0x7D0], .any, []⟩]

/-- Rows 80 to 119 of the object tables, in ascending index. -/
def objRows02 : List ObjRow := [
  ⟨0x2020, 12, 0x0B, 1, 9, 32, .ro, [0], .any, []⟩,
  ⟨0x2020, 12, 0x0C, 1, 2, 8, .ro, [0], .any, []⟩,
  ⟨0x2020, 12, 0x0D, 1, 4, 16, .rw, [0], .any, []⟩,
  ⟨0x202C, 1, 0x01, 1, 3, 8, .rw, [8], .span (1) (64), []⟩,
  ⟨0x202C, 1, 0x02, 1, 5, 32, .ro, [0], .any, []⟩,
  ⟨0x202C, 1, 0x03, 1, 5, 32, .rwc, [0], .any, []⟩,
  ⟨0x2040, 2, 0x01, 1, 1, 1, .rw, [0], .any, []⟩,
  ⟨0x2040, 2, 0x02, 1, 2, 8, .ro, [0], .any, []⟩,
  ⟨0x2040, 2, 0x03, 1, 4, 16, .ro, [0], .any, []⟩,
  ⟨0x2040, 2, 0x04, 1, 5, 32, .ro, [0], .any, []⟩,
  ⟨0x2040, 2, 0x05, 1, 4, 16, .rw, [2], .any, []⟩,
  ⟨0x2040, 2, 0x06, 1, 5, 32, .ro, [0], .any, []⟩,
  ⟨0x2040, 2, 0x07, 1, 3, 8, .rw, [0x1E], .span (20) (40), []⟩,
  ⟨0x2040, 2, 0x08, 1, 5, 32, .rwc, [0], .any, []⟩,
  ⟨0x2040, 2, 0x09, 4, 4, 16, .ro, [0], .any, []⟩,
  ⟨0x2040, 2, 0x0D, 1, 5, 32, .rwc, [0], .any, []⟩,
  ⟨0x2040, 2, 0x0E, 1, 2, 8, .ro, [0], .any, []⟩,
  ⟨0x2040, 2, 0x0F, 1, 8, 16, .ro, [0], .any, []⟩,
  ⟨0x2040, 2, 0x10, 4, 8, 16, .ro, [0], .any, []⟩,
  ⟨0x2040, 2, 0x14, 2, 8, 16, .ro, [0], .any, []⟩,
  ⟨0x2040, 2, 0x16, 2, 8, 16, .ro, [0], .any, []⟩,
  ⟨0x2040, 2, 0x18, 4, 8, 16, .ro, [0], .any, []⟩,
  ⟨0x2042, 2, 0x01, 1, 9, 32, .rw, [0xFFFEC780], .any, []⟩,
  ⟨0x2042, 2, 0x02, 1, 9, 32, .rw, [0x13880], .any, []⟩,
  ⟨0x2042, 2, 0x03, 1, 9, 32, .ro, [0], .any, []⟩,
  ⟨0x2042, 2, 0x04, 1, 4, 16, .ro, [0], .any, []⟩,
  ⟨0x2042, 2, 0x05, 1, 2, 8, .ro, [0], .any, []⟩,
  ⟨0x2042, 2, 0x06, 1, 9, 32, .ro, [0], .any, []⟩,
  ⟨0x2042, 2, 0x07, 1, 4, 16, .rw, [0x3E8], .span (100) (10000), []⟩,
  ⟨0x2042, 2, 0x08, 1, 9, 32, .ro, [0], .any, []⟩,
  ⟨0x2042, 2, 0x09, 1, 2, 8, .ro, [0], .any, []⟩,
  ⟨0x2042, 2, 0x0A, 1, 4, 16, .ro, [0], .any, []⟩,
  ⟨0x2042, 2, 0x0B, 1, 4, 16, .ro, [0], .any, []⟩,
  ⟨0x2044, 2, 0x01, 1, 3, 8, .rw, [0x21], .among [9, 17, 25, 33], []⟩,
  ⟨0x2044, 2, 0x02, 1, 3, 8, .rw, [3], .span (0) (3), []⟩,
  ⟨0x2044, 2, 0x03, 1, 3, 8, .rw, [0xC], .span (8) (20), []⟩,
  ⟨0x2044, 2, 0x04, 1, 3, 8, .rw, [0xE], .span (8) (20), []⟩,
  ⟨0x2044, 2, 0x05, 1, 4, 16, .rw, [0x64], .any, []⟩,
  ⟨0x2044, 2, 0x06, 1, 4, 16, .rw, [0x12C], .any, []⟩,
  ⟨0x2044, 2, 0x07, 1, 1, 1, .rw, [0], .any, []⟩]

/-- Rows 120 to 159 of the object tables, in ascending index. -/
def objRows03 : List ObjRow := [
  ⟨0x2044, 2, 0x08, 1, 3, 8, .rw, [0x18], .span (8) (64), []⟩,
  ⟨0x2044, 2, 0x09, 1, 1, 1, .rw, [1], .any, []⟩,
  ⟨0x2044, 2, 0x0A, 1, 4, 16, .rw, [0xA], .span (1) (1000), []⟩,
  ⟨0x2046, 2, 0x01, 16, 2, 8, .ro, [0], .any, []⟩,
  ⟨0x2048, 2, 0x01, 16, 4, 16, .ro, [0xFFFF], .any, []⟩,
  ⟨0x204A, 2, 0x01, 16, 5, 32, .rwc, [0], .any, []⟩,
  ⟨0x204C, 2, 0x01, 16, 3, 8, .ro, [0x20], .any, []⟩,
  ⟨0x2050, 2, 0x01, 1, 2, 8, .rw, [1], .span (0) (1), []⟩,
  ⟨0x2050, 2, 0x02, 1, 1, 1, .rw, [1], .any, []⟩,
  ⟨0x2050, 2, 0x03, 1, 3, 8, .rw, [0xA], .any, []⟩,
  ⟨0x2050, 2, 0x04, 1, 3, 8, .rw, [3], .any, []⟩,
  ⟨0x2050, 2, 0x05, 3, 7, 8, .rw, [4, 0xFD, 0xF5], .any, []⟩,
  ⟨0x2050, 2, 0x08, 1, 3, 8, .rw, [0x60], .span (24) (96), []⟩,
  ⟨0x2050, 2, 0x09, 1, 1, 1, .rw, [0], .any, []⟩,
  ⟨0x2050, 2, 0x0A, 1, 4, 16, .rw, [0xFFFF], .any, []⟩,
  ⟨0x2050, 2, 0x0B, 1, 4, 16, .rw, [0xFFFF], .any, []⟩,
  ⟨0x2050, 2, 0x0C, 1, 4, 16, .rw, [0x3E8], .span (100) (60000), []⟩,
  ⟨0x2050, 2, 0x0D, 1, 4, 16, .rw, [0x14], .span (2) (1000), []⟩,
  ⟨0x2050, 2, 0x0E, 1, 4, 16, .rw, [0x7D0], .span (100) (60000), []⟩,
  ⟨0x2050, 2, 0x0F, 1, 2, 8, .ro, [0], .any, []⟩,
  ⟨0x2050, 2, 0x10, 1, 3, 8, .ro, [0], .any, []⟩,
  ⟨0x2050, 2, 0x11, 1, 12, 128, .wo, [0], .any, []⟩,
  ⟨0x2050, 2, 0x12, 1, 5, 32, .rwc, [0], .any, []⟩,
  ⟨0x2050, 2, 0x13, 1, 5, 32, .rwc, [0], .any, []⟩,
  ⟨0x2050, 2, 0x14, 1, 5, 32, .rwc, [0], .any, []⟩,
  ⟨0x2050, 2, 0x15, 1, 5, 32, .rwc, [0], .any, []⟩,
  ⟨0x2052, 2, 0x01, 16, 3, 8, .ro, [0], .any, []⟩,
  ⟨0x2060, 2, 0x01, 1, 2, 8, .rw, [1], .span (0) (2), []⟩,
  ⟨0x2060, 2, 0x02, 1, 3, 8, .rw, [0x12], .span (4) (18), []⟩,
  ⟨0x2060, 2, 0x03, 1, 2, 8, .rw, [0], .span (0) (1), []⟩,
  ⟨0x2060, 2, 0x04, 1, 4, 16, .ro, [0x4B0], .any, []⟩,
  ⟨0x2060, 2, 0x05, 1, 4, 16, .rw, [0x3E8], .span (1) (60000), []⟩,
  ⟨0x2060, 2, 0x06, 1, 5, 32, .ro, [0xFFFFFFFF], .any, []⟩,
  ⟨0x2060, 2, 0x07, 1, 5, 32, .ro, [0xFFFFFFFF], .any, []⟩,
  ⟨0x2060, 2, 0x08, 1, 8, 16, .ro, [0x7FFF], .any, []⟩,
  ⟨0x2060, 2, 0x09, 1, 4, 16, .ro, [0], .any, []⟩,
  ⟨0x2062, 2, 0x01, 1, 6, 64, .rwc, [0], .any, []⟩,
  ⟨0x2062, 2, 0x02, 1, 6, 64, .rwc, [0], .any, []⟩,
  ⟨0x2062, 2, 0x03, 1, 6, 64, .rwc, [0], .any, []⟩,
  ⟨0x2062, 2, 0x04, 1, 6, 64, .rwc, [0], .any, []⟩]

/-- Rows 160 to 199 of the object tables, in ascending index. -/
def objRows04 : List ObjRow := [
  ⟨0x2062, 2, 0x05, 1, 6, 64, .rwc, [0], .any, []⟩,
  ⟨0x2062, 2, 0x06, 1, 6, 64, .rwc, [0], .any, []⟩,
  ⟨0x2062, 2, 0x07, 1, 6, 64, .rwc, [0], .any, []⟩,
  ⟨0x2062, 2, 0x08, 1, 6, 64, .rwc, [0], .any, []⟩,
  ⟨0x2062, 2, 0x09, 1, 6, 64, .rwc, [0], .any, []⟩,
  ⟨0x2062, 2, 0x0A, 1, 6, 64, .rwc, [0], .any, []⟩,
  ⟨0x2064, 2, 0x01, 16, 5, 32, .ro, [0xFFFFFFFF], .any, []⟩,
  ⟨0x2066, 2, 0x01, 19, 6, 64, .rwc, [0], .any, []⟩,
  ⟨0x2068, 1, 0x01, 1, 3, 8, .rw, [4], .span (4) (8), []⟩,
  ⟨0x2068, 1, 0x02, 1, 2, 8, .rw, [0], .span (0) (2), []⟩,
  ⟨0x2068, 1, 0x03, 1, 4, 16, .ro, [0], .any, []⟩,
  ⟨0x2068, 1, 0x04, 1, 3, 8, .rwc, [0], .any, []⟩,
  ⟨0x2068, 1, 0x05, 1, 6, 64, .rwc, [0], .any, []⟩,
  ⟨0x2068, 1, 0x06, 1, 4, 16, .ro, [0], .any, []⟩,
  ⟨0x2068, 1, 0x07, 1, 3, 8, .ro, [0x50], .any, []⟩,
  ⟨0x2068, 1, 0x08, 1, 14, 0, .ro, [0], .any, []⟩,
  ⟨0x2080, 2, 0x01, 1, 4, 16, .rw, [1], .any, []⟩,
  ⟨0x2080, 2, 0x02, 1, 3, 8, .rw, [6], .span (2) (8), []⟩,
  ⟨0x2080, 2, 0x03, 1, 3, 8, .rw, [4], .span (2) (16), []⟩,
  ⟨0x2080, 2, 0x04, 1, 4, 16, .rw, [3], .span (1) (100), []⟩,
  ⟨0x2080, 2, 0x05, 1, 4, 16, .rw, [3], .span (1) (100), []⟩,
  ⟨0x2080, 2, 0x06, 1, 3, 8, .rw, [0x55], .span (10) (100), []⟩,
  ⟨0x2080, 2, 0x07, 1, 3, 8, .rw, [0x46], .any, []⟩,
  ⟨0x2080, 2, 0x08, 1, 4, 16, .rw, [0xA], .span (1) (10000), []⟩,
  ⟨0x2080, 2, 0x09, 1, 4, 16, .rw, [0x64], .span (1) (10000), []⟩,
  ⟨0x2080, 2, 0x0A, 1, 3, 8, .rw, [3], .span (1) (15), []⟩,
  ⟨0x2080, 2, 0x0B, 1, 5, 32, .rw, [0], .bitsOf 0xFFFFFF, []⟩,
  ⟨0x2080, 2, 0x0C, 1, 5, 32, .rw, [0], .bitsOf 0xFFFFFF, []⟩,
  ⟨0x2080, 2, 0x0D, 1, 2, 8, .rw, [0], .span (0) (2), []⟩,
  ⟨0x2080, 2, 0x0E, 1, 4, 16, .rw, [0x14], .span (5) (1000), []⟩,
  ⟨0x2080, 2, 0x0F, 1, 4, 16, .rw, [0], .any, []⟩,
  ⟨0x2080, 2, 0x10, 1, 4, 16, .ro, [0], .any, []⟩,
  ⟨0x2082, 2, 0x01, 16, 2, 8, .ro, [0], .any, []⟩,
  ⟨0x2084, 2, 0x01, 16, 4, 16, .ro, [0], .any, []⟩,
  ⟨0x2086, 2, 0x01, 16, 5, 32, .ro, [0], .any, []⟩,
  ⟨0x2088, 2, 0x01, 16, 5, 32, .ro, [0], .any, []⟩,
  ⟨0x208A, 2, 0x01, 1, 6, 64, .rwc, [0], .any, []⟩,
  ⟨0x208A, 2, 0x02, 1, 5, 32, .rwc, [0], .any, []⟩,
  ⟨0x208A, 2, 0x03, 1, 5, 32, .rwc, [0], .any, []⟩,
  ⟨0x208A, 2, 0x04, 1, 6, 64, .rwc, [0], .any, []⟩]

/-- Rows 200 to 239 of the object tables, in ascending index. -/
def objRows05 : List ObjRow := [
  ⟨0x208A, 2, 0x05, 1, 5, 32, .rwc, [0], .any, []⟩,
  ⟨0x208A, 2, 0x06, 1, 5, 32, .rwc, [0], .any, []⟩,
  ⟨0x208A, 2, 0x07, 1, 5, 32, .rwc, [0], .any, []⟩,
  ⟨0x208C, 1, 0x01, 16, 9, 32, .ro, [0], .any, []⟩,
  ⟨0x208E, 1, 0x01, 1, 1, 1, .rw, [0], .any, []⟩,
  ⟨0x2090, 2, 0x01, 16, 5, 32, .ro, [0], .any, []⟩,
  ⟨0x2800, 2, 0x01, 1, 1, 1, .rw, [0], .any, []⟩,
  ⟨0x2800, 2, 0x02, 1, 3, 8, .rw, [0x10], .span (1) (64), []⟩,
  ⟨0x2800, 2, 0x03, 1, 3, 8, .rw, [0x20], .span (8) (255), []⟩,
  ⟨0x2800, 2, 0x04, 1, 4, 16, .rw, [0x20], .span (8) (1000), []⟩,
  ⟨0x2800, 2, 0x05, 1, 3, 8, .rw, [4], .span (1) (16), []⟩,
  ⟨0x2800, 2, 0x06, 1, 3, 8, .rw, [1], .span (1) (8), []⟩,
  ⟨0x2800, 2, 0x07, 1, 6, 64, .rw, [0xB3A596C34F1ED287], .any, []⟩,
  ⟨0x2800, 2, 0x08, 1, 3, 8, .rw, [4], .span (0) (8), []⟩,
  ⟨0x2800, 2, 0x09, 1, 3, 8, .rw, [0x60], .any, []⟩,
  ⟨0x2800, 2, 0x0A, 1, 3, 8, .rw, [0x3C], .span (30) (200), []⟩,
  ⟨0x2800, 2, 0x0B, 1, 4, 16, .rw, [8], .span (2) (10000), []⟩,
  ⟨0x2800, 2, 0x0C, 1, 4, 16, .rw, [0x64], .any, []⟩,
  ⟨0x2800, 2, 0x0D, 1, 4, 16, .rw, [0xFFFF], .any, []⟩,
  ⟨0x2800, 2, 0x0E, 1, 2, 8, .ro, [0], .any, []⟩,
  ⟨0x2800, 2, 0x0F, 1, 3, 8, .ro, [0xFF], .any, []⟩,
  ⟨0x2800, 2, 0x10, 1, 4, 16, .rw, [0x10], .any, []⟩,
  ⟨0x2800, 2, 0x11, 1, 1, 1, .rw, [1], .any, []⟩,
  ⟨0x2800, 2, 0x12, 1, 9, 32, .rw, [0], .any, []⟩,
  ⟨0x2800, 2, 0x13, 1, 4, 16, .rw, [0xA], .any, []⟩,
  ⟨0x2800, 2, 0x14, 1, 5, 32, .rwc, [0], .any, []⟩,
  ⟨0x2800, 2, 0x15, 1, 5, 32, .rwc, [0], .any, []⟩,
  ⟨0x2800, 2, 0x16, 1, 5, 32, .rwc, [0], .any, []⟩,
  ⟨0x2802, 2, 0x01, 1, 14, 0, .rw, [0], .any, []⟩,
  ⟨0x2802, 2, 0x02, 1, 3, 8, .rws, [0], .any, []⟩,
  ⟨0x2802, 2, 0x03, 1, 14, 0, .ro, [0], .any, []⟩,
  ⟨0x2802, 2, 0x04, 1, 11, 96, .ro, [0], .any, []⟩,
  ⟨0x2804, 2, 0x01, 16, 3, 8, .rws, [0x20], .any, []⟩,
  ⟨0x2806, 2, 0x01, 16, 3, 8, .ro, [0], .any, []⟩,
  ⟨0x2808, 2, 0x01, 16, 2, 8, .ro, [0], .any, []⟩,
  ⟨0x280A, 2, 0x01, 16, 5, 32, .rwc, [0], .any, []⟩,
  ⟨0x280C, 2, 0x01, 16, 5, 32, .rwc, [0], .any, []⟩,
  ⟨0x280E, 2, 0x01, 16, 5, 32, .rwc, [0], .any, []⟩,
  ⟨0x2810, 256, 0x01, 1, 1, 1, .rw, [0], .any, []⟩,
  ⟨0x2810, 256, 0x02, 1, 6, 64, .rw, [0], .any, []⟩]

/-- Rows 240 to 279 of the object tables, in ascending index. -/
def objRows06 : List ObjRow := [
  ⟨0x2810, 256, 0x03, 1, 4, 16, .rw, [0xFFFF], .spanOr (0) (255) [65535], []⟩,
  ⟨0x2810, 256, 0x04, 1, 2, 8, .ro, [0], .any, []⟩,
  ⟨0x2810, 256, 0x05, 1, 3, 8, .ro, [0xFF], .any, []⟩,
  ⟨0x2810, 256, 0x06, 1, 5, 32, .ro, [0], .any, []⟩,
  ⟨0x2810, 256, 0x07, 1, 5, 32, .ro, [0], .any, []⟩,
  ⟨0x2810, 256, 0x08, 1, 8, 16, .ro, [0x8000], .any, []⟩,
  ⟨0x2810, 256, 0x09, 1, 4, 16, .ro, [0xFFFF], .any, []⟩,
  ⟨0x2810, 256, 0x0A, 1, 3, 8, .ro, [0], .any, []⟩,
  ⟨0x2810, 256, 0x0B, 1, 4, 16, .ro, [0xFFFF], .any, []⟩,
  ⟨0x2810, 256, 0x0C, 1, 9, 32, .ro, [0], .any, []⟩,
  ⟨0x2810, 256, 0x0D, 1, 3, 8, .ro, [0], .any, []⟩,
  ⟨0x2810, 256, 0x0E, 1, 5, 32, .ro, [0xFFFFFFFF], .any, []⟩,
  ⟨0x2810, 256, 0x0F, 1, 6, 64, .rwc, [0], .any, []⟩,
  ⟨0x2810, 256, 0x10, 1, 5, 32, .rwc, [0], .any, []⟩,
  ⟨0x2810, 256, 0x11, 1, 5, 32, .rwc, [0], .any, []⟩,
  ⟨0x2810, 256, 0x12, 1, 5, 32, .rwc, [0], .any, []⟩,
  ⟨0x3000, 1, 0x01, 1, 14, 0, .rw, [0], .any, []⟩,
  ⟨0x3000, 1, 0x02, 1, 14, 0, .ro, [0], .any, []⟩,
  ⟨0x3000, 1, 0x03, 1, 4, 16, .rws, [0], .span (1) (65535), []⟩,
  ⟨0x3000, 1, 0x04, 1, 4, 16, .ro, [0], .any, []⟩,
  ⟨0x3000, 1, 0x05, 1, 2, 8, .ro, [0], .any, []⟩,
  ⟨0x3000, 1, 0x06, 1, 1, 1, .wo, [0], .any, []⟩,
  ⟨0x3000, 1, 0x07, 1, 12, 64, .ro, [0], .any, []⟩,
  ⟨0x3000, 1, 0x08, 1, 4, 16, .ro, [0], .any, []⟩,
  ⟨0x3002, 1, 0x01, 1, 6, 64, .rwc, [0], .any, []⟩,
  ⟨0x3002, 1, 0x02, 1, 5, 32, .rwc, [0], .any, []⟩,
  ⟨0x3002, 1, 0x03, 1, 5, 32, .rwc, [0], .any, []⟩,
  ⟨0x3002, 1, 0x04, 1, 5, 32, .ro, [0], .any, []⟩,
  ⟨0x3002, 1, 0x05, 1, 5, 32, .ro, [0], .any, []⟩,
  ⟨0x3004, 1, 0x01, 66, 5, 32, .rwc, [0], .any, []⟩,
  ⟨0x3006, 1, 0x01, 66, 5, 32, .ro, [0], .any, []⟩,
  ⟨0x3008, 1, 0x01, 66, 5, 32, .ro, [0], .any, []⟩,
  ⟨0x3010, 1, 0x01, 1, 4, 16, .rw, [0], .any, []⟩,
  ⟨0x3012, 1, 0x01, 2, 2, 8, .ro, [0], .any, []⟩,
  ⟨0x3012, 1, 0x03, 2, 3, 8, .ro, [0], .any, []⟩,
  ⟨0x3012, 1, 0x05, 1, 2, 8, .ro, [0], .any, []⟩,
  ⟨0x3012, 1, 0x06, 1, 2, 8, .ro, [0], .any, []⟩,
  ⟨0x3012, 1, 0x07, 1, 4, 16, .ro, [0], .any, []⟩,
  ⟨0x3012, 1, 0x08, 1, 3, 8, .ro, [0], .any, []⟩,
  ⟨0x3012, 1, 0x09, 1, 9, 32, .ro, [0], .any, []⟩]

/-- Rows 280 to 319 of the object tables, in ascending index. -/
def objRows07 : List ObjRow := [
  ⟨0x3012, 1, 0x0A, 1, 5, 32, .rwc, [0], .any, []⟩,
  ⟨0x3012, 1, 0x0B, 1, 5, 32, .rwc, [0], .any, []⟩,
  ⟨0x3012, 1, 0x0C, 1, 5, 32, .ro, [0], .any, []⟩,
  ⟨0x3012, 1, 0x0D, 1, 5, 32, .rwc, [0], .any, []⟩,
  ⟨0x3014, 1, 0x01, 1, 12, 32, .wo, [0], .any, []⟩,
  ⟨0x3014, 1, 0x02, 1, 14, 0, .ro, [0], .any, []⟩,
  ⟨0x3014, 1, 0x03, 1, 3, 8, .rw, [6], .span (2) (8), []⟩,
  ⟨0x3014, 1, 0x04, 1, 3, 8, .rw, [4], .span (2) (16), []⟩,
  ⟨0x3014, 1, 0x05, 1, 4, 16, .rw, [3], .span (1) (100), []⟩,
  ⟨0x4000, 1, 0x01, 1, 4, 16, .rw, [0x2400], .span (64) (10240), []⟩,
  ⟨0x4000, 1, 0x02, 1, 6, 64, .ro, [0x2000000000], .any, []⟩,
  ⟨0x4000, 1, 0x03, 1, 6, 64, .ro, [0], .any, []⟩,
  ⟨0x4000, 1, 0x04, 1, 5, 32, .ro, [0], .any, []⟩,
  ⟨0x4000, 1, 0x05, 1, 5, 32, .ro, [0], .any, []⟩,
  ⟨0x4000, 1, 0x06, 1, 14, 0, .ro, [0], .any, []⟩,
  ⟨0x4000, 1, 0x07, 1, 5, 32, .rwc, [0], .any, []⟩,
  ⟨0x4000, 1, 0x08, 1, 6, 64, .rwc, [0], .any, []⟩,
  ⟨0x4000, 1, 0x09, 1, 6, 64, .rwc, [0], .any, []⟩,
  ⟨0x4000, 1, 0x0A, 1, 5, 32, .ro, [0], .any, []⟩,
  ⟨0x4002, 1, 0x01, 1, 14, 0, .wo, [0], .any, []⟩,
  ⟨0x4002, 1, 0x02, 1, 12, 320, .rw, [0], .any, []⟩,
  ⟨0x4002, 1, 0x03, 1, 12, 512, .ro, [0], .any, []⟩,
  ⟨0x4002, 1, 0x04, 1, 12, 256, .ro, [0], .any, []⟩,
  ⟨0x4002, 1, 0x05, 1, 14, 0, .ro, [0], .any, []⟩,
  ⟨0x4010, 1, 0x01, 32, 2, 8, .rw, [0], .span (0) (1), []⟩,
  ⟨0x4011, 1, 0x01, 32, 3, 8, .rw, [1], .any, []⟩,
  ⟨0x4012, 1, 0x01, 32, 5, 32, .rw, [0], .any, []⟩,
  ⟨0x4013, 1, 0x01, 32, 5, 32, .ro, [0], .any, []⟩,
  ⟨0x4014, 1, 0x01, 1, 3, 8, .rw, [0], .span (0) (31), []⟩,
  ⟨0x4016, 1, 0x01, 9, 6, 64, .rwc, [0], .any, []⟩,
  ⟨0x4016, 1, 0x0A, 1, 6, 64, .rwc, [0], .any, []⟩,
  ⟨0x4020, 1, 0x01, 1, 5, 32, .rw, [0], .span (0) (262143), []⟩,
  ⟨0x4020, 1, 0x02, 1, 5, 32, .wo, [0], .any, []⟩,
  ⟨0x4020, 1, 0x03, 1, 14, 0, .rw, [0], .any, []⟩,
  ⟨0x4022, 1, 0x01, 1, 2, 8, .ro, [0], .any, []⟩,
  ⟨0x4022, 1, 0x02, 1, 6, 64, .ro, [0], .any, []⟩,
  ⟨0x4022, 1, 0x03, 1, 5, 32, .ro, [0], .any, []⟩,
  ⟨0x4022, 1, 0x04, 1, 5, 32, .ro, [0], .any, []⟩,
  ⟨0x4022, 1, 0x05, 1, 3, 8, .ro, [0], .any, []⟩,
  ⟨0x4022, 1, 0x06, 1, 5, 32, .rwc, [0], .any, []⟩]

/-- Rows 320 to 359 of the object tables, in ascending index. -/
def objRows08 : List ObjRow := [
  ⟨0x4022, 1, 0x07, 1, 11, 96, .ro, [0], .any, []⟩,
  ⟨0x4022, 1, 0x08, 1, 6, 64, .rwc, [0], .any, []⟩,
  ⟨0x4022, 1, 0x09, 1, 6, 64, .rwc, [0], .any, []⟩,
  ⟨0x4022, 1, 0x0A, 1, 6, 64, .rwc, [0], .any, []⟩,
  ⟨0x4022, 1, 0x0B, 1, 6, 64, .rwc, [0], .any, []⟩,
  ⟨0x4022, 1, 0x0C, 1, 6, 64, .rwc, [0], .any, []⟩,
  ⟨0x4022, 1, 0x0D, 1, 6, 64, .rwc, [0], .any, []⟩,
  ⟨0x4022, 1, 0x0E, 1, 6, 64, .rwc, [0], .any, []⟩,
  ⟨0x4022, 1, 0x0F, 1, 5, 32, .ro, [0], .any, []⟩,
  ⟨0x4022, 1, 0x10, 1, 6, 64, .rwc, [0], .any, []⟩,
  ⟨0x4024, 1, 0x01, 1, 6, 64, .rwc, [0], .any, []⟩,
  ⟨0x4024, 1, 0x02, 1, 5, 32, .rwc, [0], .any, []⟩,
  ⟨0x4024, 1, 0x03, 1, 6, 64, .rwc, [0], .any, []⟩,
  ⟨0x5000, 1, 0x01, 1, 11, 96, .ro, [0], .any, []⟩,
  ⟨0x5000, 1, 0x02, 1, 2, 8, .rw, [0], .span (0) (1), []⟩,
  ⟨0x5000, 1, 0x03, 1, 3, 8, .rws, [0], .span (0) (15), []⟩,
  ⟨0x5000, 1, 0x04, 1, 3, 8, .ro, [0xFF], .any, []⟩,
  ⟨0x5000, 1, 0x05, 1, 2, 8, .ro, [0], .any, []⟩,
  ⟨0x5000, 1, 0x06, 1, 4, 16, .rw, [0x3C], .span (1) (3600), []⟩,
  ⟨0x5000, 1, 0x07, 1, 4, 16, .rw, [0xA], .span (1) (3600), []⟩,
  ⟨0x5000, 1, 0x08, 1, 4, 16, .rw, [0x32], .span (1) (10000), []⟩,
  ⟨0x5000, 1, 0x09, 1, 4, 16, .rw, [0x2710], .span (1) (10000), []⟩,
  ⟨0x5000, 1, 0x0A, 1, 10, 64, .ro, [0], .any, []⟩,
  ⟨0x5000, 1, 0x0B, 1, 4, 16, .rw, [0xC8], .span (20) (10000), []⟩,
  ⟨0x5000, 1, 0x0C, 1, 4, 16, .rw, [0x1F4], .any, []⟩,
  ⟨0x5000, 1, 0x0D, 1, 4, 16, .rw, [0x64], .span (10) (10000), []⟩,
  ⟨0x5000, 1, 0x0E, 1, 4, 16, .rw, [0x398], .span (10) (5000), []⟩,
  ⟨0x5000, 1, 0x0F, 1, 4, 16, .rw, [0x14], .any, []⟩,
  ⟨0x5000, 1, 0x10, 1, 1, 1, .rw, [1], .any, []⟩,
  ⟨0x5000, 1, 0x11, 1, 2, 8, .rws, [0], .span (0) (1), []⟩,
  ⟨0x5000, 1, 0x12, 1, 10, 64, .rw, [0], .span (-50000000000) (50000000000), []⟩,
  ⟨0x5000, 1, 0x13, 1, 10, 64, .wo, [0], .any, []⟩,
  ⟨0x5000, 1, 0x14, 1, 4, 16, .rw, [0xA], .span (2) (600), []⟩,
  ⟨0x5000, 1, 0x15, 1, 12, 1728, .ro, [0], .any, []⟩,
  ⟨0x5000, 1, 0x16, 1, 10, 64, .ro, [0], .any, []⟩,
  ⟨0x5000, 1, 0x17, 1, 5, 32, .rw, [0x1312D00], .span (10000000) (50000000), []⟩,
  ⟨0x5000, 1, 0x18, 1, 5, 32, .rwc, [0], .any, []⟩,
  ⟨0x5000, 1, 0x19, 1, 5, 32, .rwc, [0], .any, []⟩,
  ⟨0x5010, 1, 0x01, 1, 5, 32, .rw, [0x2580], .span (9600) (115200), []⟩,
  ⟨0x5010, 1, 0x02, 1, 2, 8, .rw, [0], .span (0) (1), []⟩]

/-- Rows 360 to 399 of the object tables, in ascending index. -/
def objRows09 : List ObjRow := [
  ⟨0x5010, 1, 0x03, 1, 2, 8, .ro, [0], .any, []⟩,
  ⟨0x5010, 1, 0x04, 1, 5, 32, .rwc, [0], .any, []⟩,
  ⟨0x5012, 1, 0x01, 2, 2, 8, .rw, [0], .span (0) (1), []⟩,
  ⟨0x5012, 1, 0x03, 2, 5, 32, .rw, [0x989680], .span (1000) (100000000), []⟩,
  ⟨0x5020, 16, 0x01, 1, 3, 8, .rw, [0], .any, []⟩,
  ⟨0x5020, 16, 0x02, 1, 3, 8, .rw, [0], .span (0) (15), []⟩,
  ⟨0x5020, 16, 0x03, 1, 2, 8, .rw, [0], .span (0) (1), []⟩,
  ⟨0x5020, 16, 0x04, 1, 3, 8, .rw, [0xF], .spanOr (1) (6) [15], []⟩,
  ⟨0x5020, 16, 0x05, 1, 5, 32, .rw, [0], .spanOr (1000) (1000000000) [0], []⟩,
  ⟨0x5020, 16, 0x06, 1, 2, 8, .ro, [0], .any, []⟩,
  ⟨0x5020, 16, 0x07, 1, 3, 8, .ro, [0xF], .any, []⟩,
  ⟨0x5020, 16, 0x08, 1, 4, 16, .ro, [0], .any, []⟩,
  ⟨0x5020, 16, 0x09, 1, 10, 64, .ro, [0], .any, []⟩,
  ⟨0x5020, 16, 0x0A, 1, 9, 32, .ro, [0], .any, []⟩,
  ⟨0x5020, 16, 0x0B, 1, 4, 16, .ro, [0], .any, []⟩,
  ⟨0x5020, 16, 0x0C, 1, 3, 8, .rw, [0xFF], .spanOr (0) (15) [255], []⟩,
  ⟨0x5020, 16, 0x0D, 1, 9, 32, .rw, [0], .any, []⟩,
  ⟨0x5020, 16, 0x0E, 1, 5, 32, .rwc, [0], .any, []⟩,
  ⟨0x5040, 8, 0x01, 1, 3, 8, .rw, [0xFF], .spanOr (0) (31) [255], []⟩,
  ⟨0x5040, 8, 0x02, 1, 2, 8, .rw, [0], .span (0) (3), []⟩,
  ⟨0x5040, 8, 0x03, 1, 3, 8, .rw, [0x18], .span (24) (43), []⟩,
  ⟨0x5040, 8, 0x04, 1, 2, 8, .rw, [0], .span (0) (1), []⟩,
  ⟨0x5040, 8, 0x05, 1, 3, 8, .rw, [0x80], .span (1) (255), []⟩,
  ⟨0x5040, 8, 0x06, 1, 9, 32, .rw, [0], .any, []⟩,
  ⟨0x5040, 8, 0x07, 1, 2, 8, .ro, [3], .any, []⟩,
  ⟨0x5040, 8, 0x08, 1, 3, 8, .ro, [0xFF], .any, []⟩,
  ⟨0x5040, 8, 0x09, 1, 10, 64, .ro, [0], .any, []⟩,
  ⟨0x5040, 8, 0x0A, 1, 5, 32, .rwc, [0], .any, []⟩,
  ⟨0x5050, 8, 0x01, 1, 3, 8, .rw, [0xFF], .spanOr (0) (31) [255], []⟩,
  ⟨0x5050, 8, 0x02, 1, 1, 1, .rw, [1], .any, []⟩,
  ⟨0x5050, 8, 0x03, 1, 1, 1, .rw, [1], .any, []⟩,
  ⟨0x5050, 8, 0x04, 1, 3, 8, .ro, [0xF], .any, []⟩,
  ⟨0x5050, 8, 0x05, 1, 5, 32, .rwc, [0], .any, []⟩,
  ⟨0x5060, 2, 0x01, 1, 2, 8, .rw, [0], .span (0) (2), []⟩,
  ⟨0x5060, 2, 0x02, 1, 9, 32, .rw, [0], .any, []⟩,
  ⟨0x5060, 2, 0x03, 1, 9, 32, .rw, [0], .any, []⟩,
  ⟨0x5060, 2, 0x04, 1, 9, 32, .ro, [0], .any, []⟩,
  ⟨0x5060, 2, 0x05, 1, 10, 64, .ro, [0], .any, []⟩,
  ⟨0x5060, 2, 0x06, 1, 10, 64, .ro, [0], .any, []⟩,
  ⟨0x5060, 2, 0x07, 1, 9, 32, .ro, [0], .any, []⟩]

/-- Rows 400 to 439 of the object tables, in ascending index. -/
def objRows10 : List ObjRow := [
  ⟨0x5060, 2, 0x08, 1, 5, 32, .ro, [0], .any, []⟩,
  ⟨0x5060, 2, 0x09, 1, 3, 8, .ro, [0xF], .any, []⟩,
  ⟨0x5060, 2, 0x0A, 1, 5, 32, .rwc, [0], .any, []⟩,
  ⟨0x5060, 2, 0x0B, 1, 5, 32, .rwc, [0], .any, []⟩,
  ⟨0x5070, 1, 0x01, 2, 9, 32, .rw, [0], .span (-1000000) (1000000), []⟩,
  ⟨0x5070, 1, 0x03, 2, 5, 32, .rw, [0x3E8], .span (1) (500000), []⟩,
  ⟨0x5070, 1, 0x05, 2, 5, 32, .rw, [0x989680], .span (0) (250000000), []⟩,
  ⟨0x5070, 1, 0x07, 1, 1, 1, .rw, [0], .any, []⟩,
  ⟨0x5070, 1, 0x08, 1, 5, 32, .rw, [0x2580], .span (9600) (115200), []⟩,
  ⟨0x5070, 1, 0x09, 1, 3, 8, .rw, [0xC], .bitsOf 0xF, []⟩,
  ⟨0x5070, 1, 0x0A, 1, 3, 8, .ro, [0], .any, []⟩,
  ⟨0x5080, 1, 0x01, 1, 1, 1, .rw, [1], .any, []⟩,
  ⟨0x5080, 1, 0x02, 1, 2, 8, .ro, [0], .any, []⟩,
  ⟨0x5080, 1, 0x03, 1, 3, 8, .rw, [0xFF], .spanOr (0) (31) [255], []⟩,
  ⟨0x5080, 1, 0x04, 1, 14, 0, .rw, [0], .any, []⟩,
  ⟨0x5080, 1, 0x05, 1, 4, 16, .rw, [0x12C], .span (0) (3600), []⟩,
  ⟨0x5080, 1, 0x06, 1, 8, 16, .ro, [0x8000], .any, []⟩,
  ⟨0x5080, 1, 0x07, 1, 3, 8, .rw, [3], .span (0) (3), []⟩,
  ⟨0x5080, 1, 0x08, 1, 4, 16, .rw, [0xE10], .span (16) (14400), []⟩,
  ⟨0x5080, 1, 0x09, 1, 4, 16, .rw, [0x64], .any, []⟩,
  ⟨0x5080, 1, 0x0A, 1, 4, 16, .rw, [0x48], .span (24) (168), []⟩,
  ⟨0x5080, 1, 0x0B, 1, 4, 16, .rw, [0x18], .span (6) (72), []⟩,
  ⟨0x5080, 1, 0x0C, 1, 5, 32, .ro, [0], .any, []⟩,
  ⟨0x5080, 1, 0x0D, 1, 5, 32, .ro, [0], .any, []⟩,
  ⟨0x5080, 1, 0x0E, 1, 5, 32, .ro, [0], .any, []⟩,
  ⟨0x5080, 1, 0x0F, 1, 10, 64, .ro, [0], .any, []⟩,
  ⟨0x5080, 1, 0x10, 1, 10, 64, .ro, [0], .any, []⟩,
  ⟨0x5080, 1, 0x11, 1, 5, 32, .ro, [0], .any, []⟩,
  ⟨0x5080, 1, 0x12, 1, 5, 32, .ro, [0], .any, []⟩,
  ⟨0x5080, 1, 0x13, 1, 5, 32, .ro, [0xFFFFFFFF], .any, []⟩,
  ⟨0x5080, 1, 0x14, 1, 4, 16, .rw, [0x44C], .any, []⟩,
  ⟨0x5080, 1, 0x15, 1, 5, 32, .rw, [0x15180], .any, []⟩,
  ⟨0x5080, 1, 0x16, 1, 5, 32, .rw, [0x93A80], .any, []⟩,
  ⟨0x5080, 1, 0x17, 1, 1, 1, .ro, [0], .any, []⟩,
  ⟨0x5080, 1, 0x18, 1, 3, 8, .ro, [0], .any, []⟩,
  ⟨0x5080, 1, 0x19, 1, 5, 32, .rwc, [0], .any, []⟩,
  ⟨0x5080, 1, 0x1A, 1, 5, 32, .rwc, [0], .any, []⟩,
  ⟨0x5080, 1, 0x1B, 1, 1, 1, .rw, [0], .any, []⟩,
  ⟨0x5080, 1, 0x1C, 1, 1, 1, .wo, [0], .any, [2]⟩,
  ⟨0x5082, 1, 0x01, 1, 14, 0, .ro, [0], .any, []⟩]

/-- Rows 440 to 479 of the object tables, in ascending index. -/
def objRows11 : List ObjRow := [
  ⟨0x5082, 1, 0x02, 1, 14, 0, .wo, [0], .any, [2]⟩,
  ⟨0x5082, 1, 0x03, 1, 14, 0, .ro, [0], .any, []⟩,
  ⟨0x5800, 1, 0x01, 1, 4, 16, .ro, [0x1000], .any, []⟩,
  ⟨0x5800, 1, 0x02, 1, 4, 16, .ro, [0], .any, []⟩,
  ⟨0x5800, 1, 0x03, 1, 4, 16, .ro, [0xF00], .any, []⟩,
  ⟨0x5800, 1, 0x04, 1, 2, 8, .rw, [0], .span (0) (1), []⟩,
  ⟨0x5800, 1, 0x05, 1, 5, 32, .rw, [0x1E13380], .any, []⟩,
  ⟨0x5800, 1, 0x06, 1, 2, 8, .ro, [0], .any, []⟩,
  ⟨0x5800, 1, 0x07, 1, 11, 96, .wo, [0], .any, []⟩,
  ⟨0x5801, 1, 0x01, 1, 14, 0, .ro, [0], .any, []⟩,
  ⟨0x5801, 1, 0x02, 1, 5, 32, .wo, [0], .any, []⟩,
  ⟨0x5802, 1, 0x01, 1, 6, 64, .ro, [0], .any, []⟩,
  ⟨0x5802, 1, 0x02, 1, 5, 32, .ro, [0], .any, []⟩,
  ⟨0x5802, 1, 0x03, 1, 6, 64, .rwc, [0], .any, []⟩,
  ⟨0x5802, 1, 0x04, 1, 5, 32, .rwc, [0], .any, []⟩,
  ⟨0x5802, 1, 0x05, 1, 5, 32, .rwc, [0], .any, []⟩,
  ⟨0x5802, 1, 0x06, 1, 5, 32, .rwc, [0], .any, []⟩,
  ⟨0x5802, 1, 0x07, 1, 5, 32, .rwc, [0], .any, []⟩,
  ⟨0x6000, 1, 0x01, 1, 14, 0, .rw, [0], .any, []⟩,
  ⟨0x6000, 1, 0x02, 1, 4, 16, .rws, [0], .span (1) (65535), []⟩,
  ⟨0x6000, 1, 0x03, 1, 14, 0, .ro, [0], .any, []⟩,
  ⟨0x6000, 1, 0x04, 1, 4, 16, .ro, [0], .any, []⟩,
  ⟨0x6000, 1, 0x05, 2, 1, 1, .rw, [0], .any, []⟩,
  ⟨0x6000, 1, 0x07, 1, 6, 64, .rw, [0x100000000000], .span (4294967296) (72057594037927936), []⟩,
  ⟨0x6000, 1, 0x08, 1, 6, 64, .rw, [0x1000000000], .any, []⟩,
  ⟨0x6000, 1, 0x09, 1, 4, 16, .rw, [0x3C], .span (1) (3600), []⟩,
  ⟨0x6000, 1, 0x0A, 1, 5, 32, .ro, [0], .any, []⟩,
  ⟨0x6002, 1, 0x01, 1, 3, 8, .rw, [0], .any, []⟩,
  ⟨0x6002, 1, 0x02, 1, 12, 264, .wo, [0], .any, []⟩,
  ⟨0x6002, 1, 0x03, 1, 3, 8, .rws, [0], .any, []⟩,
  ⟨0x6002, 1, 0x04, 1, 3, 8, .wo, [0], .any, []⟩,
  ⟨0x6002, 1, 0x05, 1, 12, 128, .ro, [0], .any, []⟩,
  ⟨0x6002, 1, 0x06, 1, 1, 1, .rw, [0], .any, []⟩,
  ⟨0x6004, 1, 0x01, 128, 2, 8, .ro, [0], .any, []⟩,
  ⟨0x6006, 1, 0x01, 1, 6, 64, .rwc, [0], .any, []⟩,
  ⟨0x6006, 1, 0x02, 1, 6, 64, .rwc, [0], .any, []⟩,
  ⟨0x6006, 1, 0x03, 1, 6, 64, .rwc, [0], .any, []⟩,
  ⟨0x6006, 1, 0x04, 1, 6, 64, .rwc, [0], .any, []⟩,
  ⟨0x6006, 1, 0x05, 1, 5, 32, .rwc, [0], .any, []⟩,
  ⟨0x6008, 1, 0x01, 1, 4, 16, .rw, [0x5695], .any, [3]⟩]

/-- Rows 480 to 519 of the object tables, in ascending index. -/
def objRows12 : List ObjRow := [
  ⟨0x6008, 1, 0x02, 1, 1, 1, .rw, [0], .among [1], [3]⟩,
  ⟨0x6008, 1, 0x03, 1, 3, 8, .ro, [0], .any, []⟩,
  ⟨0x6008, 1, 0x04, 1, 3, 8, .ro, [0], .any, []⟩,
  ⟨0x6008, 1, 0x05, 1, 1, 1, .wo, [0], .any, []⟩,
  ⟨0x6008, 1, 0x06, 1, 5, 32, .ro, [0], .any, []⟩,
  ⟨0x6008, 1, 0x07, 1, 4, 16, .rw, [0x10], .span (1) (65535), []⟩,
  ⟨0x6008, 1, 0x08, 1, 11, 96, .ro, [0], .any, []⟩,
  ⟨0x7000, 1, 0x01, 1, 1, 1, .rw, [0], .any, []⟩,
  ⟨0x7000, 1, 0x02, 1, 3, 8, .ro, [0], .any, []⟩,
  ⟨0x7000, 1, 0x03, 1, 2, 8, .ro, [0], .any, []⟩,
  ⟨0x7000, 1, 0x04, 1, 2, 8, .ro, [0], .any, []⟩,
  ⟨0x7000, 1, 0x05, 1, 5, 32, .rw, [0], .any, []⟩,
  ⟨0x7000, 1, 0x06, 1, 3, 8, .rw, [0], .span (0) (14), []⟩,
  ⟨0x7000, 1, 0x07, 1, 3, 8, .ro, [0xF], .any, []⟩,
  ⟨0x7000, 1, 0x08, 1, 4, 16, .rw, [0x3E8], .span (10) (60000), []⟩,
  ⟨0x7000, 1, 0x09, 1, 4, 16, .ro, [0xFFFF], .any, []⟩,
  ⟨0x7000, 1, 0x0A, 1, 4, 16, .ro, [0xFFFF], .any, []⟩,
  ⟨0x7000, 1, 0x0B, 1, 2, 8, .ro, [0], .any, []⟩,
  ⟨0x7000, 1, 0x0C, 1, 2, 8, .ro, [0], .any, []⟩,
  ⟨0x7000, 1, 0x0D, 1, 5, 32, .rwc, [0], .any, []⟩,
  ⟨0x7000, 1, 0x0E, 1, 5, 32, .rwc, [0], .any, []⟩,
  ⟨0x7002, 1, 0x01, 1, 2, 8, .ro, [0], .any, []⟩,
  ⟨0x7002, 1, 0x02, 1, 6, 64, .ro, [0], .any, []⟩,
  ⟨0x7002, 1, 0x03, 1, 4, 16, .rw, [0xA], .span (1) (1000), []⟩,
  ⟨0x7002, 1, 0x04, 1, 4, 16, .rw, [5], .span (1) (1000), []⟩,
  ⟨0x7002, 1, 0x05, 1, 6, 64, .ro, [0], .any, []⟩,
  ⟨0x7002, 1, 0x06, 1, 14, 0, .rw, [0], .any, []⟩,
  ⟨0x7002, 1, 0x07, 1, 4, 16, .ro, [0], .any, []⟩,
  ⟨0x7002, 1, 0x08, 1, 5, 32, .rwc, [0], .any, []⟩,
  ⟨0x7002, 1, 0x09, 1, 5, 32, .rwc, [0], .any, []⟩,
  ⟨0x7002, 1, 0x0A, 1, 5, 32, .ro, [0], .any, []⟩,
  ⟨0x7004, 1, 0x01, 1, 9, 32, .ro, [0], .any, []⟩,
  ⟨0x7004, 1, 0x02, 1, 4, 16, .rw, [0x64], .span (5) (10000), []⟩,
  ⟨0x7004, 1, 0x03, 1, 9, 32, .rw, [0], .any, []⟩,
  ⟨0x7006, 1, 0x01, 3, 5, 32, .rwc, [0], .any, []⟩,
  ⟨0x7006, 1, 0x04, 1, 3, 8, .ro, [7], .any, []⟩,
  ⟨0x7006, 1, 0x05, 1, 3, 8, .rw, [4], .span (2) (64), []⟩,
  ⟨0x7006, 1, 0x06, 1, 1, 1, .wo, [0], .any, []⟩,
  ⟨0x7006, 1, 0x07, 1, 5, 32, .rwc, [0], .any, []⟩,
  ⟨0x7006, 1, 0x08, 1, 5, 32, .rwc, [0], .any, []⟩]

/-- Rows 520 to 559 of the object tables, in ascending index. -/
def objRows13 : List ObjRow := [
  ⟨0x7006, 1, 0x09, 1, 4, 16, .rwc, [0], .any, []⟩,
  ⟨0x8000, 1, 0x01, 1, 1, 1, .rw, [1], .any, []⟩,
  ⟨0x8000, 1, 0x02, 1, 2, 8, .ro, [0], .any, []⟩,
  ⟨0x8000, 1, 0x03, 1, 4, 16, .rw, [2], .span (0) (50), []⟩,
  ⟨0x8000, 1, 0x04, 1, 1, 1, .wo, [0], .any, []⟩,
  ⟨0x8000, 1, 0x05, 1, 2, 8, .ro, [0], .any, []⟩,
  ⟨0x8000, 1, 0x06, 1, 9, 32, .ro, [0], .any, []⟩,
  ⟨0x8000, 1, 0x07, 1, 9, 32, .ro, [0], .any, []⟩,
  ⟨0x8000, 1, 0x08, 1, 11, 96, .ro, [0], .any, []⟩,
  ⟨0x8000, 1, 0x09, 1, 5, 32, .rwc, [0], .any, []⟩,
  ⟨0x8000, 1, 0x0A, 1, 5, 32, .rwc, [0], .any, []⟩,
  ⟨0x8001, 1, 0x01, 32, 4, 16, .ro, [0], .any, []⟩,
  ⟨0x8002, 1, 0x01, 32, 12, 128, .ro, [0], .any, []⟩,
  ⟨0x8010, 8, 0x01, 1, 14, 0, .rw, [0], .any, []⟩,
  ⟨0x8010, 8, 0x02, 1, 5, 32, .rw, [0], .span (0) (3600000), []⟩,
  ⟨0x8010, 8, 0x03, 1, 3, 8, .rws, [0], .span (0) (1), []⟩,
  ⟨0x8010, 8, 0x04, 1, 2, 8, .ro, [0], .any, []⟩,
  ⟨0x8010, 8, 0x05, 1, 14, 0, .ro, [0], .any, []⟩,
  ⟨0x8010, 8, 0x06, 1, 5, 32, .rwc, [0], .any, []⟩,
  ⟨0x8010, 8, 0x07, 1, 5, 32, .rwc, [0], .any, []⟩,
  ⟨0x8040, 2, 0x01, 1, 1, 1, .rw, [1], .any, []⟩,
  ⟨0x8040, 2, 0x02, 1, 1, 1, .rw, [0], .any, []⟩,
  ⟨0x8040, 2, 0x03, 1, 1, 1, .wo, [0], .any, []⟩,
  ⟨0x8040, 2, 0x04, 1, 2, 8, .ro, [0], .any, []⟩,
  ⟨0x8040, 2, 0x05, 1, 8, 16, .ro, [0x8000], .any, []⟩,
  ⟨0x8040, 2, 0x06, 1, 5, 32, .rwc, [0], .any, []⟩,
  ⟨0x8040, 2, 0x07, 1, 11, 96, .ro, [0], .any, []⟩,
  ⟨0x8040, 2, 0x08, 8, 8, 16, .ro, [0], .any, []⟩,
  ⟨0x8040, 2, 0x10, 1, 3, 8, .ro, [0], .any, []⟩,
  ⟨0x8050, 1, 0x01, 1, 4, 16, .rw, [0x28], .span (5) (500), []⟩,
  ⟨0x8050, 1, 0x02, 1, 8, 16, .ro, [0x8000], .any, []⟩,
  ⟨0x8050, 1, 0x03, 1, 4, 16, .rw, [1], .span (1) (100), []⟩,
  ⟨0x8050, 1, 0x04, 1, 3, 8, .rw, [2], .span (1) (50), []⟩,
  ⟨0x8050, 1, 0x05, 1, 4, 16, .rw, [0x64], .span (10) (10000), []⟩,
  ⟨0x8050, 1, 0x06, 1, 14, 0, .ro, [0], .any, []⟩,
  ⟨0x8050, 1, 0x07, 1, 11, 96, .ro, [0], .any, []⟩,
  ⟨0x8050, 1, 0x08, 1, 14, 0, .rw, [0], .any, [2]⟩,
  ⟨0x8050, 1, 0x09, 1, 2, 8, .ro, [0], .any, []⟩,
  ⟨0x8050, 1, 0x0A, 1, 5, 32, .ro, [0], .any, []⟩,
  ⟨0x9000, 1, 0x01, 1, 6, 64, .ro, [0], .any, []⟩]

/-- Rows 560 to 599 of the object tables, in ascending index. -/
def objRows14 : List ObjRow := [
  ⟨0x9000, 1, 0x02, 1, 6, 64, .ro, [0], .any, []⟩,
  ⟨0x9000, 1, 0x03, 1, 6, 64, .rw, [0], .any, []⟩,
  ⟨0x9000, 1, 0x04, 1, 14, 0, .ro, [0], .any, []⟩,
  ⟨0x9000, 1, 0x05, 1, 6, 64, .rwc, [0], .any, []⟩,
  ⟨0x9000, 1, 0x06, 1, 14, 0, .ro, [0], .any, []⟩,
  ⟨0x9000, 1, 0x07, 1, 14, 0, .ro, [0], .any, []⟩,
  ⟨0x9100, 16, 0x01, 1, 6, 64, .ro, [0], .any, []⟩,
  ⟨0x9100, 16, 0x02, 8, 5, 32, .rw, [0xFFFF], .any, []⟩,
  ⟨0x9100, 16, 0x0A, 8, 6, 64, .rwc, [0], .any, []⟩,
  ⟨0x9200, 32, 0x01, 1, 14, 0, .rw, [0], .any, []⟩,
  ⟨0x9200, 32, 0x02, 1, 2, 8, .rw, [0], .span (0) (2), []⟩,
  ⟨0x9200, 32, 0x03, 1, 5, 32, .rw, [0], .span (0) (3600000), []⟩,
  ⟨0x9200, 32, 0x04, 1, 3, 8, .rws, [0], .among [1], []⟩,
  ⟨0x9200, 32, 0x05, 1, 14, 0, .ro, [0], .any, []⟩,
  ⟨0x9200, 32, 0x06, 1, 5, 32, .rwc, [0], .any, []⟩,
  ⟨0x9200, 32, 0x07, 1, 5, 32, .rwc, [0], .any, []⟩,
  ⟨0x9300, 3, 0x01, 1, 3, 8, .rws, [0], .among [0, 1], []⟩,
  ⟨0x9300, 3, 0x02, 1, 5, 32, .rw, [0], .span (0) (86400), []⟩,
  ⟨0x9300, 3, 0x03, 1, 5, 32, .rw, [0xF4240], .span (1000) (20000000), []⟩,
  ⟨0x9300, 3, 0x04, 1, 1, 1, .rw, [0], .any, []⟩,
  ⟨0x9300, 3, 0x05, 1, 2, 8, .ro, [0], .any, []⟩,
  ⟨0x9300, 3, 0x06, 1, 11, 96, .ro, [0], .any, []⟩,
  ⟨0x9300, 3, 0x07, 1, 11, 96, .ro, [0], .any, []⟩,
  ⟨0x9300, 3, 0x08, 1, 5, 32, .rwc, [0], .any, []⟩,
  ⟨0x9400, 1, 0x01, 1, 5, 32, .rw, [0x3E8], .span (1) (60000), []⟩,
  ⟨0x9400, 1, 0x02, 1, 11, 96, .ro, [0], .any, []⟩,
  ⟨0x9400, 1, 0x03, 1, 3, 8, .ro, [0], .any, []⟩,
  ⟨0x9401, 1, 0x01, 66, 6, 64, .ro, [0], .any, []⟩,
  ⟨0x9402, 1, 0x01, 66, 6, 64, .ro, [0], .any, []⟩,
  ⟨0x9403, 1, 0x01, 66, 6, 64, .rwc, [0], .any, []⟩,
  ⟨0x9404, 1, 0x01, 66, 6, 64, .rwc, [0], .any, []⟩,
  ⟨0xA000, 1, 0x01, 32, 3, 8, .rw, [0], .any, []⟩,
  ⟨0xA001, 1, 0x01, 32, 3, 8, .rws, [0], .bitsOf 0x3, []⟩,
  ⟨0xA002, 1, 0x01, 32, 4, 16, .rw, [0], .any, []⟩,
  ⟨0xA003, 1, 0x01, 32, 2, 8, .rw, [0], .span (0) (1), []⟩,
  ⟨0xA004, 1, 0x01, 32, 2, 8, .ro, [0], .any, []⟩,
  ⟨0xA005, 1, 0x01, 32, 5, 32, .ro, [0], .any, []⟩,
  ⟨0xA006, 1, 0x01, 32, 3, 8, .ro, [0], .any, []⟩,
  ⟨0xA007, 1, 0x01, 32, 6, 64, .rwc, [0], .any, []⟩,
  ⟨0xA008, 1, 0x01, 32, 6, 64, .rwc, [0], .any, []⟩]

/-- Rows 600 to 639 of the object tables, in ascending index. -/
def objRows15 : List ObjRow := [
  ⟨0xA009, 1, 0x01, 32, 6, 64, .rwc, [0], .any, []⟩,
  ⟨0xA00A, 1, 0x01, 32, 6, 64, .rwc, [0], .any, []⟩,
  ⟨0xA010, 1, 0x01, 32, 2, 8, .ro, [0], .any, []⟩,
  ⟨0xA011, 1, 0x01, 32, 2, 8, .ro, [0], .any, []⟩,
  ⟨0xA012, 1, 0x01, 40, 3, 8, .ro, [0x33], .any, []⟩,
  ⟨0xA013, 1, 0x01, 32, 2, 8, .rw, [0], .span (0) (1), []⟩,
  ⟨0xA014, 1, 0x01, 32, 12, 32, .rw, [0x3C04], .any, []⟩,
  ⟨0xA015, 1, 0x01, 40, 4, 16, .ro, [0xFFFF], .any, []⟩,
  ⟨0xA016, 1, 0x01, 40, 5, 32, .rwc, [0], .any, []⟩,
  ⟨0xA017, 1, 0x01, 32, 3, 8, .rw, [0], .bitsOf 0x3, []⟩,
  ⟨0xA040, 1, 0x01, 1, 3, 8, .rw, [0xFF], .any, []⟩,
  ⟨0xA040, 1, 0x02, 1, 2, 8, .rw, [0], .span (0) (1), []⟩,
  ⟨0xA040, 1, 0x03, 1, 4, 16, .rw, [0x400], .span (256) (16384), []⟩,
  ⟨0xA040, 1, 0x04, 1, 2, 8, .ro, [0], .any, []⟩,
  ⟨0xA040, 1, 0x05, 1, 3, 8, .ro, [0], .any, []⟩,
  ⟨0xA040, 1, 0x06, 1, 3, 8, .ro, [0], .any, []⟩,
  ⟨0xA040, 1, 0x07, 1, 5, 32, .ro, [0], .any, []⟩,
  ⟨0xA040, 1, 0x08, 1, 5, 32, .rwc, [0], .any, []⟩,
  ⟨0xA040, 1, 0x09, 1, 6, 64, .rwc, [0], .any, []⟩,
  ⟨0xA040, 1, 0x0A, 1, 6, 64, .rwc, [0], .any, []⟩,
  ⟨0xA040, 1, 0x0B, 1, 9, 32, .ro, [0], .any, []⟩,
  ⟨0xA040, 1, 0x0C, 1, 4, 16, .rw, [0x10], .any, []⟩,
  ⟨0xA040, 1, 0x0D, 1, 5, 32, .rwc, [0], .any, []⟩,
  ⟨0xA060, 1, 0x01, 1, 14, 0, .rw, [0], .any, []⟩,
  ⟨0xA060, 1, 0x02, 1, 4, 16, .rws, [0], .span (1) (65535), []⟩,
  ⟨0xA060, 1, 0x03, 1, 14, 0, .ro, [0], .any, []⟩,
  ⟨0xA060, 1, 0x04, 1, 4, 16, .rw, [0xA], .span (1) (3600), []⟩,
  ⟨0xA060, 1, 0x05, 1, 5, 32, .ro, [0], .any, []⟩,
  ⟨0xB000, 1, 0x01, 1, 2, 8, .ro, [0], .any, []⟩,
  ⟨0xB000, 1, 0x02, 1, 3, 8, .ro, [0], .any, []⟩,
  ⟨0xB000, 1, 0x03, 1, 5, 32, .rw, [0x64], .span (0) (10000), []⟩,
  ⟨0xB000, 1, 0x04, 4, 2, 8, .rw, [2, 3, 3, 3], .span (0) (3), []⟩,
  ⟨0xB000, 1, 0x08, 1, 3, 8, .rw, [0x14], .span (1) (20), []⟩,
  ⟨0xB000, 1, 0x09, 1, 5, 32, .rwc, [0], .any, []⟩,
  ⟨0xB000, 1, 0x0A, 1, 5, 32, .rwc, [0], .any, []⟩,
  ⟨0xB000, 1, 0x0B, 1, 14, 0, .ro, [0], .any, []⟩,
  ⟨0xB001, 1, 0x01, 5, 11, 96, .ro, [0], .any, []⟩,
  ⟨0xB002, 1, 0x01, 2, 2, 8, .ro, [0], .any, [2]⟩,
  ⟨0xB002, 1, 0x03, 2, 5, 32, .ro, [0], .any, [2]⟩,
  ⟨0xB002, 1, 0x05, 2, 12, 48, .ro, [0], .any, [2]⟩]

/-- Rows 640 to 666 of the object tables, in ascending index. -/
def objRows16 : List ObjRow := [
  ⟨0xB002, 1, 0x07, 1, 3, 8, .ro, [0], .any, [2]⟩,
  ⟨0xB002, 1, 0x08, 1, 14, 0, .wo, [0], .any, [2]⟩,
  ⟨0xB002, 1, 0x09, 1, 3, 8, .rws, [0], .span (0) (1), [2]⟩,
  ⟨0xB002, 1, 0x0A, 1, 1, 1, .wo, [0], .any, [2]⟩,
  ⟨0xB002, 1, 0x0B, 1, 4, 16, .rw, [0x258], .span (60) (86400), [2]⟩,
  ⟨0xB002, 1, 0x0C, 1, 4, 16, .ro, [0], .any, [2]⟩,
  ⟨0xB002, 1, 0x0D, 1, 5, 32, .rwc, [0], .any, [2]⟩,
  ⟨0xF000, 1, 0x01, 1, 14, 0, .ro, [0], .any, []⟩,
  ⟨0xF000, 1, 0x02, 1, 14, 0, .ro, [0], .any, []⟩,
  ⟨0xF002, 1, 0x01, 4, 2, 8, .ro, [0], .any, []⟩,
  ⟨0xF002, 1, 0x05, 4, 5, 32, .ro, [0], .any, []⟩,
  ⟨0xF004, 1, 0x01, 6, 6, 64, .rwc, [0], .any, []⟩,
  ⟨0xF005, 1, 0x01, 6, 6, 64, .rwc, [0], .any, []⟩,
  ⟨0xF006, 1, 0x01, 6, 6, 64, .rwc, [0], .any, []⟩,
  ⟨0xF007, 1, 0x01, 6, 5, 32, .rw, [0x3E8], .any, []⟩,
  ⟨0xF008, 1, 0x01, 6, 5, 32, .rw, [0x3E8, 0, 0, 0x30D4, 0xA, 0], .any, []⟩,
  ⟨0xF009, 1, 0x01, 6, 5, 32, .ro, [0], .any, []⟩,
  ⟨0xF00A, 1, 0x01, 6, 5, 32, .rwc, [0], .any, []⟩,
  ⟨0xF00B, 1, 0x01, 6, 5, 32, .rw, [0x2F3, 0, 0, 0x1E460, 0x8340, 0xA], .any, []⟩,
  ⟨0xF00C, 1, 0x01, 1, 6, 64, .rwc, [0], .any, []⟩,
  ⟨0xF00C, 1, 0x02, 1, 14, 0, .ro, [0], .any, []⟩,
  ⟨0xF00C, 1, 0x03, 1, 1, 1, .wo, [0], .any, []⟩,
  ⟨0xF00E, 1, 0x01, 14, 6, 64, .rwc, [0], .any, []⟩,
  ⟨0xF00E, 1, 0x0F, 1, 5, 32, .rwc, [0], .any, []⟩,
  ⟨0xF010, 1, 0x01, 1, 5, 32, .rwc, [0], .any, []⟩,
  ⟨0xF010, 1, 0x02, 1, 12, 64, .ro, [0], .any, []⟩,
  ⟨0xF010, 1, 0x03, 1, 1, 1, .rw, [0], .any, [3]⟩]

/-- Every row of the object tables (R447). -/
def objRows : List ObjRow :=
  objRows00 ++ objRows01 ++ objRows02 ++ objRows03 ++ objRows04 ++ objRows05 ++ objRows06 ++ objRows07 ++ objRows08 ++ objRows09 ++ objRows10 ++ objRows11 ++ objRows12 ++ objRows13 ++ objRows14 ++ objRows15 ++ objRows16

end Sys2Proof.Machine
end

