-- ==== Sys2Proof/Machine/Objects.lean ====
section
/-! DEFINITION. The named objects of the dictionary, one definition per row of the object tables of chapters 02 to 20
(index and subindex of the C0 or first instance, width, Default, signedness). `i` is the instance (R38, R68, R69, R105,
R149, R150, R174, R295, R407: index plus i), `k` the place in a run of subindices. -/

namespace Sys2Proof.Machine.Reg
/-- ID_VENDOR (0x1000:01), STR(16), RO: Table 18.2. -/
def idVendor : Obj := ⟨0x100001, 128, 0x4E656C6D616C00000000000000000000, false⟩
/-- ID_PART (0x1000:02), STR(16), RO: Table 18.2. -/
def idPart : Obj := ⟨0x100002, 128, 0x5658343838302D454100000000000000, false⟩
/-- ID_REVISION (0x1000:03), STR(4), RO: Table 18.2. -/
def idRevision : Obj := ⟨0x100003, 32, 0x42300000, false⟩
/-- ID_SERIAL (0x1000:04), U64, RO: Table 18.2. -/
def idSerial : Obj := ⟨0x100004, 64, 0, false⟩
/-- ID_TEST_DATE (0x1000:05), TIME96, RO: Table 18.2. -/
def idTestDate : Obj := ⟨0x100005, 96, 0, false⟩
/-- ID_DICT_VERSION (0x1000:06), U16, RO: Table 18.2. -/
def idDictVersion : Obj := ⟨0x100006, 16, 0x100, false⟩
/-- ID_IMAGE_VERSION (0x1000:07), U32, RO: Table 18.2. -/
def idImageVersion : Obj := ⟨0x100007, 32, 0, false⟩
/-- ID_IMAGE_SLOT (0x1000:08), U8, RO: Table 18.2. -/
def idImageSlot : Obj := ⟨0x100008, 8, 0, false⟩
/-- ID_UPTIME (0x1000:09), U64, RO: Table 18.2. -/
def idUptime : Obj := ⟨0x100009, 64, 0, false⟩
/-- ID_DICT_READY (0x1000:0A), BOOL, RO: Table 18.2. -/
def idDictReady : Obj := ⟨0x10000A, 1, 0, false⟩
/-- ID_USER_TAG (0x1000:0B), STR(16), RW: Table 18.2. -/
def idUserTag : Obj := ⟨0x10000B, 128, 0, false⟩
/-- ID_LOCATION (0x1000:0C), STR(16), RW: Table 18.2. -/
def idLocation : Obj := ⟨0x10000C, 128, 0, false⟩
/-- EOP_MAC (0x1100:01), BYTES(6), RW: Table 17.11. -/
def eopMac : Obj := ⟨0x110001, 48, 0, false⟩
/-- EOP_PLCA_ID (0x1100:02), U8, RW: Table 17.11. -/
def eopPlcaId : Obj := ⟨0x110002, 8, 0xFF, false⟩
/-- EOP_PLCA_COUNT (0x1100:03), U8, RW: Table 17.11. -/
def eopPlcaCount : Obj := ⟨0x110003, 8, 8, false⟩
/-- EOP_MGMT_VID (0x1102:01), U16, RW: Table 17.11. -/
def eopMgmtVid : Obj := ⟨0x110201, 16, 0xFFE, false⟩
/-- EOP_VLAN_PORTS (0x1102:02), U32, RW: Table 17.11. -/
def eopVlanPorts : Obj := ⟨0x110202, 32, 0, false⟩
/-- EOP_FORWARD_LIMIT (0x1102:03), U16, RW: Table 17.11. -/
def eopForwardLimit : Obj := ⟨0x110203, 16, 0x1F4, false⟩
/-- EOP_TRANSPORT_MAX (0x1104:01), ENUM8, RW: Table 17.11. -/
def eopTransportMax (k : Nat) : Obj := ⟨0x110401 + k, 8, [3, 3, 1, 0].getD k 0, false⟩
/-- EOP_AUTH_PAIR (0x1106:01), U16, RW: Table 17.11. -/
def eopAuthPair (k : Nat) : Obj := ⟨0x110601 + k, 16, [254, 255].getD k 0, false⟩
/-- EOP_SESSION_IDLE (0x1106:03), U16, RW: Table 17.11. -/
def eopSessionIdle : Obj := ⟨0x110603, 16, 0x3C, false⟩
/-- EOP_SESSIONS (0x1106:04), U8, RO: Table 17.11. -/
def eopSessions : Obj := ⟨0x110604, 8, 0, false⟩
/-- EOP_NOTICE_MIN (0x1106:05), U16, RW: Table 17.11. -/
def eopNoticeMin : Obj := ⟨0x110605, 16, 0xA, false⟩
/-- EOP_DISCARDS (0x1108:01), U32, RWC: Table 17.11. -/
def eopDiscards : Obj := ⟨0x110801, 32, 0, false⟩
/-- EOP_BUSY (0x1108:02), U32, RWC: Table 17.11. -/
def eopBusy : Obj := ⟨0x110802, 32, 0, false⟩
/-- EOP_TAG_FAILS (0x1108:03), U32, RWC: Table 17.11. -/
def eopTagFails : Obj := ⟨0x110803, 32, 0, false⟩
/-- DICT_SAVE (0x1200:01), BOOL, WO: Table 18.8. -/
def dictSave : Obj := ⟨0x120001, 1, 0, false⟩
/-- DICT_RESTORE (0x1200:02), ENUM8, RW: Table 18.8. -/
def dictRestore : Obj := ⟨0x120002, 8, 0, false⟩
/-- DICT_BOOT_SOURCE (0x1200:03), ENUM8, RO: Table 18.8. -/
def dictBootSource : Obj := ⟨0x120003, 8, 0, false⟩
/-- DICT_STORE_STATE (0x1200:04), U8, RO: Table 18.8. -/
def dictStoreState : Obj := ⟨0x120004, 8, 0, false⟩
/-- DICT_RECORDS (0x1200:05), U16, RO: Table 18.8. -/
def dictRecords : Obj := ⟨0x120005, 16, 0, false⟩
/-- DICT_SAVED_TIME (0x1200:06), TIME96, RO: Table 18.8. -/
def dictSavedTime : Obj := ⟨0x120006, 96, 0, false⟩
/-- DICT_SAVED_GEN (0x1200:07), U32, RO: Table 18.8. -/
def dictSavedGen : Obj := ⟨0x120007, 32, 0, false⟩
/-- DICT_UNSTORED (0x1200:08), U32, RWC: Table 18.8. -/
def dictUnstored : Obj := ⟨0x120008, 32, 0, false⟩
/-- DICT_RESTORE_LOG (0x1200:09), DOMAIN, RO: Table 18.8. -/
def dictRestoreLog : Obj := ⟨0x120009, 0, 0, false⟩
/-- DICT_EXPORT (0x1200:0A), DOMAIN, RO: Table 18.8. -/
def dictExport : Obj := ⟨0x12000A, 0, 0, false⟩
/-- DICT_IMPORT (0x1200:0B), DOMAIN, WO: Table 18.8. -/
def dictImport : Obj := ⟨0x12000B, 0, 0, false⟩
/-- LINE_TX_ENABLE (0x2010:01), BOOL, RW: Table 3.6. -/
def lineTxEnable (i : Nat) : Obj := ⟨0x201001 + 256 * i, 1, 0, false⟩
/-- LINE_TX_STATE (0x2010:02), ENUM8, RO: Table 3.6. -/
def lineTxState (i : Nat) : Obj := ⟨0x201002 + 256 * i, 8, 0, false⟩
/-- LINE_TX_SQUELCH (0x2010:03), BOOL, RW: Table 3.6. -/
def lineTxSquelch (i : Nat) : Obj := ⟨0x201003 + 256 * i, 1, 0, false⟩
/-- LINE_TX_SQUELCH_MODE (0x2010:04), ENUM8, RW: Table 3.6. -/
def lineTxSquelchMode (i : Nat) : Obj := ⟨0x201004 + 256 * i, 8, 1, false⟩
/-- LINE_TX_CAUSES (0x2010:05), U16, RO: Table 3.6. -/
def lineTxCauses (i : Nat) : Obj := ⟨0x201005 + 256 * i, 16, 0, false⟩
/-- LINE_TX_ROLLOFF (0x2010:06), U8, RW: Table 3.6. -/
def lineTxRolloff (i : Nat) : Obj := ⟨0x201006 + 256 * i, 8, 4, false⟩
/-- LINE_TX_LATENCY (0x2010:07), U32, RO: Table 3.6. -/
def lineTxLatency (i : Nat) : Obj := ⟨0x201007 + 256 * i, 32, 0, false⟩
/-- LINE_TX_START_LIMIT (0x2010:08), U16, RW: Table 3.6. -/
def lineTxStartLimit (i : Nat) : Obj := ⟨0x201008 + 256 * i, 16, 0xA, false⟩
/-- LINE_TX_LOAD (0x2012:01), U8, RO: Table 3.6. -/
def lineTxLoad (i : Nat) (k : Nat) : Obj := ⟨0x201201 + 256 * i + k, 8, 0, false⟩
/-- LINE_TX_FULLSCALE (0x2016:01), U16, RW: Table 3.6. -/
def lineTxFullscale (i : Nat) : Obj := ⟨0x201601 + 256 * i, 16, 0x1F4, false⟩
/-- LINE_TX_PRECD (0x2016:02), I32, RW: Table 3.6. -/
def lineTxPrecd (i : Nat) : Obj := ⟨0x201602 + 256 * i, 32, 0, true⟩
/-- LINE_TX_SKEW (0x2016:03), I16, RW: Table 3.6. -/
def lineTxSkew (i : Nat) (k : Nat) : Obj := ⟨0x201603 + 256 * i + k, 16, 0, true⟩
/-- LINE_TX_IQ_GAIN (0x2016:07), I16, RW: Table 3.6. -/
def lineTxIqGain (i : Nat) (k : Nat) : Obj := ⟨0x201607 + 256 * i + k, 16, 0, true⟩
/-- LINE_TX_IQ_PHASE (0x2016:09), I16, RW: Table 3.6. -/
def lineTxIqPhase (i : Nat) (k : Nat) : Obj := ⟨0x201609 + 256 * i + k, 16, 0, true⟩
/-- LINE_TX_CLIP (0x2016:0B), U8, RW: Table 3.6. -/
def lineTxClip (i : Nat) : Obj := ⟨0x20160B + 256 * i, 8, 0x5A, false⟩
/-- LINE_TX_EMPH (0x2016:0C), DOMAIN, RW: Table 3.6. -/
def lineTxEmph (i : Nat) : Obj := ⟨0x20160C + 256 * i, 0, 0, false⟩
/-- LINE_TX_PS_TABLE (0x2016:0D), DOMAIN, RO: Table 3.6. -/
def lineTxPsTable (i : Nat) : Obj := ⟨0x20160D + 256 * i, 0, 0, false⟩
/-- LINE_ITLA_USE (0x2018:01), ENUM8, RW: Table 3.6. -/
def lineItlaUse (i : Nat) : Obj := ⟨0x201801 + 256 * i, 8, 0, false⟩
/-- LINE_ITLA_BAUD (0x2018:02), U32, RW: Table 3.6. -/
def lineItlaBaud (i : Nat) : Obj := ⟨0x201802 + 256 * i, 32, 0x2580, false⟩
/-- LINE_ITLA_FREQ (0x2018:03), U32, RW: Table 3.6. -/
def lineItlaFreq (i : Nat) : Obj := ⟨0x201803 + 256 * i, 32, 0xB8278E0, false⟩
/-- LINE_ITLA_POWER (0x2018:04), I16, RW: Table 3.6. -/
def lineItlaPower (i : Nat) : Obj := ⟨0x201804 + 256 * i, 16, 0x514, true⟩
/-- LINE_ITLA_FTF (0x2018:05), I32, RW: Table 3.6. -/
def lineItlaFtf (i : Nat) : Obj := ⟨0x201805 + 256 * i, 32, 0, true⟩
/-- LINE_ITLA_STATE (0x2018:06), ENUM8, RO: Table 3.6. -/
def lineItlaState (i : Nat) : Obj := ⟨0x201806 + 256 * i, 8, 0, false⟩
/-- LINE_ITLA_TUNE_LIMIT (0x2018:07), U16, RW: Table 3.6. -/
def lineItlaTuneLimit (i : Nat) : Obj := ⟨0x201807 + 256 * i, 16, 0x3C, false⟩
/-- LINE_ITLA_RAW (0x2018:08), BYTES(4), RW: Table 3.6. -/
def lineItlaRaw (i : Nat) : Obj := ⟨0x201808 + 256 * i, 32, 0, false⟩
/-- LINE_ITLA_ERRORS (0x2018:09), U32, RWC: Table 3.6. -/
def lineItlaErrors (i : Nat) : Obj := ⟨0x201809 + 256 * i, 32, 0, false⟩
/-- LINE_ITLA_CARRIER (0x2018:0A), ENUM8, RW: Table 3.6. -/
def lineItlaCarrier (i : Nat) : Obj := ⟨0x20180A + 256 * i, 8, i / 2, false⟩
/-- LINE_ASPI_CLOCK (0x201C:01), U32, RW: Table 3.6. -/
def lineAspiClock : Obj := ⟨0x201C01, 32, 0x2710, false⟩
/-- LINE_ASPI_CS (0x201C:02), U16, RW: Table 3.6. -/
def lineAspiCs (k : Nat) : Obj := ⟨0x201C02 + k, 16, 0x1C, false⟩
/-- LINE_ASPI_XFER (0x201C:0A), DOMAIN, RW: Table 3.6. -/
def lineAspiXfer : Obj := ⟨0x201C0A, 0, 0, false⟩
/-- LINE_ASPI_SAFE (0x201C:0B), DOMAIN, RW: Table 3.6. -/
def lineAspiSafe : Obj := ⟨0x201C0B, 0, 0, false⟩
/-- LINE_ASPI_RESUME (0x201C:0C), DOMAIN, RW: Table 3.6. -/
def lineAspiResume : Obj := ⟨0x201C0C, 0, 0, false⟩
/-- LINE_ASPI_ERRORS (0x201C:0D), U32, RWC: Table 3.6. -/
def lineAspiErrors : Obj := ⟨0x201C0D, 32, 0, false⟩
/-- LINE_BIAS_MODE (0x2020:01), ENUM8, RW: Table 3.6. -/
def lineBiasMode (i : Nat) : Obj := ⟨0x202001 + 256 * i, 8, 0, false⟩
/-- LINE_BIAS_CODE (0x2020:02), U16, RW: Table 3.6. -/
def lineBiasCode (i : Nat) : Obj := ⟨0x202002 + 256 * i, 16, 0, false⟩
/-- LINE_BIAS_MON (0x2020:03), U8, RW: Table 3.6. -/
def lineBiasMon (i : Nat) : Obj := ⟨0x202003 + 256 * i, 8, 0xFF, false⟩
/-- LINE_BIAS_SLOPE (0x2020:04), ENUM8, RW: Table 3.6. -/
def lineBiasSlope (i : Nat) : Obj := ⟨0x202004 + 256 * i, 8, 0, false⟩
/-- LINE_BIAS_SETPOINT (0x2020:05), I32, RW: Table 3.6. -/
def lineBiasSetpoint (i : Nat) : Obj := ⟨0x202005 + 256 * i, 32, 0, true⟩
/-- LINE_BIAS_GAIN (0x2020:06), U16, RW: Table 3.6. -/
def lineBiasGain (i : Nat) : Obj := ⟨0x202006 + 256 * i, 16, 0x100, false⟩
/-- LINE_BIAS_MIN (0x2020:07), U16, RW: Table 3.6. -/
def lineBiasMin (i : Nat) : Obj := ⟨0x202007 + 256 * i, 16, 0, false⟩
/-- LINE_BIAS_MAX (0x2020:08), U16, RW: Table 3.6. -/
def lineBiasMax (i : Nat) : Obj := ⟨0x202008 + 256 * i, 16, 0xFFFF, false⟩
/-- LINE_BIAS_DITHER (0x2020:09), U16, RW: Table 3.6. -/
def lineBiasDither (i : Nat) : Obj := ⟨0x202009 + 256 * i, 16, 0x148, false⟩
/-- LINE_BIAS_LOCKWIN (0x2020:0A), U32, RW: Table 3.6. -/
def lineBiasLockwin (i : Nat) : Obj := ⟨0x20200A + 256 * i, 32, 0x7D0, false⟩
/-- LINE_BIAS_ERROR (0x2020:0B), I32, RO: Table 3.6. -/
def lineBiasError (i : Nat) : Obj := ⟨0x20200B + 256 * i, 32, 0, true⟩
/-- LINE_BIAS_STATUS (0x2020:0C), ENUM8, RO: Table 3.6. -/
def lineBiasStatus (i : Nat) : Obj := ⟨0x20200C + 256 * i, 8, 0, false⟩
/-- LINE_BIAS_SAFE (0x2020:0D), U16, RW: Table 3.6. -/
def lineBiasSafe (i : Nat) : Obj := ⟨0x20200D + 256 * i, 16, 0, false⟩
/-- LINE_BIAS_PERIODS (0x202C:01), U8, RW: Table 3.6. -/
def lineBiasPeriods : Obj := ⟨0x202C01, 8, 8, false⟩
/-- LINE_BIAS_ROUND (0x202C:02), U32, RO: Table 3.6. -/
def lineBiasRound : Obj := ⟨0x202C02, 32, 0, false⟩
/-- LINE_BIAS_REPEATS (0x202C:03), U32, RWC: Table 3.6. -/
def lineBiasRepeats : Obj := ⟨0x202C03, 32, 0, false⟩
/-- LINE_RX_ENABLE (0x2040:01), BOOL, RW: Table 4.12. -/
def lineRxEnable (i : Nat) : Obj := ⟨0x204001 + 256 * i, 1, 0, false⟩
/-- LINE_RX_STATE (0x2040:02), ENUM8, RO: Table 4.12. -/
def lineRxState (i : Nat) : Obj := ⟨0x204002 + 256 * i, 8, 0, false⟩
/-- LINE_RX_CAUSES (0x2040:03), U16, RO: Table 4.12. -/
def lineRxCauses (i : Nat) : Obj := ⟨0x204003 + 256 * i, 16, 0, false⟩
/-- LINE_RX_LATENCY (0x2040:04), U32, RO: Table 4.12. -/
def lineRxLatency (i : Nat) : Obj := ⟨0x204004 + 256 * i, 32, 0, false⟩
/-- LINE_RX_ACQ_LIMIT (0x2040:05), U16, RW: Table 4.12. -/
def lineRxAcqLimit (i : Nat) : Obj := ⟨0x204005 + 256 * i, 16, 2, false⟩
/-- LINE_RX_ACQ_TIME (0x2040:06), U32, RO: Table 4.12. -/
def lineRxAcqTime (i : Nat) : Obj := ⟨0x204006 + 256 * i, 32, 0, false⟩
/-- LINE_RX_MIN_LEVEL (0x2040:07), U8, RW: Table 4.12. -/
def lineRxMinLevel (i : Nat) : Obj := ⟨0x204007 + 256 * i, 8, 0x1E, false⟩
/-- LINE_RX_LOSS_COUNT (0x2040:08), U32, RWC: Table 4.12. -/
def lineRxLossCount (i : Nat) : Obj := ⟨0x204008 + 256 * i, 32, 0, false⟩
/-- LINE_RX_ADC_RMS (0x2040:09), U16, RO: Table 4.12. -/
def lineRxAdcRms (i : Nat) (k : Nat) : Obj := ⟨0x204009 + 256 * i + k, 16, 0, false⟩
/-- LINE_RX_ADC_CLIPS (0x2040:0D), U32, RWC: Table 4.12. -/
def lineRxAdcClips (i : Nat) : Obj := ⟨0x20400D + 256 * i, 32, 0, false⟩
/-- LINE_RX_ADC_STATE (0x2040:0E), ENUM8, RO: Table 4.12. -/
def lineRxAdcState (i : Nat) : Obj := ⟨0x20400E + 256 * i, 8, 0, false⟩
/-- LINE_RX_ADC_SPUR (0x2040:0F), I16, RO: Table 4.12. -/
def lineRxAdcSpur (i : Nat) : Obj := ⟨0x20400F + 256 * i, 16, 0, true⟩
/-- LINE_RX_SKEW (0x2040:10), I16, RO: Table 4.12. -/
def lineRxSkew (i : Nat) (k : Nat) : Obj := ⟨0x204010 + 256 * i + k, 16, 0, true⟩
/-- LINE_RX_IQ_GAIN (0x2040:14), I16, RO: Table 4.12. -/
def lineRxIqGain (i : Nat) (k : Nat) : Obj := ⟨0x204014 + 256 * i + k, 16, 0, true⟩
/-- LINE_RX_IQ_PHASE (0x2040:16), I16, RO: Table 4.12. -/
def lineRxIqPhase (i : Nat) (k : Nat) : Obj := ⟨0x204016 + 256 * i + k, 16, 0, true⟩
/-- LINE_RX_FAR_TX_SKEW (0x2040:18), I16, RO: Table 4.12. -/
def lineRxFarTxSkew (i : Nat) (k : Nat) : Obj := ⟨0x204018 + 256 * i + k, 16, 0, true⟩
/-- LINE_RX_CD_MIN (0x2042:01), I32, RW: Table 4.12. -/
def lineRxCdMin (i : Nat) : Obj := ⟨0x204201 + 256 * i, 32, 0xFFFEC780, true⟩
/-- LINE_RX_CD_MAX (0x2042:02), I32, RW: Table 4.12. -/
def lineRxCdMax (i : Nat) : Obj := ⟨0x204202 + 256 * i, 32, 0x13880, true⟩
/-- LINE_RX_CD (0x2042:03), I32, RO: Table 4.12. -/
def lineRxCd (i : Nat) : Obj := ⟨0x204203 + 256 * i, 32, 0, true⟩
/-- LINE_RX_CD_SD (0x2042:04), U16, RO: Table 4.12. -/
def lineRxCdSd (i : Nat) : Obj := ⟨0x204204 + 256 * i, 16, 0, false⟩
/-- LINE_RX_CD_STATE (0x2042:05), ENUM8, RO: Table 4.12. -/
def lineRxCdState (i : Nat) : Obj := ⟨0x204205 + 256 * i, 8, 0, false⟩
/-- LINE_RX_FREQ_OFFSET (0x2042:06), I32, RO: Table 4.12. -/
def lineRxFreqOffset (i : Nat) : Obj := ⟨0x204206 + 256 * i, 32, 0, true⟩
/-- LINE_RX_CLK_BW (0x2042:07), U16, RW: Table 4.12. -/
def lineRxClkBw (i : Nat) : Obj := ⟨0x204207 + 256 * i, 16, 0x3E8, false⟩
/-- LINE_RX_CLOCK_OFFSET (0x2042:08), I32, RO: Table 4.12. -/
def lineRxClockOffset (i : Nat) : Obj := ⟨0x204208 + 256 * i, 32, 0, true⟩
/-- LINE_RX_CLOCK_STATE (0x2042:09), ENUM8, RO: Table 4.12. -/
def lineRxClockState (i : Nat) : Obj := ⟨0x204209 + 256 * i, 8, 0, false⟩
/-- LINE_RX_DGD (0x2042:0A), U16, RO: Table 4.12. -/
def lineRxDgd (i : Nat) : Obj := ⟨0x20420A + 256 * i, 16, 0, false⟩
/-- LINE_RX_PDL (0x2042:0B), U16, RO: Table 4.12. -/
def lineRxPdl (i : Nat) : Obj := ⟨0x20420B + 256 * i, 16, 0, false⟩
/-- LINE_EQ_TAPS (0x2044:01), U8, RW: Table 4.12. -/
def lineEqTaps (i : Nat) : Obj := ⟨0x204401 + 256 * i, 8, 0x21, false⟩
/-- LINE_EQ_DFE_TAPS (0x2044:02), U8, RW: Table 4.12. -/
def lineEqDfeTaps (i : Nat) : Obj := ⟨0x204402 + 256 * i, 8, 3, false⟩
/-- LINE_EQ_MU_BLIND (0x2044:03), U8, RW: Table 4.12. -/
def lineEqMuBlind (i : Nat) : Obj := ⟨0x204403 + 256 * i, 8, 0xC, false⟩
/-- LINE_EQ_MU_DD (0x2044:04), U8, RW: Table 4.12. -/
def lineEqMuDd (i : Nat) : Obj := ⟨0x204404 + 256 * i, 8, 0xE, false⟩
/-- LINE_EQ_DFE_ON (0x2044:05), U16, RW: Table 4.12. -/
def lineEqDfeOn (i : Nat) : Obj := ⟨0x204405 + 256 * i, 16, 0x64, false⟩
/-- LINE_EQ_DFE_OFF (0x2044:06), U16, RW: Table 4.12. -/
def lineEqDfeOff (i : Nat) : Obj := ⟨0x204406 + 256 * i, 16, 0x12C, false⟩
/-- LINE_EQ_FREEZE (0x2044:07), BOOL, RW: Table 4.12. -/
def lineEqFreeze (i : Nat) : Obj := ⟨0x204407 + 256 * i, 1, 0, false⟩
/-- LINE_RX_CPR_HALF (0x2044:08), U8, RW: Table 4.12. -/
def lineRxCprHalf (i : Nat) : Obj := ⟨0x204408 + 256 * i, 8, 0x18, false⟩
/-- LINE_RX_CPR_JOINT (0x2044:09), BOOL, RW: Table 4.12. -/
def lineRxCprJoint (i : Nat) : Obj := ⟨0x204409 + 256 * i, 1, 1, false⟩
/-- LINE_RX_SNR_WINDOW (0x2044:0A), U16, RW: Table 4.12. -/
def lineRxSnrWindow (i : Nat) : Obj := ⟨0x20440A + 256 * i, 16, 0xA, false⟩
/-- LINE_RX_EQ_STATE (0x2046:01), ENUM8, RO: Table 4.12. -/
def lineRxEqState (i : Nat) (k : Nat) : Obj := ⟨0x204601 + 256 * i + k, 8, 0, false⟩
/-- LINE_RX_SNR (0x2048:01), U16, RO: Table 4.12. -/
def lineRxSnr (i : Nat) (k : Nat) : Obj := ⟨0x204801 + 256 * i + k, 16, 0xFFFF, false⟩
/-- LINE_RX_SLIPS (0x204A:01), U32, RWC: Table 4.12. -/
def lineRxSlips (i : Nat) (k : Nat) : Obj := ⟨0x204A01 + 256 * i + k, 32, 0, false⟩
/-- LINE_RX_LOAD (0x204C:01), U8, RO: Table 4.12. -/
def lineRxLoad (i : Nat) (k : Nat) : Obj := ⟨0x204C01 + 256 * i + k, 8, 0x20, false⟩
/-- LINE_LOAD_MODE (0x2050:01), ENUM8, RW: Table 4.12. -/
def lineLoadMode (i : Nat) : Obj := ⟨0x205001 + 256 * i, 8, 1, false⟩
/-- LINE_LOAD_ACCEPT (0x2050:02), BOOL, RW: Table 4.12. -/
def lineLoadAccept (i : Nat) : Obj := ⟨0x205002 + 256 * i, 1, 1, false⟩
/-- LINE_LOAD_MARGIN (0x2050:03), U8, RW: Table 4.12. -/
def lineLoadMargin (i : Nat) : Obj := ⟨0x205003 + 256 * i, 8, 0xA, false⟩
/-- LINE_LOAD_HYST (0x2050:04), U8, RW: Table 4.12. -/
def lineLoadHyst (i : Nat) : Obj := ⟨0x205004 + 256 * i, 8, 3, false⟩
/-- LINE_LOAD_GAP (0x2050:05), I8, RW: Table 4.12. -/
def lineLoadGap (i : Nat) (k : Nat) : Obj := ⟨0x205005 + 256 * i + k, 8, [4, 253, 245].getD k 0, true⟩
/-- LINE_LOAD_MAXCODE (0x2050:08), U8, RW: Table 4.12. -/
def lineLoadMaxcode (i : Nat) : Obj := ⟨0x205008 + 256 * i, 8, 0x60, false⟩
/-- LINE_LOAD_UNIFORM (0x2050:09), BOOL, RW: Table 4.12. -/
def lineLoadUniform (i : Nat) : Obj := ⟨0x205009 + 256 * i, 1, 0, false⟩
/-- LINE_LOAD_MASK (0x2050:0A), U16, RW: Table 4.12. -/
def lineLoadMask (i : Nat) : Obj := ⟨0x20500A + 256 * i, 16, 0xFFFF, false⟩
/-- LINE_LOAD_START_MASK (0x2050:0B), U16, RW: Table 4.12. -/
def lineLoadStartMask (i : Nat) : Obj := ⟨0x20500B + 256 * i, 16, 0xFFFF, false⟩
/-- LINE_LOAD_INTERVAL (0x2050:0C), U16, RW: Table 4.12. -/
def lineLoadInterval (i : Nat) : Obj := ⟨0x20500C + 256 * i, 16, 0x3E8, false⟩
/-- LINE_LOAD_LEAD (0x2050:0D), U16, RW: Table 4.12. -/
def lineLoadLead (i : Nat) : Obj := ⟨0x20500D + 256 * i, 16, 0x14, false⟩
/-- LINE_LOAD_FALLBACK (0x2050:0E), U16, RW: Table 4.12. -/
def lineLoadFallback (i : Nat) : Obj := ⟨0x20500E + 256 * i, 16, 0x7D0, false⟩
/-- LINE_LOAD_STATE (0x2050:0F), ENUM8, RO: Table 4.12. -/
def lineLoadState (i : Nat) : Obj := ⟨0x20500F + 256 * i, 8, 0, false⟩
/-- LINE_LOAD_TABLE_ID (0x2050:10), U8, RO: Table 4.12. -/
def lineLoadTableId (i : Nat) : Obj := ⟨0x205010 + 256 * i, 8, 0, false⟩
/-- LINE_LOAD_PROPOSE (0x2050:11), BYTES(16), WO: Table 4.12. -/
def lineLoadPropose (i : Nat) : Obj := ⟨0x205011 + 256 * i, 128, 0, false⟩
/-- LINE_LOAD_SWITCHES (0x2050:12), U32, RWC: Table 4.12. -/
def lineLoadSwitches (i : Nat) : Obj := ⟨0x205012 + 256 * i, 32, 0, false⟩
/-- LINE_LOAD_REJECTS (0x2050:13), U32, RWC: Table 4.12. -/
def lineLoadRejects (i : Nat) : Obj := ⟨0x205013 + 256 * i, 32, 0, false⟩
/-- LINE_LOAD_RESTARTS (0x2050:14), U32, RWC: Table 4.12. -/
def lineLoadRestarts (i : Nat) : Obj := ⟨0x205014 + 256 * i, 32, 0, false⟩
/-- LINE_LOAD_LATE (0x2050:15), U32, RWC: Table 4.12. -/
def lineLoadLate (i : Nat) : Obj := ⟨0x205015 + 256 * i, 32, 0, false⟩
/-- LINE_LOAD_CANDIDATE (0x2052:01), U8, RO: Table 4.12. -/
def lineLoadCandidate (i : Nat) (k : Nat) : Obj := ⟨0x205201 + 256 * i + k, 8, 0, false⟩
/-- FEC_OVERHEAD (0x2060:01), ENUM8, RW: Table 5.4. -/
def fecOverhead (i : Nat) : Obj := ⟨0x206001 + 256 * i, 8, 1, false⟩
/-- FEC_MAX_ITER (0x2060:02), U8, RW: Table 5.4. -/
def fecMaxIter (i : Nat) : Obj := ⟨0x206002 + 256 * i, 8, 0x12, false⟩
/-- FEC_FAIL_ACTION (0x2060:03), ENUM8, RW: Table 5.4. -/
def fecFailAction (i : Nat) : Obj := ⟨0x206003 + 256 * i, 8, 0, false⟩
/-- FEC_DEADLINE (0x2060:04), U16, RO: Table 5.4. -/
def fecDeadline (i : Nat) : Obj := ⟨0x206004 + 256 * i, 16, 0x4B0, false⟩
/-- FEC_BER_WINDOW (0x2060:05), U16, RW: Table 5.4. -/
def fecBerWindow (i : Nat) : Obj := ⟨0x206005 + 256 * i, 16, 0x3E8, false⟩
/-- FEC_PRE_BER (0x2060:06), U32, RO: Table 5.4. -/
def fecPreBer (i : Nat) : Obj := ⟨0x206006 + 256 * i, 32, 0xFFFFFFFF, false⟩
/-- FEC_PRE_BER_1MS (0x2060:07), U32, RO: Table 5.4. -/
def fecPreBer1ms (i : Nat) : Obj := ⟨0x206007 + 256 * i, 32, 0xFFFFFFFF, false⟩
/-- FEC_Q_MARGIN (0x2060:08), I16, RO: Table 5.4. -/
def fecQMargin (i : Nat) : Obj := ⟨0x206008 + 256 * i, 16, 0x7FFF, true⟩
/-- FEC_MEAN_ITER (0x2060:09), U16, RO: Table 5.4. -/
def fecMeanIter (i : Nat) : Obj := ⟨0x206009 + 256 * i, 16, 0, false⟩
/-- FEC_CW_TOTAL (0x2062:01), U64, RWC: Table 5.4. -/
def fecCwTotal (i : Nat) : Obj := ⟨0x206201 + 256 * i, 64, 0, false⟩
/-- FEC_CW_CONVERGED (0x2062:02), U64, RWC: Table 5.4. -/
def fecCwConverged (i : Nat) : Obj := ⟨0x206202 + 256 * i, 64, 0, false⟩
/-- FEC_CW_MAXITER (0x2062:03), U64, RWC: Table 5.4. -/
def fecCwMaxiter (i : Nat) : Obj := ⟨0x206203 + 256 * i, 64, 0, false⟩
/-- FEC_CW_CUTOFF (0x2062:04), U64, RWC: Table 5.4. -/
def fecCwCutoff (i : Nat) : Obj := ⟨0x206204 + 256 * i, 64, 0, false⟩
/-- FEC_CW_PREEMPTED (0x2062:05), U64, RWC: Table 5.4. -/
def fecCwPreempted (i : Nat) : Obj := ⟨0x206205 + 256 * i, 64, 0, false⟩
/-- FEC_CW_FAILED (0x2062:06), U64, RWC: Table 5.4. -/
def fecCwFailed (i : Nat) : Obj := ⟨0x206206 + 256 * i, 64, 0, false⟩
/-- FEC_BITS (0x2062:07), U64, RWC: Table 5.4. -/
def fecBits (i : Nat) : Obj := ⟨0x206207 + 256 * i, 64, 0, false⟩
/-- FEC_PRE_ERRORS (0x2062:08), U64, RWC: Table 5.4. -/
def fecPreErrors (i : Nat) : Obj := ⟨0x206208 + 256 * i, 64, 0, false⟩
/-- FEC_OUTER_CORR (0x2062:09), U64, RWC: Table 5.4. -/
def fecOuterCorr (i : Nat) : Obj := ⟨0x206209 + 256 * i, 64, 0, false⟩
/-- FEC_FRAMES_FAILED (0x2062:0A), U64, RWC: Table 5.4. -/
def fecFramesFailed (i : Nat) : Obj := ⟨0x20620A + 256 * i, 64, 0, false⟩
/-- FEC_SC_BER (0x2064:01), U32, RO: Table 5.4. -/
def fecScBer (i : Nat) (k : Nat) : Obj := ⟨0x206401 + 256 * i + k, 32, 0xFFFFFFFF, false⟩
/-- FEC_ITER_HIST (0x2066:01), U64, RWC: Table 5.4. -/
def fecIterHist (i : Nat) (k : Nat) : Obj := ⟨0x206601 + 256 * i + k, 64, 0, false⟩
/-- FEC_MIN_ITER (0x2068:01), U8, RW: Table 5.4. -/
def fecMinIter : Obj := ⟨0x206801, 8, 4, false⟩
/-- FEC_PRIORITY (0x2068:02), ENUM8, RW: Table 5.4. -/
def fecPriority : Obj := ⟨0x206802, 8, 0, false⟩
/-- FEC_POOL_MEAN (0x2068:03), U16, RO: Table 5.4. -/
def fecPoolMean : Obj := ⟨0x206803, 16, 0, false⟩
/-- FEC_POOL_PEAK (0x2068:04), U8, RWC: Table 5.4. -/
def fecPoolPeak : Obj := ⟨0x206804, 8, 0, false⟩
/-- FEC_POOL_HELD (0x2068:05), U64, RWC: Table 5.4. -/
def fecPoolHeld : Obj := ⟨0x206805, 64, 0, false⟩
/-- FEC_POOL_LOAD (0x2068:06), U16, RO: Table 5.4. -/
def fecPoolLoad : Obj := ⟨0x206806, 16, 0, false⟩
/-- FEC_POOL_SLOTS (0x2068:07), U8, RO: Table 5.4. -/
def fecPoolSlots : Obj := ⟨0x206807, 8, 0x50, false⟩
/-- FEC_CODE_SPEC (0x2068:08), DOMAIN, RO: Table 5.4. -/
def fecCodeSpec : Obj := ⟨0x206808, 0, 0, false⟩
/-- FRM_GROUPS (0x2080:01), U16, RW: Table 6.9. -/
def frmGroups (i : Nat) : Obj := ⟨0x208001 + 256 * i, 16, 1, false⟩
/-- FRM_DELTA (0x2080:02), U8, RW: Table 6.9. -/
def frmDelta (i : Nat) : Obj := ⟨0x208002 + 256 * i, 8, 6, false⟩
/-- FRM_OOF_BAD (0x2080:03), U8, RW: Table 6.9. -/
def frmOofBad (i : Nat) : Obj := ⟨0x208003 + 256 * i, 8, 4, false⟩
/-- FRM_LOF_SET (0x2080:04), U16, RW: Table 6.9. -/
def frmLofSet (i : Nat) : Obj := ⟨0x208004 + 256 * i, 16, 3, false⟩
/-- FRM_LOF_CLR (0x2080:05), U16, RW: Table 6.9. -/
def frmLofClr (i : Nat) : Obj := ⟨0x208005 + 256 * i, 16, 3, false⟩
/-- FRM_SD_SET (0x2080:06), U8, RW: Table 6.9. -/
def frmSdSet (i : Nat) : Obj := ⟨0x208006 + 256 * i, 8, 0x55, false⟩
/-- FRM_SD_CLR (0x2080:07), U8, RW: Table 6.9. -/
def frmSdClr (i : Nat) : Obj := ⟨0x208007 + 256 * i, 8, 0x46, false⟩
/-- FRM_SD_SET_MS (0x2080:08), U16, RW: Table 6.9. -/
def frmSdSetMs (i : Nat) : Obj := ⟨0x208008 + 256 * i, 16, 0xA, false⟩
/-- FRM_SD_CLR_MS (0x2080:09), U16, RW: Table 6.9. -/
def frmSdClrMs (i : Nat) : Obj := ⟨0x208009 + 256 * i, 16, 0x64, false⟩
/-- FRM_AIS_FRAMES (0x2080:0A), U8, RW: Table 6.9. -/
def frmAisFrames (i : Nat) : Obj := ⟨0x20800A + 256 * i, 8, 3, false⟩
/-- FRM_TX_TRACE (0x2080:0B), U32, RW: Table 6.9. -/
def frmTxTrace (i : Nat) : Obj := ⟨0x20800B + 256 * i, 32, 0, false⟩
/-- FRM_TRACE_EXP (0x2080:0C), U32, RW: Table 6.9. -/
def frmTraceExp (i : Nat) : Obj := ⟨0x20800C + 256 * i, 32, 0, false⟩
/-- FRM_TRACE_CHECK (0x2080:0D), ENUM8, RW: Table 6.9. -/
def frmTraceCheck (i : Nat) : Obj := ⟨0x20800D + 256 * i, 8, 0, false⟩
/-- FRM_SC_LOST_MS (0x2080:0E), U16, RW: Table 6.9. -/
def frmScLostMs (i : Nat) : Obj := ⟨0x20800E + 256 * i, 16, 0x14, false⟩
/-- FRM_SC_PROBE (0x2080:0F), U16, RW: Table 6.9. -/
def frmScProbe (i : Nat) : Obj := ⟨0x20800F + 256 * i, 16, 0, false⟩
/-- FRM_SC_LOST (0x2080:10), U16, RO: Table 6.9. -/
def frmScLost (i : Nat) : Obj := ⟨0x208010 + 256 * i, 16, 0, false⟩
/-- FRM_ALIGN_STATE (0x2082:01), ENUM8, RO: Table 6.9. -/
def frmAlignState (i : Nat) (k : Nat) : Obj := ⟨0x208201 + 256 * i + k, 8, 0, false⟩
/-- FRM_DEFECTS (0x2084:01), U16, RO: Table 6.9. -/
def frmDefects (i : Nat) (k : Nat) : Obj := ⟨0x208401 + 256 * i + k, 16, 0, false⟩
/-- FRM_CAPACITY (0x2086:01), U32, RO: Table 6.9. -/
def frmCapacity (i : Nat) (k : Nat) : Obj := ⟨0x208601 + 256 * i + k, 32, 0, false⟩
/-- FRM_RX_TRACE (0x2088:01), U32, RO: Table 6.9. -/
def frmRxTrace (i : Nat) (k : Nat) : Obj := ⟨0x208801 + 256 * i + k, 32, 0, false⟩
/-- FRM_HDR_ERRORS (0x208A:01), U64, RWC: Table 6.9. -/
def frmHdrErrors (i : Nat) : Obj := ⟨0x208A01 + 256 * i, 64, 0, false⟩
/-- FRM_OOF_COUNT (0x208A:02), U32, RWC: Table 6.9. -/
def frmOofCount (i : Nat) : Obj := ⟨0x208A02 + 256 * i, 32, 0, false⟩
/-- FRM_LOF_COUNT (0x208A:03), U32, RWC: Table 6.9. -/
def frmLofCount (i : Nat) : Obj := ⟨0x208A03 + 256 * i, 32, 0, false⟩
/-- FRM_FAR_REI (0x208A:04), U64, RWC: Table 6.9. -/
def frmFarRei (i : Nat) : Obj := ⟨0x208A04 + 256 * i, 64, 0, false⟩
/-- FRM_MAP_SLIPS (0x208A:05), U32, RWC: Table 6.9. -/
def frmMapSlips (i : Nat) : Obj := ⟨0x208A05 + 256 * i, 32, 0, false⟩
/-- FRM_SLOT_DISCARDS (0x208A:06), U32, RWC: Table 6.9. -/
def frmSlotDiscards (i : Nat) : Obj := ⟨0x208A06 + 256 * i, 32, 0, false⟩
/-- FRM_SHED_COUNT (0x208A:07), U32, RWC: Table 6.9. -/
def frmShedCount (i : Nat) : Obj := ⟨0x208A07 + 256 * i, 32, 0, false⟩
/-- FRM_BOND_SKEW (0x208C:01), I32, RO: Table 6.9. -/
def frmBondSkew (k : Nat) : Obj := ⟨0x208C01 + k, 32, 0, true⟩
/-- FRM_BOND_MODE (0x208E:01), BOOL, RW: Table 6.9. -/
def frmBondMode : Obj := ⟨0x208E01, 1, 0, false⟩
/-- FRM_RX_CAPACITY (0x2090:01), U32, RO: Table 6.9. -/
def frmRxCapacity (i : Nat) (k : Nat) : Obj := ⟨0x209001 + 256 * i + k, 32, 0, false⟩
/-- HUB_ENABLE (0x2800:01), BOOL, RW: Table 7.9. -/
def hubEnable (i : Nat) : Obj := ⟨0x280001 + 256 * i, 1, 0, false⟩
/-- HUB_EQ_CYCLES (0x2800:02), U8, RW: Table 7.9. -/
def hubEqCycles (i : Nat) : Obj := ⟨0x280002 + 256 * i, 8, 0x10, false⟩
/-- HUB_GRANT_LEAD (0x2800:03), U8, RW: Table 7.9. -/
def hubGrantLead (i : Nat) : Obj := ⟨0x280003 + 256 * i, 8, 0x20, false⟩
/-- HUB_GUARD (0x2800:04), U16, RW: Table 7.9. -/
def hubGuard (i : Nat) : Obj := ⟨0x280004 + 256 * i, 16, 0x20, false⟩
/-- HUB_ARRIVE_TOL (0x2800:05), U8, RW: Table 7.9. -/
def hubArriveTol (i : Nat) : Obj := ⟨0x280005 + 256 * i, 8, 4, false⟩
/-- HUB_RANGE_TRIM (0x2800:06), U8, RW: Table 7.9. -/
def hubRangeTrim (i : Nat) : Obj := ⟨0x280006 + 256 * i, 8, 1, false⟩
/-- HUB_SYNC (0x2800:07), U64, RW: Table 7.9. -/
def hubSync (i : Nat) : Obj := ⟨0x280007 + 256 * i, 64, 0xB3A596C34F1ED287, false⟩
/-- HUB_SYNC_TOL (0x2800:08), U8, RW: Table 7.9. -/
def hubSyncTol (i : Nat) : Obj := ⟨0x280008 + 256 * i, 8, 4, false⟩
/-- HUB_DET_THRESH (0x2800:09), U8, RW: Table 7.9. -/
def hubDetThresh (i : Nat) : Obj := ⟨0x280009 + 256 * i, 8, 0x60, false⟩
/-- HUB_CAPTURE (0x2800:0A), U8, RW: Table 7.9. -/
def hubCapture (i : Nat) : Obj := ⟨0x28000A + 256 * i, 8, 0x3C, false⟩
/-- HUB_LOSS_CYCLES (0x2800:0B), U16, RW: Table 7.9. -/
def hubLossCycles (i : Nat) : Obj := ⟨0x28000B + 256 * i, 16, 8, false⟩
/-- HUB_DISC_PERIOD (0x2800:0C), U16, RW: Table 7.9. -/
def hubDiscPeriod (i : Nat) : Obj := ⟨0x28000C + 256 * i, 16, 0x64, false⟩
/-- HUB_DISC_MASK (0x2800:0D), U16, RW: Table 7.9. -/
def hubDiscMask (i : Nat) : Obj := ⟨0x28000D + 256 * i, 16, 0xFFFF, false⟩
/-- HUB_DISC_STATE (0x2800:0E), ENUM8, RO: Table 7.9. -/
def hubDiscState (i : Nat) : Obj := ⟨0x28000E + 256 * i, 8, 0, false⟩
/-- HUB_DISC_SC (0x2800:0F), U8, RO: Table 7.9. -/
def hubDiscSc (i : Nat) : Obj := ⟨0x28000F + 256 * i, 8, 0xFF, false⟩
/-- HUB_POLICE_LIMIT (0x2800:10), U16, RW: Table 7.9. -/
def hubPoliceLimit (i : Nat) : Obj := ⟨0x280010 + 256 * i, 16, 0x10, false⟩
/-- HUB_ROGUE_WATCH (0x2800:11), BOOL, RW: Table 7.9. -/
def hubRogueWatch (i : Nat) : Obj := ⟨0x280011 + 256 * i, 1, 1, false⟩
/-- HUB_US_CD (0x2800:12), I32, RW: Table 7.9. -/
def hubUsCd (i : Nat) : Obj := ⟨0x280012 + 256 * i, 32, 0, true⟩
/-- HUB_DEREG_TIME (0x2800:13), U16, RW: Table 7.9. -/
def hubDeregTime (i : Nat) : Obj := ⟨0x280013 + 256 * i, 16, 0xA, false⟩
/-- HUB_REG_UNKNOWN (0x2800:14), U32, RWC: Table 7.9. -/
def hubRegUnknown (i : Nat) : Obj := ⟨0x280014 + 256 * i, 32, 0, false⟩
/-- HUB_REG_AUTHFAIL (0x2800:15), U32, RWC: Table 7.9. -/
def hubRegAuthfail (i : Nat) : Obj := ⟨0x280015 + 256 * i, 32, 0, false⟩
/-- HUB_REG_RANGE (0x2800:16), U32, RWC: Table 7.9. -/
def hubRegRange (i : Nat) : Obj := ⟨0x280016 + 256 * i, 32, 0, false⟩
/-- HUB_GRANT_NEXT (0x2802:01), DOMAIN, RW: Table 7.9. -/
def hubGrantNext (i : Nat) : Obj := ⟨0x280201 + 256 * i, 0, 0, false⟩
/-- HUB_GRANT_TABLE (0x2802:02), U8, RWS: Table 7.9. -/
def hubGrantTable (i : Nat) : Obj := ⟨0x280202 + 256 * i, 8, 0, false⟩
/-- HUB_GRANT_ACTIVE (0x2802:03), DOMAIN, RO: Table 7.9. -/
def hubGrantActive (i : Nat) : Obj := ⟨0x280203 + 256 * i, 0, 0, false⟩
/-- HUB_GRANT_FROM (0x2802:04), TIME96, RO: Table 7.9. -/
def hubGrantFrom (i : Nat) : Obj := ⟨0x280204 + 256 * i, 96, 0, false⟩
/-- HUB_DS_CODE (0x2804:01), U8, RWS: Table 7.9. -/
def hubDsCode (i : Nat) (k : Nat) : Obj := ⟨0x280401 + 256 * i + k, 8, 0x20, false⟩
/-- HUB_DS_CANDIDATE (0x2806:01), U8, RO: Table 7.9. -/
def hubDsCandidate (i : Nat) (k : Nat) : Obj := ⟨0x280601 + 256 * i + k, 8, 0, false⟩
/-- HUB_US_STATE (0x2808:01), ENUM8, RO: Table 7.9. -/
def hubUsState (i : Nat) (k : Nat) : Obj := ⟨0x280801 + 256 * i + k, 8, 0, false⟩
/-- HUB_ROGUE (0x280A:01), U32, RWC: Table 7.9. -/
def hubRogue (i : Nat) (k : Nat) : Obj := ⟨0x280A01 + 256 * i + k, 32, 0, false⟩
/-- HUB_COLLISIONS (0x280C:01), U32, RWC: Table 7.9. -/
def hubCollisions (i : Nat) (k : Nat) : Obj := ⟨0x280C01 + 256 * i + k, 32, 0, false⟩
/-- HUB_CAPTURES (0x280E:01), U32, RWC: Table 7.9. -/
def hubCaptures (i : Nat) (k : Nat) : Obj := ⟨0x280E01 + 256 * i + k, 32, 0, false⟩
/-- HUB_LEAF_ENABLE (0x2810:01), BOOL, RW: Table 7.9. -/
def hubLeafEnable (i : Nat) : Obj := ⟨0x281001 + 256 * i, 1, 0, false⟩
/-- HUB_LEAF_SERIAL (0x2810:02), U64, RW: Table 7.9. -/
def hubLeafSerial (i : Nat) : Obj := ⟨0x281002 + 256 * i, 64, 0, false⟩
/-- HUB_LEAF_KEY (0x2810:03), U16, RW: Table 7.9. -/
def hubLeafKey (i : Nat) : Obj := ⟨0x281003 + 256 * i, 16, 0xFFFF, false⟩
/-- HUB_LEAF_STATE (0x2810:04), ENUM8, RO: Table 7.9. -/
def hubLeafState (i : Nat) : Obj := ⟨0x281004 + 256 * i, 8, 0, false⟩
/-- HUB_LEAF_DS_SC (0x2810:05), U8, RO: Table 7.9. -/
def hubLeafDsSc (i : Nat) : Obj := ⟨0x281005 + 256 * i, 8, 0xFF, false⟩
/-- HUB_LEAF_EQD (0x2810:06), U32, RO: Table 7.9. -/
def hubLeafEqd (i : Nat) : Obj := ⟨0x281006 + 256 * i, 32, 0, false⟩
/-- HUB_LEAF_RTT (0x2810:07), U32, RO: Table 7.9. -/
def hubLeafRtt (i : Nat) : Obj := ⟨0x281007 + 256 * i, 32, 0, false⟩
/-- HUB_LEAF_RSSI (0x2810:08), I16, RO: Table 7.9. -/
def hubLeafRssi (i : Nat) : Obj := ⟨0x281008 + 256 * i, 16, 0x8000, true⟩
/-- HUB_LEAF_SNR (0x2810:09), U16, RO: Table 7.9. -/
def hubLeafSnr (i : Nat) : Obj := ⟨0x281009 + 256 * i, 16, 0xFFFF, false⟩
/-- HUB_LEAF_CANDIDATE (0x2810:0A), U8, RO: Table 7.9. -/
def hubLeafCandidate (i : Nat) : Obj := ⟨0x28100A + 256 * i, 8, 0, false⟩
/-- HUB_LEAF_DS_SNR (0x2810:0B), U16, RO: Table 7.9. -/
def hubLeafDsSnr (i : Nat) : Obj := ⟨0x28100B + 256 * i, 16, 0xFFFF, false⟩
/-- HUB_LEAF_FREQ (0x2810:0C), I32, RO: Table 7.9. -/
def hubLeafFreq (i : Nat) : Obj := ⟨0x28100C + 256 * i, 32, 0, true⟩
/-- HUB_LEAF_DEFECTS (0x2810:0D), U8, RO: Table 7.9. -/
def hubLeafDefects (i : Nat) : Obj := ⟨0x28100D + 256 * i, 8, 0, false⟩
/-- HUB_LEAF_PRE_BER (0x2810:0E), U32, RO: Table 7.9. -/
def hubLeafPreBer (i : Nat) : Obj := ⟨0x28100E + 256 * i, 32, 0xFFFFFFFF, false⟩
/-- HUB_LEAF_BURSTS (0x2810:0F), U64, RWC: Table 7.9. -/
def hubLeafBursts (i : Nat) : Obj := ⟨0x28100F + 256 * i, 64, 0, false⟩
/-- HUB_LEAF_MISSED (0x2810:10), U32, RWC: Table 7.9. -/
def hubLeafMissed (i : Nat) : Obj := ⟨0x281010 + 256 * i, 32, 0, false⟩
/-- HUB_LEAF_VIOLATIONS (0x2810:11), U32, RWC: Table 7.9. -/
def hubLeafViolations (i : Nat) : Obj := ⟨0x281011 + 256 * i, 32, 0, false⟩
/-- HUB_LEAF_STALE (0x2810:12), U32, RWC: Table 7.9. -/
def hubLeafStale (i : Nat) : Obj := ⟨0x281012 + 256 * i, 32, 0, false⟩
/-- FAB_MAP_NEXT (0x3000:01), DOMAIN, RW: Table 8.10. -/
def fabMapNext : Obj := ⟨0x300001, 0, 0, false⟩
/-- FAB_MAP_ACTIVE (0x3000:02), DOMAIN, RO: Table 8.10. -/
def fabMapActive : Obj := ⟨0x300002, 0, 0, false⟩
/-- FAB_MAP_SWAP (0x3000:03), U16, RWS: Table 8.10. -/
def fabMapSwap : Obj := ⟨0x300003, 16, 0, false⟩
/-- FAB_MAP_GEN (0x3000:04), U16, RO: Table 8.10. -/
def fabMapGen : Obj := ⟨0x300004, 16, 0, false⟩
/-- FAB_MAP_NEXT_STATE (0x3000:05), ENUM8, RO: Table 8.10. -/
def fabMapNextState : Obj := ⟨0x300005, 8, 0, false⟩
/-- FAB_MAP_REVERT (0x3000:06), BOOL, WO: Table 8.10. -/
def fabMapRevert : Obj := ⟨0x300006, 1, 0, false⟩
/-- FAB_MAP_FAIL (0x3000:07), BYTES(8), RO: Table 8.10. -/
def fabMapFail : Obj := ⟨0x300007, 64, 0, false⟩
/-- FAB_LATENCY_FIXED (0x3000:08), U16, RO: Table 8.10. -/
def fabLatencyFixed : Obj := ⟨0x300008, 16, 0, false⟩
/-- FAB_VOTE_FIXES (0x3002:01), U64, RWC: Table 8.10. -/
def fabVoteFixes : Obj := ⟨0x300201, 64, 0, false⟩
/-- FAB_VOTE_FAILS (0x3002:02), U32, RWC: Table 8.10. -/
def fabVoteFails : Obj := ⟨0x300202, 32, 0, false⟩
/-- FAB_SWAPS (0x3002:03), U32, RWC: Table 8.10. -/
def fabSwaps : Obj := ⟨0x300203, 32, 0, false⟩
/-- FAB_HL_RATE (0x3002:04), U32, RO: Table 8.10. -/
def fabHlRate : Obj := ⟨0x300204, 32, 0, false⟩
/-- FAB_HL_BUFFER (0x3002:05), U32, RO: Table 8.10. -/
def fabHlBuffer : Obj := ⟨0x300205, 32, 0, false⟩
/-- FAB_PORT_SLIPS (0x3004:01), U32, RWC: Table 8.10. -/
def fabPortSlips (k : Nat) : Obj := ⟨0x300401 + k, 32, 0, false⟩
/-- FAB_PORT_IN (0x3006:01), U32, RO: Table 8.10. -/
def fabPortIn (k : Nat) : Obj := ⟨0x300601 + k, 32, 0, false⟩
/-- FAB_PORT_OUT (0x3008:01), U32, RO: Table 8.10. -/
def fabPortOut (k : Nat) : Obj := ⟨0x300801 + k, 32, 0, false⟩
/-- FAB_GRP_SELECT (0x3010:01), U16, RW: Table 8.10. -/
def fabGrpSelect : Obj := ⟨0x301001, 16, 0, false⟩
/-- FAB_GRP_ALIGN (0x3012:01), ENUM8, RO: Table 8.10. -/
def fabGrpAlign (k : Nat) : Obj := ⟨0x301201 + k, 8, 0, false⟩
/-- FAB_GRP_DEFECTS (0x3012:03), U8, RO: Table 8.10. -/
def fabGrpDefects (k : Nat) : Obj := ⟨0x301203 + k, 8, 0, false⟩
/-- FAB_PG_STATE (0x3012:05), ENUM8, RO: Table 8.10. -/
def fabPgState : Obj := ⟨0x301205, 8, 0, false⟩
/-- FAB_PG_SELECTED (0x3012:06), ENUM8, RO: Table 8.10. -/
def fabPgSelected : Obj := ⟨0x301206, 8, 0, false⟩
/-- FAB_PG_WTR_LEFT (0x3012:07), U16, RO: Table 8.10. -/
def fabPgWtrLeft : Obj := ⟨0x301207, 16, 0, false⟩
/-- FAB_HL_STATE (0x3012:08), U8, RO: Table 8.10. -/
def fabHlState : Obj := ⟨0x301208, 8, 0, false⟩
/-- FAB_HL_DD (0x3012:09), I32, RO: Table 8.10. -/
def fabHlDd : Obj := ⟨0x301209, 32, 0, true⟩
/-- FAB_PG_SWITCHES (0x3012:0A), U32, RWC: Table 8.10. -/
def fabPgSwitches : Obj := ⟨0x30120A, 32, 0, false⟩
/-- FAB_HL_REALIGNS (0x3012:0B), U32, RWC: Table 8.10. -/
def fabHlRealigns : Obj := ⟨0x30120B, 32, 0, false⟩
/-- FAB_GRP_RX_TRACE (0x3012:0C), U32, RO: Table 8.10. -/
def fabGrpRxTrace : Obj := ⟨0x30120C, 32, 0, false⟩
/-- FAB_GRP_HDR_ERRORS (0x3012:0D), U32, RWC: Table 8.10. -/
def fabGrpHdrErrors : Obj := ⟨0x30120D, 32, 0, false⟩
/-- FAB_PG_CMD (0x3014:01), BYTES(4), WO: Table 8.10. -/
def fabPgCmd : Obj := ⟨0x301401, 32, 0, false⟩
/-- FAB_GRP_DEFECT_LIST (0x3014:02), DOMAIN, RO: Table 8.10. -/
def fabGrpDefectList : Obj := ⟨0x301402, 0, 0, false⟩
/-- FAB_DELTA (0x3014:03), U8, RW: Table 8.10. -/
def fabDelta : Obj := ⟨0x301403, 8, 6, false⟩
/-- FAB_OOF_BAD (0x3014:04), U8, RW: Table 8.10. -/
def fabOofBad : Obj := ⟨0x301404, 8, 4, false⟩
/-- FAB_GLOF_MS (0x3014:05), U16, RW: Table 8.10. -/
def fabGlofMs : Obj := ⟨0x301405, 16, 3, false⟩
/-- PKT_MTU (0x4000:01), U16, RW: Table 9.11. -/
def pktMtu : Obj := ⟨0x400001, 16, 0x2400, false⟩
/-- PKT_SPILL_SIZE (0x4000:02), U64, RO: Table 9.11. -/
def pktSpillSize : Obj := ⟨0x400002, 64, 0x2000000000, false⟩
/-- PKT_SPILL_USED (0x4000:03), U64, RO: Table 9.11. -/
def pktSpillUsed : Obj := ⟨0x400003, 64, 0, false⟩
/-- PKT_RATE_USED (0x4000:04), U32, RO: Table 9.11. -/
def pktRateUsed : Obj := ⟨0x400004, 32, 0, false⟩
/-- PKT_PORT_RATE_USED (0x4000:05), U32, RO: Table 9.11. -/
def pktPortRateUsed : Obj := ⟨0x400005, 32, 0, false⟩
/-- PKT_WM_LIST (0x4000:06), DOMAIN, RO: Table 9.11. -/
def pktWmList : Obj := ⟨0x400006, 0, 0, false⟩
/-- PKT_CH_CONFLICTS (0x4000:07), U32, RWC: Table 9.11. -/
def pktChConflicts : Obj := ⟨0x400007, 32, 0, false⟩
/-- PKT_UNBOUND_DISCARDS (0x4000:08), U64, RWC: Table 9.11. -/
def pktUnboundDiscards : Obj := ⟨0x400008, 64, 0, false⟩
/-- PKT_LATE (0x4000:09), U64, RWC: Table 9.11. -/
def pktLate : Obj := ⟨0x400009, 64, 0, false⟩
/-- PKT_FLOW_COUNT (0x4000:0A), U32, RO: Table 9.11. -/
def pktFlowCount : Obj := ⟨0x40000A, 32, 0, false⟩
/-- PKT_FLOW_EDIT (0x4002:01), DOMAIN, WO: Table 9.11. -/
def pktFlowEdit : Obj := ⟨0x400201, 0, 0, false⟩
/-- PKT_FLOW_LOOKUP (0x4002:02), BYTES(40), RW: Table 9.11. -/
def pktFlowLookup : Obj := ⟨0x400202, 320, 0, false⟩
/-- PKT_FLOW_RESULT (0x4002:03), BYTES(64), RO: Table 9.11. -/
def pktFlowResult : Obj := ⟨0x400203, 512, 0, false⟩
/-- PKT_FLOW_COUNTERS (0x4002:04), BYTES(32), RO: Table 9.11. -/
def pktFlowCounters : Obj := ⟨0x400204, 256, 0, false⟩
/-- PKT_FLOW_HASH_SPEC (0x4002:05), DOMAIN, RO: Table 9.11. -/
def pktFlowHashSpec : Obj := ⟨0x400205, 0, 0, false⟩
/-- PKT_PORT_MODE (0x4010:01), ENUM8, RW: Table 9.11. -/
def pktPortMode (k : Nat) : Obj := ⟨0x401001 + k, 8, 0, false⟩
/-- PKT_PORT_KEYS (0x4011:01), U8, RW: Table 9.11. -/
def pktPortKeys (k : Nat) : Obj := ⟨0x401101 + k, 8, 1, false⟩
/-- PKT_PORT_MISS (0x4012:01), U32, RW: Table 9.11. -/
def pktPortMiss (k : Nat) : Obj := ⟨0x401201 + k, 32, 0, false⟩
/-- PKT_PORT_CAPACITY (0x4013:01), U32, RO: Table 9.11. -/
def pktPortCapacity (k : Nat) : Obj := ⟨0x401301 + k, 32, 0, false⟩
/-- PKT_PORT_SELECT (0x4014:01), U8, RW: Table 9.11. -/
def pktPortSelect : Obj := ⟨0x401401, 8, 0, false⟩
/-- PKT_PORT_COUNTERS (0x4016:01), U64, RWC: Table 9.11. -/
def pktPortCounters (k : Nat) : Obj := ⟨0x401601 + k, 64, 0, false⟩
/-- PKT_PORT_POISON_MISS (0x4016:0A), U64, RWC: Table 9.11. -/
def pktPortPoisonMiss : Obj := ⟨0x40160A, 64, 0, false⟩
/-- PKT_Q_SELECT (0x4020:01), U32, RW: Table 9.11. -/
def pktQSelect : Obj := ⟨0x402001, 32, 0, false⟩
/-- PKT_Q_FLUSH (0x4020:02), U32, WO: Table 9.11. -/
def pktQFlush : Obj := ⟨0x402002, 32, 0, false⟩
/-- PKT_Q_CONFIG (0x4020:03), DOMAIN, RW: Table 9.11. -/
def pktQConfig : Obj := ⟨0x402003, 0, 0, false⟩
/-- PKT_Q_STATE (0x4022:01), ENUM8, RO: Table 9.11. -/
def pktQState : Obj := ⟨0x402201, 8, 0, false⟩
/-- PKT_Q_DEPTH (0x4022:02), U64, RO: Table 9.11. -/
def pktQDepth : Obj := ⟨0x402202, 64, 0, false⟩
/-- PKT_Q_ITEMS (0x4022:03), U32, RO: Table 9.11. -/
def pktQItems : Obj := ⟨0x402203, 32, 0, false⟩
/-- PKT_Q_BOUND (0x4022:04), U32, RO: Table 9.11. -/
def pktQBound : Obj := ⟨0x402204, 32, 0, false⟩
/-- PKT_Q_LIVE (0x4022:05), U8, RO: Table 9.11. -/
def pktQLive : Obj := ⟨0x402205, 8, 0, false⟩
/-- PKT_Q_WM_LATCH (0x4022:06), U32, RWC: Table 9.11. -/
def pktQWmLatch : Obj := ⟨0x402206, 32, 0, false⟩
/-- PKT_Q_WM_FIRST (0x4022:07), TIME96, RO: Table 9.11. -/
def pktQWmFirst : Obj := ⟨0x402207, 96, 0, false⟩
/-- PKT_Q_ACCEPTED (0x4022:08), U64, RWC: Table 9.11. -/
def pktQAccepted : Obj := ⟨0x402208, 64, 0, false⟩
/-- PKT_Q_REFUSED (0x4022:09), U64, RWC: Table 9.11. -/
def pktQRefused : Obj := ⟨0x402209, 64, 0, false⟩
/-- PKT_Q_POLICED (0x4022:0A), U64, RWC: Table 9.11. -/
def pktQPoliced : Obj := ⟨0x40220A, 64, 0, false⟩
/-- PKT_Q_REWOUND (0x4022:0B), U64, RWC: Table 9.11. -/
def pktQRewound : Obj := ⟨0x40220B, 64, 0, false⟩
/-- PKT_Q_FLUSHED_ITEMS (0x4022:0C), U64, RWC: Table 9.11. -/
def pktQFlushedItems : Obj := ⟨0x40220C, 64, 0, false⟩
/-- PKT_Q_FLUSHED_BYTES (0x4022:0D), U64, RWC: Table 9.11. -/
def pktQFlushedBytes : Obj := ⟨0x40220D, 64, 0, false⟩
/-- PKT_Q_FENCE_WORDS (0x4022:0E), U64, RWC: Table 9.11. -/
def pktQFenceWords : Obj := ⟨0x40220E, 64, 0, false⟩
/-- PKT_Q_SPILLED (0x4022:0F), U32, RO: Table 9.11. -/
def pktQSpilled : Obj := ⟨0x40220F, 32, 0, false⟩
/-- PKT_Q_PEAK (0x4022:10), U64, RWC: Table 9.11. -/
def pktQPeak : Obj := ⟨0x402210, 64, 0, false⟩
/-- PKT_EG_ERRORS (0x4024:01), U64, RWC: Table 9.11. -/
def pktEgErrors : Obj := ⟨0x402401, 64, 0, false⟩
/-- PKT_EG_DELIN (0x4024:02), U32, RWC: Table 9.11. -/
def pktEgDelin : Obj := ⟨0x402402, 32, 0, false⟩
/-- PKT_EG_POISON (0x4024:03), U64, RWC: Table 9.11. -/
def pktEgPoison : Obj := ⟨0x402403, 64, 0, false⟩
/-- TIME_NOW (0x5000:01), TIME96, RO: Table 11.9. -/
def timeNow : Obj := ⟨0x500001, 96, 0, false⟩
/-- TIME_SEL_MODE (0x5000:02), ENUM8, RW: Table 11.9. -/
def timeSelMode : Obj := ⟨0x500002, 8, 0, false⟩
/-- TIME_FORCE (0x5000:03), U8, RWS: Table 11.9. -/
def timeForce : Obj := ⟨0x500003, 8, 0, false⟩
/-- TIME_SELECTED (0x5000:04), U8, RO: Table 11.9. -/
def timeSelected : Obj := ⟨0x500004, 8, 0xFF, false⟩
/-- TIME_LOCK (0x5000:05), ENUM8, RO: Table 11.9. -/
def timeLock : Obj := ⟨0x500005, 8, 0, false⟩
/-- TIME_PROOF (0x5000:06), U16, RW: Table 11.9. -/
def timeProof : Obj := ⟨0x500006, 16, 0x3C, false⟩
/-- TIME_PROOF_FIRST (0x5000:07), U16, RW: Table 11.9. -/
def timeProofFirst : Obj := ⟨0x500007, 16, 0xA, false⟩
/-- TIME_SLOPE (0x5000:08), U16, RW: Table 11.9. -/
def timeSlope : Obj := ⟨0x500008, 16, 0x32, false⟩
/-- TIME_ACQ_SLOPE (0x5000:09), U16, RW: Table 11.9. -/
def timeAcqSlope : Obj := ⟨0x500009, 16, 0x2710, false⟩
/-- TIME_PULL_LEFT (0x5000:0A), I64, RO: Table 11.9. -/
def timePullLeft : Obj := ⟨0x50000A, 64, 0, true⟩
/-- TIME_AGREE (0x5000:0B), U16, RW: Table 11.9. -/
def timeAgree : Obj := ⟨0x50000B, 16, 0xC8, false⟩
/-- TIME_AGREE_FREQ (0x5000:0C), U16, RW: Table 11.9. -/
def timeAgreeFreq : Obj := ⟨0x50000C, 16, 0x1F4, false⟩
/-- TIME_JUMP_LIMIT (0x5000:0D), U16, RW: Table 11.9. -/
def timeJumpLimit : Obj := ⟨0x50000D, 16, 0x64, false⟩
/-- TIME_FREQ_LIMIT (0x5000:0E), U16, RW: Table 11.9. -/
def timeFreqLimit : Obj := ⟨0x50000E, 16, 0x398, false⟩
/-- TIME_LOCK_WIN (0x5000:0F), U16, RW: Table 11.9. -/
def timeLockWin : Obj := ⟨0x50000F, 16, 0x14, false⟩
/-- TIME_FIRST_STEP (0x5000:10), BOOL, RW: Table 11.9. -/
def timeFirstStep : Obj := ⟨0x500010, 1, 1, false⟩
/-- TIME_LOOP_MODE (0x5000:11), ENUM8, RWS: Table 11.9. -/
def timeLoopMode : Obj := ⟨0x500011, 8, 0, false⟩
/-- TIME_SW_FREQ (0x5000:12), I64, RW: Table 11.9. -/
def timeSwFreq : Obj := ⟨0x500012, 64, 0, true⟩
/-- TIME_SW_PHASE (0x5000:13), I64, WO: Table 11.9. -/
def timeSwPhase : Obj := ⟨0x500013, 64, 0, true⟩
/-- TIME_SW_WATCHDOG (0x5000:14), U16, RW: Table 11.9. -/
def timeSwWatchdog : Obj := ⟨0x500014, 16, 0xA, false⟩
/-- TIME_MEAS (0x5000:15), BYTES(216), RO: Table 11.9. -/
def timeMeas : Obj := ⟨0x500015, 1728, 0, false⟩
/-- TIME_LOOP_FREQ (0x5000:16), I64, RO: Table 11.9. -/
def timeLoopFreq : Obj := ⟨0x500016, 64, 0, true⟩
/-- TIME_OCXO_NOMINAL (0x5000:17), U32, RW: Table 11.9. -/
def timeOcxoNominal : Obj := ⟨0x500017, 32, 0x1312D00, false⟩
/-- TIME_SWITCHES (0x5000:18), U32, RWC: Table 11.9. -/
def timeSwitches : Obj := ⟨0x500018, 32, 0, false⟩
/-- TIME_OUTVOTES (0x5000:19), U32, RWC: Table 11.9. -/
def timeOutvotes : Obj := ⟨0x500019, 32, 0, false⟩
/-- TIME_GNSS_BAUD (0x5010:01), U32, RW: Table 11.9. -/
def timeGnssBaud : Obj := ⟨0x501001, 32, 0x2580, false⟩
/-- TIME_GNSS_EDGE (0x5010:02), ENUM8, RW: Table 11.9. -/
def timeGnssEdge : Obj := ⟨0x501002, 8, 0, false⟩
/-- TIME_GNSS_STATUS (0x5010:03), ENUM8, RO: Table 11.9. -/
def timeGnssStatus : Obj := ⟨0x501003, 8, 0, false⟩
/-- TIME_GNSS_TOD_ERRORS (0x5010:04), U32, RWC: Table 11.9. -/
def timeGnssTodErrors : Obj := ⟨0x501004, 32, 0, false⟩
/-- TIME_EXT_MODE (0x5012:01), ENUM8, RW: Table 11.9. -/
def timeExtMode (k : Nat) : Obj := ⟨0x501201 + k, 8, 0, false⟩
/-- TIME_EXT_FREQ (0x5012:03), U32, RW: Table 11.9. -/
def timeExtFreq (k : Nat) : Obj := ⟨0x501203 + k, 32, 0x989680, false⟩
/-- TIME_CAND_SOURCE (0x5020:01), U8, RW: Table 11.9. -/
def timeCandSource (i : Nat) : Obj := ⟨0x502001 + 256 * i, 8, 0, false⟩
/-- TIME_CAND_PRIORITY (0x5020:02), U8, RW: Table 11.9. -/
def timeCandPriority (i : Nat) : Obj := ⟨0x502002 + 256 * i, 8, 0, false⟩
/-- TIME_CAND_QL_MODE (0x5020:03), ENUM8, RW: Table 11.9. -/
def timeCandQlMode (i : Nat) : Obj := ⟨0x502003 + 256 * i, 8, 0, false⟩
/-- TIME_CAND_QL_FIXED (0x5020:04), U8, RW: Table 11.9. -/
def timeCandQlFixed (i : Nat) : Obj := ⟨0x502004 + 256 * i, 8, 0xF, false⟩
/-- TIME_CAND_BW (0x5020:05), U32, RW: Table 11.9. -/
def timeCandBw (i : Nat) : Obj := ⟨0x502005 + 256 * i, 32, 0, false⟩
/-- TIME_CAND_STATE (0x5020:06), ENUM8, RO: Table 11.9. -/
def timeCandState (i : Nat) : Obj := ⟨0x502006 + 256 * i, 8, 0, false⟩
/-- TIME_CAND_QL (0x5020:07), U8, RO: Table 11.9. -/
def timeCandQl (i : Nat) : Obj := ⟨0x502007 + 256 * i, 8, 0xF, false⟩
/-- TIME_CAND_FAULTS (0x5020:08), U16, RO: Table 11.9. -/
def timeCandFaults (i : Nat) : Obj := ⟨0x502008 + 256 * i, 16, 0, false⟩
/-- TIME_CAND_PHASE (0x5020:09), I64, RO: Table 11.9. -/
def timeCandPhase (i : Nat) : Obj := ⟨0x502009 + 256 * i, 64, 0, true⟩
/-- TIME_CAND_FREQ (0x5020:0A), I32, RO: Table 11.9. -/
def timeCandFreq (i : Nat) : Obj := ⟨0x50200A + 256 * i, 32, 0, true⟩
/-- TIME_CAND_PROOF_LEFT (0x5020:0B), U16, RO: Table 11.9. -/
def timeCandProofLeft (i : Nat) : Obj := ⟨0x50200B + 256 * i, 16, 0, false⟩
/-- TIME_CAND_ASSIST (0x5020:0C), U8, RW: Table 11.9. -/
def timeCandAssist (i : Nat) : Obj := ⟨0x50200C + 256 * i, 8, 0xFF, false⟩
/-- TIME_CAND_DELAY (0x5020:0D), I32, RW: Table 11.9. -/
def timeCandDelay (i : Nat) : Obj := ⟨0x50200D + 256 * i, 32, 0, true⟩
/-- TIME_CAND_FAILS (0x5020:0E), U32, RWC: Table 11.9. -/
def timeCandFails (i : Nat) : Obj := ⟨0x50200E + 256 * i, 32, 0, false⟩
/-- TIME_PTP_LANE (0x5040:01), U8, RW: Table 11.9. -/
def timePtpLane (i : Nat) : Obj := ⟨0x504001 + 256 * i, 8, 0xFF, false⟩
/-- TIME_PTP_ROLE (0x5040:02), ENUM8, RW: Table 11.9. -/
def timePtpRole (i : Nat) : Obj := ⟨0x504002 + 256 * i, 8, 0, false⟩
/-- TIME_PTP_DOMAIN (0x5040:03), U8, RW: Table 11.9. -/
def timePtpDomain (i : Nat) : Obj := ⟨0x504003 + 256 * i, 8, 0x18, false⟩
/-- TIME_PTP_DEST (0x5040:04), ENUM8, RW: Table 11.9. -/
def timePtpDest (i : Nat) : Obj := ⟨0x504004 + 256 * i, 8, 0, false⟩
/-- TIME_PTP_LOCAL_PRIO (0x5040:05), U8, RW: Table 11.9. -/
def timePtpLocalPrio (i : Nat) : Obj := ⟨0x504005 + 256 * i, 8, 0x80, false⟩
/-- TIME_PTP_ASYM (0x5040:06), I32, RW: Table 11.9. -/
def timePtpAsym (i : Nat) : Obj := ⟨0x504006 + 256 * i, 32, 0, true⟩
/-- TIME_PTP_STATE (0x5040:07), ENUM8, RO: Table 11.9. -/
def timePtpState (i : Nat) : Obj := ⟨0x504007 + 256 * i, 8, 3, false⟩
/-- TIME_PTP_CLASS_RX (0x5040:08), U8, RO: Table 11.9. -/
def timePtpClassRx (i : Nat) : Obj := ⟨0x504008 + 256 * i, 8, 0xFF, false⟩
/-- TIME_PTP_MEAN_DELAY (0x5040:09), I64, RO: Table 11.9. -/
def timePtpMeanDelay (i : Nat) : Obj := ⟨0x504009 + 256 * i, 64, 0, true⟩
/-- TIME_PTP_RX_ERRORS (0x5040:0A), U32, RWC: Table 11.9. -/
def timePtpRxErrors (i : Nat) : Obj := ⟨0x50400A + 256 * i, 32, 0, false⟩
/-- TIME_SYNCE_LANE (0x5050:01), U8, RW: Table 11.9. -/
def timeSynceLane (i : Nat) : Obj := ⟨0x505001 + 256 * i, 8, 0xFF, false⟩
/-- TIME_SYNCE_ESMC_TX (0x5050:02), BOOL, RW: Table 11.9. -/
def timeSynceEsmcTx (i : Nat) : Obj := ⟨0x505002 + 256 * i, 1, 1, false⟩
/-- TIME_SYNCE_ENHANCED (0x5050:03), BOOL, RW: Table 11.9. -/
def timeSynceEnhanced (i : Nat) : Obj := ⟨0x505003 + 256 * i, 1, 1, false⟩
/-- TIME_SYNCE_QL_RX (0x5050:04), U8, RO: Table 11.9. -/
def timeSynceQlRx (i : Nat) : Obj := ⟨0x505004 + 256 * i, 8, 0xF, false⟩
/-- TIME_SYNCE_ESMC_ERRORS (0x5050:05), U32, RWC: Table 11.9. -/
def timeSynceEsmcErrors (i : Nat) : Obj := ⟨0x505005 + 256 * i, 32, 0, false⟩
/-- TIME_LT_MODE (0x5060:01), ENUM8, RW: Table 11.9. -/
def timeLtMode (i : Nat) : Obj := ⟨0x506001 + 256 * i, 8, 0, false⟩
/-- TIME_LT_ASYM (0x5060:02), I32, RW: Table 11.9. -/
def timeLtAsym (i : Nat) : Obj := ⟨0x506002 + 256 * i, 32, 0, true⟩
/-- TIME_LT_ASYM_FIXED (0x5060:03), I32, RW: Table 11.9. -/
def timeLtAsymFixed (i : Nat) : Obj := ⟨0x506003 + 256 * i, 32, 0, true⟩
/-- TIME_LT_ASYM_USED (0x5060:04), I32, RO: Table 11.9. -/
def timeLtAsymUsed (i : Nat) : Obj := ⟨0x506004 + 256 * i, 32, 0, true⟩
/-- TIME_LT_OFFSET (0x5060:05), I64, RO: Table 11.9. -/
def timeLtOffset (i : Nat) : Obj := ⟨0x506005 + 256 * i, 64, 0, true⟩
/-- TIME_LT_MEAN_DELAY (0x5060:06), I64, RO: Table 11.9. -/
def timeLtMeanDelay (i : Nat) : Obj := ⟨0x506006 + 256 * i, 64, 0, true⟩
/-- TIME_LT_FAR_CD (0x5060:07), I32, RO: Table 11.9. -/
def timeLtFarCd (i : Nat) : Obj := ⟨0x506007 + 256 * i, 32, 0, true⟩
/-- TIME_LT_FAR_FREQ (0x5060:08), U32, RO: Table 11.9. -/
def timeLtFarFreq (i : Nat) : Obj := ⟨0x506008 + 256 * i, 32, 0, false⟩
/-- TIME_LT_FAR_QL (0x5060:09), U8, RO: Table 11.9. -/
def timeLtFarQl (i : Nat) : Obj := ⟨0x506009 + 256 * i, 8, 0xF, false⟩
/-- TIME_LT_EXCHANGES (0x5060:0A), U32, RWC: Table 11.9. -/
def timeLtExchanges (i : Nat) : Obj := ⟨0x50600A + 256 * i, 32, 0, false⟩
/-- TIME_LT_DISCARDS (0x5060:0B), U32, RWC: Table 11.9. -/
def timeLtDiscards (i : Nat) : Obj := ⟨0x50600B + 256 * i, 32, 0, false⟩
/-- TIME_PPS_OFFSET (0x5070:01), I32, RW: Table 11.9. -/
def timePpsOffset (k : Nat) : Obj := ⟨0x507001 + k, 32, 0, true⟩
/-- TIME_PPS_WIDTH (0x5070:03), U32, RW: Table 11.9. -/
def timePpsWidth (k : Nat) : Obj := ⟨0x507003 + k, 32, 0x3E8, false⟩
/-- TIME_FREQ_OUT (0x5070:05), U32, RW: Table 11.9. -/
def timeFreqOut (k : Nat) : Obj := ⟨0x507005 + k, 32, 0x989680, false⟩
/-- TIME_TOD_ENABLE (0x5070:07), BOOL, RW: Table 11.9. -/
def timeTodEnable : Obj := ⟨0x507007, 1, 0, false⟩
/-- TIME_TOD_BAUD (0x5070:08), U32, RW: Table 11.9. -/
def timeTodBaud : Obj := ⟨0x507008, 32, 0x2580, false⟩
/-- TIME_OUT_STATES (0x5070:09), U8, RW: Table 11.9. -/
def timeOutStates : Obj := ⟨0x507009, 8, 0xC, false⟩
/-- TIME_OUT_DRIVING (0x5070:0A), U8, RO: Table 11.9. -/
def timeOutDriving : Obj := ⟨0x50700A, 8, 0, false⟩
/-- TIME_HO_ENABLE (0x5080:01), BOOL, RW: Table 12.6. -/
def timeHoEnable : Obj := ⟨0x508001, 1, 1, false⟩
/-- TIME_HO_STATE (0x5080:02), ENUM8, RO: Table 12.6. -/
def timeHoState : Obj := ⟨0x508002, 8, 0, false⟩
/-- TIME_HO_THERM_CHAN (0x5080:03), U8, RW: Table 12.6. -/
def timeHoThermChan : Obj := ⟨0x508003, 8, 0xFF, false⟩
/-- TIME_HO_THERM_TABLE (0x5080:04), DOMAIN, RW: Table 12.6. -/
def timeHoThermTable : Obj := ⟨0x508004, 0, 0, false⟩
/-- TIME_HO_TEMP_TAU (0x5080:05), U16, RW: Table 12.6. -/
def timeHoTempTau : Obj := ⟨0x508005, 16, 0x12C, false⟩
/-- TIME_HO_TEMP (0x5080:06), I16, RO: Table 12.6. -/
def timeHoTemp : Obj := ⟨0x508006, 16, 0x8000, true⟩
/-- TIME_HO_ORDER (0x5080:07), U8, RW: Table 12.6. -/
def timeHoOrder : Obj := ⟨0x508007, 8, 3, false⟩
/-- TIME_HO_ANCHOR (0x5080:08), U16, RW: Table 12.6. -/
def timeHoAnchor : Obj := ⟨0x508008, 16, 0xE10, false⟩
/-- TIME_HO_OUTLIER (0x5080:09), U16, RW: Table 12.6. -/
def timeHoOutlier : Obj := ⟨0x508009, 16, 0x64, false⟩
/-- TIME_HO_READY_TOTAL (0x5080:0A), U16, RW: Table 12.6. -/
def timeHoReadyTotal : Obj := ⟨0x50800A, 16, 0x48, false⟩
/-- TIME_HO_READY_BOOT (0x5080:0B), U16, RW: Table 12.6. -/
def timeHoReadyBoot : Obj := ⟨0x50800B, 16, 0x18, false⟩
/-- TIME_HO_LEARN_TIME (0x5080:0C), U32, RO: Table 12.6. -/
def timeHoLearnTime : Obj := ⟨0x50800C, 32, 0, false⟩
/-- TIME_HO_BOOT_TIME (0x5080:0D), U32, RO: Table 12.6. -/
def timeHoBootTime : Obj := ⟨0x50800D, 32, 0, false⟩
/-- TIME_HO_AGE (0x5080:0E), U32, RO: Table 12.6. -/
def timeHoAge : Obj := ⟨0x50800E, 32, 0, false⟩
/-- TIME_HO_PRED (0x5080:0F), I64, RO: Table 12.6. -/
def timeHoPred : Obj := ⟨0x50800F, 64, 0, true⟩
/-- TIME_HO_DRIFT (0x5080:10), I64, RO: Table 12.6. -/
def timeHoDrift : Obj := ⟨0x508010, 64, 0, true⟩
/-- TIME_HO_DRIFT_SE (0x5080:11), U32, RO: Table 12.6. -/
def timeHoDriftSe : Obj := ⟨0x508011, 32, 0, false⟩
/-- TIME_HO_RESID (0x5080:12), U32, RO: Table 12.6. -/
def timeHoResid : Obj := ⟨0x508012, 32, 0, false⟩
/-- TIME_HO_EXPECT (0x5080:13), U32, RO: Table 12.6. -/
def timeHoExpect : Obj := ⟨0x508013, 32, 0xFFFFFFFF, false⟩
/-- TIME_HO_SPEC (0x5080:14), U16, RW: Table 12.6. -/
def timeHoSpec : Obj := ⟨0x508014, 16, 0x44C, false⟩
/-- TIME_HO_SPEC_TIME (0x5080:15), U32, RW: Table 12.6. -/
def timeHoSpecTime : Obj := ⟨0x508015, 32, 0x15180, false⟩
/-- TIME_HO_MAX (0x5080:16), U32, RW: Table 12.6. -/
def timeHoMax : Obj := ⟨0x508016, 32, 0x93A80, false⟩
/-- TIME_HO_INSPEC (0x5080:17), BOOL, RO: Table 12.6. -/
def timeHoInspec : Obj := ⟨0x508017, 1, 0, false⟩
/-- TIME_HO_FAULTS (0x5080:18), U8, RO: Table 12.6. -/
def timeHoFaults : Obj := ⟨0x508018, 8, 0, false⟩
/-- TIME_HO_ENTRIES (0x5080:19), U32, RWC: Table 12.6. -/
def timeHoEntries : Obj := ⟨0x508019, 32, 0, false⟩
/-- TIME_HO_OUTLIERS (0x5080:1A), U32, RWC: Table 12.6. -/
def timeHoOutliers : Obj := ⟨0x50801A, 32, 0, false⟩
/-- TIME_HO_SHARED_OSC (0x5080:1B), BOOL, RW: Table 12.6. -/
def timeHoSharedOsc : Obj := ⟨0x50801B, 1, 0, false⟩
/-- TIME_HO_CLEAR (0x5080:1C), BOOL, WO: Table 12.6. -/
def timeHoClear : Obj := ⟨0x50801C, 1, 0, false⟩
/-- TIME_HO_HISTORY (0x5082:01), DOMAIN, RO: Table 12.6. -/
def timeHoHistory : Obj := ⟨0x508201, 0, 0, false⟩
/-- TIME_HO_IMPORT (0x5082:02), DOMAIN, WO: Table 12.6. -/
def timeHoImport : Obj := ⟨0x508202, 0, 0, false⟩
/-- TIME_HO_TWIN_MODEL (0x5082:03), DOMAIN, RO: Table 12.6. -/
def timeHoTwinModel : Obj := ⟨0x508203, 0, 0, false⟩
/-- SCHED_CAPACITY (0x5800:01), U16, RO: Table 2.5. -/
def schedCapacity : Obj := ⟨0x580001, 16, 0x1000, false⟩
/-- SCHED_PENDING (0x5800:02), U16, RO: Table 2.5. -/
def schedPending : Obj := ⟨0x580002, 16, 0, false⟩
/-- SCHED_HOST_LIMIT (0x5800:03), U16, RO: Table 2.5. -/
def schedHostLimit : Obj := ⟨0x580003, 16, 0xF00, false⟩
/-- SCHED_LATE_POLICY (0x5800:04), ENUM8, RW: Table 2.5. -/
def schedLatePolicy : Obj := ⟨0x580004, 8, 0, false⟩
/-- SCHED_MAX_AHEAD (0x5800:05), U32, RW: Table 2.5. -/
def schedMaxAhead : Obj := ⟨0x580005, 32, 0x1E13380, false⟩
/-- SCHED_TIME_STATE (0x5800:06), ENUM8, RO: Table 2.5. -/
def schedTimeState : Obj := ⟨0x580006, 8, 0, false⟩
/-- SCHED_TIME_STEP (0x5800:07), TIME96, WO: Table 2.5. -/
def schedTimeStep : Obj := ⟨0x580007, 96, 0, false⟩
/-- SCHED_LIST (0x5801:01), DOMAIN, RO: Table 2.5. -/
def schedList : Obj := ⟨0x580101, 0, 0, false⟩
/-- SCHED_CANCEL (0x5801:02), U32, WO: Table 2.5. -/
def schedCancel : Obj := ⟨0x580102, 32, 0, false⟩
/-- SCHED_LAST_SEQ (0x5802:01), U64, RO: Table 2.5. -/
def schedLastSeq : Obj := ⟨0x580201, 64, 0, false⟩
/-- SCHED_BOOT_COUNT (0x5802:02), U32, RO: Table 2.5. -/
def schedBootCount : Obj := ⟨0x580202, 32, 0, false⟩
/-- SCHED_STALE_COUNT (0x5802:03), U64, RWC: Table 2.5. -/
def schedStaleCount : Obj := ⟨0x580203, 64, 0, false⟩
/-- SCHED_LATE_COUNT (0x5802:04), U32, RWC: Table 2.5. -/
def schedLateCount : Obj := ⟨0x580204, 32, 0, false⟩
/-- SCHED_REFUSED_COUNT (0x5802:05), U32, RWC: Table 2.5. -/
def schedRefusedCount : Obj := ⟨0x580205, 32, 0, false⟩
/-- SCHED_FAILED_COUNT (0x5802:06), U32, RWC: Table 2.5. -/
def schedFailedCount : Obj := ⟨0x580206, 32, 0, false⟩
/-- SCHED_DEVICE_WAITS (0x5802:07), U32, RWC: Table 2.5. -/
def schedDeviceWaits : Obj := ⟨0x580207, 32, 0, false⟩
/-- SEC_CG_NEXT (0x6000:01), DOMAIN, RW: Table 13.7. -/
def secCgNext : Obj := ⟨0x600001, 0, 0, false⟩
/-- SEC_CG_APPLY (0x6000:02), U16, RWS: Table 13.7. -/
def secCgApply : Obj := ⟨0x600002, 16, 0, false⟩
/-- SEC_CG_ACTIVE (0x6000:03), DOMAIN, RO: Table 13.7. -/
def secCgActive : Obj := ⟨0x600003, 0, 0, false⟩
/-- SEC_CG_GEN (0x6000:04), U16, RO: Table 13.7. -/
def secCgGen : Obj := ⟨0x600004, 16, 0, false⟩
/-- SEC_END (0x6000:05), BOOL, RW: Table 13.7. -/
def secEnd (k : Nat) : Obj := ⟨0x600005 + k, 1, 0, false⟩
/-- SEC_GUARD (0x6000:07), U64, RW: Table 13.7. -/
def secGuard : Obj := ⟨0x600007, 64, 0x100000000000, false⟩
/-- SEC_GUARD_MARGIN (0x6000:08), U64, RW: Table 13.7. -/
def secGuardMargin : Obj := ⟨0x600008, 64, 0x1000000000, false⟩
/-- SEC_RETIRE_HOLD (0x6000:09), U16, RW: Table 13.7. -/
def secRetireHold : Obj := ⟨0x600009, 16, 0x3C, false⟩
/-- SEC_OVER_SLOTS (0x6000:0A), U32, RO: Table 13.7. -/
def secOverSlots : Obj := ⟨0x60000A, 32, 0, false⟩
/-- SEC_KEY_SELECT (0x6002:01), U8, RW: Table 13.7. -/
def secKeySelect : Obj := ⟨0x600201, 8, 0, false⟩
/-- SEC_KEY_WRITE (0x6002:02), BYTES(33), WO: Table 13.7. -/
def secKeyWrite : Obj := ⟨0x600202, 264, 0, false⟩
/-- SEC_ROLL (0x6002:03), U8, RWS: Table 13.7. -/
def secRoll : Obj := ⟨0x600203, 8, 0, false⟩
/-- SEC_ERASE (0x6002:04), U8, WO: Table 13.7. -/
def secErase : Obj := ⟨0x600204, 8, 0, false⟩
/-- SEC_PAIR_STATUS (0x6002:05), BYTES(16), RO: Table 13.7. -/
def secPairStatus : Obj := ⟨0x600205, 128, 0, false⟩
/-- SEC_PAIR_SHARED (0x6002:06), BOOL, RW: Table 13.7. -/
def secPairShared : Obj := ⟨0x600206, 1, 0, false⟩
/-- SEC_CG_STATE (0x6004:01), ENUM8, RO: Table 13.7. -/
def secCgState (k : Nat) : Obj := ⟨0x600401 + k, 8, 0, false⟩
/-- SEC_AUTH_FAILS (0x6006:01), U64, RWC: Table 13.7. -/
def secAuthFails : Obj := ⟨0x600601, 64, 0, false⟩
/-- SEC_REPLAYS (0x6006:02), U64, RWC: Table 13.7. -/
def secReplays : Obj := ⟨0x600602, 64, 0, false⟩
/-- SEC_DUAL_MISMATCH (0x6006:03), U64, RWC: Table 13.7. -/
def secDualMismatch : Obj := ⟨0x600603, 64, 0, false⟩
/-- SEC_NO_KEY_SEGS (0x6006:04), U64, RWC: Table 13.7. -/
def secNoKeySegs : Obj := ⟨0x600604, 64, 0, false⟩
/-- SEC_GUARD_STOPS (0x6006:05), U32, RWC: Table 13.7. -/
def secGuardStops : Obj := ⟨0x600605, 32, 0, false⟩
/-- SEC_SENSOR_CLASS (0x6008:01), U16, RW: Table 13.7. -/
def secSensorClass : Obj := ⟨0x600801, 16, 0x5695, false⟩
/-- SEC_CLASS_LOCK (0x6008:02), BOOL, RW: Table 13.7. -/
def secClassLock : Obj := ⟨0x600802, 1, 0, false⟩
/-- SEC_SENSORS (0x6008:03), U8, RO: Table 13.7. -/
def secSensors : Obj := ⟨0x600803, 8, 0, false⟩
/-- SEC_ALARM (0x6008:04), U8, RO: Table 13.7. -/
def secAlarm : Obj := ⟨0x600804, 8, 0, false⟩
/-- SEC_ALARM_CLEAR (0x6008:05), BOOL, WO: Table 13.7. -/
def secAlarmClear : Obj := ⟨0x600805, 1, 0, false⟩
/-- SEC_ERASES (0x6008:06), U32, RO: Table 13.7. -/
def secErases : Obj := ⟨0x600806, 32, 0, false⟩
/-- SEC_FAULT_LIMIT (0x6008:07), U16, RW: Table 13.7. -/
def secFaultLimit : Obj := ⟨0x600807, 16, 0x10, false⟩
/-- SEC_LAST_ERASE (0x6008:08), TIME96, RO: Table 13.7. -/
def secLastErase : Obj := ⟨0x600808, 96, 0, false⟩
/-- TWIN_ENABLE (0x7000:01), BOOL, RW: Table 14.6. -/
def twinEnable : Obj := ⟨0x700001, 1, 0, false⟩
/-- TWIN_UNIT (0x7000:02), U8, RO: Table 14.6. -/
def twinUnit : Obj := ⟨0x700002, 8, 0, false⟩
/-- TWIN_STATE (0x7000:03), ENUM8, RO: Table 14.6. -/
def twinState : Obj := ⟨0x700003, 8, 0, false⟩
/-- TWIN_ROLE (0x7000:04), ENUM8, RO: Table 14.6. -/
def twinRole : Obj := ⟨0x700004, 8, 0, false⟩
/-- TWIN_PAIR_ID (0x7000:05), U32, RW: Table 14.6. -/
def twinPairId : Obj := ⟨0x700005, 32, 0, false⟩
/-- TWIN_HOST_CLASS (0x7000:06), U8, RW: Table 14.6. -/
def twinHostClass : Obj := ⟨0x700006, 8, 0, false⟩
/-- TWIN_HEALTH (0x7000:07), U8, RO: Table 14.6. -/
def twinHealth : Obj := ⟨0x700007, 8, 0xF, false⟩
/-- TWIN_HEALTH_HOLD (0x7000:08), U16, RW: Table 14.6. -/
def twinHealthHold : Obj := ⟨0x700008, 16, 0x3E8, false⟩
/-- TWIN_CLAIM_SENT (0x7000:09), U16, RO: Table 14.6. -/
def twinClaimSent : Obj := ⟨0x700009, 16, 0xFFFF, false⟩
/-- TWIN_CLAIM_BUS (0x7000:0A), U16, RO: Table 14.6. -/
def twinClaimBus : Obj := ⟨0x70000A, 16, 0xFFFF, false⟩
/-- TWIN_BUS_STATE (0x7000:0B), ENUM8, RO: Table 14.6. -/
def twinBusState : Obj := ⟨0x70000B, 8, 0, false⟩
/-- TWIN_MATE_STATE (0x7000:0C), ENUM8, RO: Table 14.6. -/
def twinMateState : Obj := ⟨0x70000C, 8, 0, false⟩
/-- TWIN_SWITCHOVERS (0x7000:0D), U32, RWC: Table 14.6. -/
def twinSwitchovers : Obj := ⟨0x70000D, 32, 0, false⟩
/-- TWIN_OUT_MISSED (0x7000:0E), U32, RWC: Table 14.6. -/
def twinOutMissed : Obj := ⟨0x70000E, 32, 0, false⟩
/-- TWIN_MIRROR_STATE (0x7002:01), ENUM8, RO: Table 14.6. -/
def twinMirrorState : Obj := ⟨0x700201, 8, 0, false⟩
/-- TWIN_EPOCH (0x7002:02), U64, RO: Table 14.6. -/
def twinEpoch : Obj := ⟨0x700202, 64, 0, false⟩
/-- TWIN_EPOCH_PERIOD (0x7002:03), U16, RW: Table 14.6. -/
def twinEpochPeriod : Obj := ⟨0x700203, 16, 0xA, false⟩
/-- TWIN_ACK_LIMIT (0x7002:04), U16, RW: Table 14.6. -/
def twinAckLimit : Obj := ⟨0x700204, 16, 5, false⟩
/-- TWIN_BASELINE_LEFT (0x7002:05), U64, RO: Table 14.6. -/
def twinBaselineLeft : Obj := ⟨0x700205, 64, 0, false⟩
/-- TWIN_LOCAL_LIST (0x7002:06), DOMAIN, RW: Table 14.6. -/
def twinLocalList : Obj := ⟨0x700206, 0, 0, false⟩
/-- TWIN_MIRROR_VERSION (0x7002:07), U16, RO: Table 14.6. -/
def twinMirrorVersion : Obj := ⟨0x700207, 16, 0, false⟩
/-- TWIN_EPOCHS_FAILED (0x7002:08), U32, RWC: Table 14.6. -/
def twinEpochsFailed : Obj := ⟨0x700208, 32, 0, false⟩
/-- TWIN_EPOCHS_DROPPED (0x7002:09), U32, RWC: Table 14.6. -/
def twinEpochsDropped : Obj := ⟨0x700209, 32, 0, false⟩
/-- TWIN_COMMIT_LATENCY (0x7002:0A), U32, RO: Table 14.6. -/
def twinCommitLatency : Obj := ⟨0x70020A, 32, 0, false⟩
/-- TWIN_TIME_DIFF (0x7004:01), I32, RO: Table 14.6. -/
def twinTimeDiff : Obj := ⟨0x700401, 32, 0, true⟩
/-- TWIN_ALIGN_WIN (0x7004:02), U16, RW: Table 14.6. -/
def twinAlignWin : Obj := ⟨0x700402, 16, 0x64, false⟩
/-- TWIN_MATE_ASYM (0x7004:03), I32, RW: Table 14.6. -/
def twinMateAsym : Obj := ⟨0x700403, 32, 0, true⟩
/-- TWIN_CORE_DISSENTS (0x7006:01), U32, RWC: Table 14.6. -/
def twinCoreDissents (k : Nat) : Obj := ⟨0x700601 + k, 32, 0, false⟩
/-- TWIN_CORE_STATE (0x7006:04), U8, RO: Table 14.6. -/
def twinCoreState : Obj := ⟨0x700604, 8, 7, false⟩
/-- TWIN_CORE_LIMIT (0x7006:05), U8, RW: Table 14.6. -/
def twinCoreLimit : Obj := ⟨0x700605, 8, 4, false⟩
/-- TWIN_CORE_RETRY (0x7006:06), BOOL, WO: Table 14.6. -/
def twinCoreRetry : Obj := ⟨0x700606, 1, 0, false⟩
/-- TWIN_RESYNCS (0x7006:07), U32, RWC: Table 14.6. -/
def twinResyncs : Obj := ⟨0x700607, 32, 0, false⟩
/-- TWIN_CTRL_RESTARTS (0x7006:08), U32, RWC: Table 14.6. -/
def twinCtrlRestarts : Obj := ⟨0x700608, 32, 0, false⟩
/-- TWIN_GAP_MAX (0x7006:09), U16, RWC: Table 14.6. -/
def twinGapMax : Obj := ⟨0x700609, 16, 0, false⟩
/-- MON_REF_ENABLE (0x8000:01), BOOL, RW: Table 16.8. -/
def monRefEnable : Obj := ⟨0x800001, 1, 1, false⟩
/-- MON_REF_STATE (0x8000:02), ENUM8, RO: Table 16.8. -/
def monRefState : Obj := ⟨0x800002, 8, 0, false⟩
/-- MON_YIELD (0x8000:03), U16, RW: Table 16.8. -/
def monYield : Obj := ⟨0x800003, 16, 2, false⟩
/-- MON_CAL_START (0x8000:04), BOOL, WO: Table 16.8. -/
def monCalStart : Obj := ⟨0x800004, 1, 0, false⟩
/-- MON_CAL_STATE (0x8000:05), ENUM8, RO: Table 16.8. -/
def monCalState : Obj := ⟨0x800005, 8, 0, false⟩
/-- MON_CAL_OFFSET (0x8000:06), I32, RO: Table 16.8. -/
def monCalOffset : Obj := ⟨0x800006, 32, 0, true⟩
/-- MON_CAL_GAIN (0x8000:07), I32, RO: Table 16.8. -/
def monCalGain : Obj := ⟨0x800007, 32, 0, true⟩
/-- MON_CAL_LAST (0x8000:08), TIME96, RO: Table 16.8. -/
def monCalLast : Obj := ⟨0x800008, 96, 0, false⟩
/-- MON_CAL_RUNS (0x8000:09), U32, RWC: Table 16.8. -/
def monCalRuns : Obj := ⟨0x800009, 32, 0, false⟩
/-- MON_OVR_COUNT (0x8000:0A), U32, RWC: Table 16.8. -/
def monOvrCount : Obj := ⟨0x80000A, 32, 0, false⟩
/-- MON_CH_OWNER (0x8001:01), U16, RO: Table 16.8. -/
def monChOwner (k : Nat) : Obj := ⟨0x800101 + k, 16, 0, false⟩
/-- MON_CH_LAST (0x8002:01), BYTES(16), RO: Table 16.8. -/
def monChLast (k : Nat) : Obj := ⟨0x800201 + k, 128, 0, false⟩
/-- MON_SEQ_STEPS (0x8010:01), DOMAIN, RW: Table 16.8. -/
def monSeqSteps (i : Nat) : Obj := ⟨0x801001 + 256 * i, 0, 0, false⟩
/-- MON_SEQ_PERIOD (0x8010:02), U32, RW: Table 16.8. -/
def monSeqPeriod (i : Nat) : Obj := ⟨0x801002 + 256 * i, 32, 0, false⟩
/-- MON_SEQ_RUN (0x8010:03), U8, RWS: Table 16.8. -/
def monSeqRun (i : Nat) : Obj := ⟨0x801003 + 256 * i, 8, 0, false⟩
/-- MON_SEQ_STATE (0x8010:04), ENUM8, RO: Table 16.8. -/
def monSeqState (i : Nat) : Obj := ⟨0x801004 + 256 * i, 8, 0, false⟩
/-- MON_SEQ_RESULTS (0x8010:05), DOMAIN, RO: Table 16.8. -/
def monSeqResults (i : Nat) : Obj := ⟨0x801005 + 256 * i, 0, 0, false⟩
/-- MON_SEQ_PASSES (0x8010:06), U32, RWC: Table 16.8. -/
def monSeqPasses (i : Nat) : Obj := ⟨0x801006 + 256 * i, 32, 0, false⟩
/-- MON_SEQ_LATE (0x8010:07), U32, RWC: Table 16.8. -/
def monSeqLate (i : Nat) : Obj := ⟨0x801007 + 256 * i, 32, 0, false⟩
/-- CAL_RX_ENABLE (0x8040:01), BOOL, RW: Table 16.8. -/
def calRxEnable (i : Nat) : Obj := ⟨0x804001 + 256 * i, 1, 1, false⟩
/-- CAL_TX_ENABLE (0x8040:02), BOOL, RW: Table 16.8. -/
def calTxEnable (i : Nat) : Obj := ⟨0x804002 + 256 * i, 1, 0, false⟩
/-- CAL_RUN (0x8040:03), BOOL, WO: Table 16.8. -/
def calRun (i : Nat) : Obj := ⟨0x804003 + 256 * i, 1, 0, false⟩
/-- CAL_STATE (0x8040:04), ENUM8, RO: Table 16.8. -/
def calState (i : Nat) : Obj := ⟨0x804004 + 256 * i, 8, 0, false⟩
/-- CAL_TEMP_LAST (0x8040:05), I16, RO: Table 16.8. -/
def calTempLast (i : Nat) : Obj := ⟨0x804005 + 256 * i, 16, 0x8000, true⟩
/-- CAL_RUNS (0x8040:06), U32, RWC: Table 16.8. -/
def calRuns (i : Nat) : Obj := ⟨0x804006 + 256 * i, 32, 0, false⟩
/-- CAL_LAST (0x8040:07), TIME96, RO: Table 16.8. -/
def calLast (i : Nat) : Obj := ⟨0x804007 + 256 * i, 96, 0, false⟩
/-- CAL_TX_REPORT (0x8040:08), I16, RO: Table 16.8. -/
def calTxReport (i : Nat) (k : Nat) : Obj := ⟨0x804008 + 256 * i + k, 16, 0, true⟩
/-- CAL_TX_ITER (0x8040:10), U8, RO: Table 16.8. -/
def calTxIter (i : Nat) : Obj := ⟨0x804010 + 256 * i, 8, 0, false⟩
/-- CAL_TEMP_STEP (0x8050:01), U16, RW: Table 16.8. -/
def calTempStep : Obj := ⟨0x805001, 16, 0x28, false⟩
/-- CAL_DIE_TEMP (0x8050:02), I16, RO: Table 16.8. -/
def calDieTemp : Obj := ⟨0x805002, 16, 0x8000, true⟩
/-- CAL_RAMP_MS (0x8050:03), U16, RW: Table 16.8. -/
def calRampMs : Obj := ⟨0x805003, 16, 1, false⟩
/-- CAL_TX_DEADBAND (0x8050:04), U8, RW: Table 16.8. -/
def calTxDeadband : Obj := ⟨0x805004, 8, 2, false⟩
/-- CAL_TX_SETTLE (0x8050:05), U16, RW: Table 16.8. -/
def calTxSettle : Obj := ⟨0x805005, 16, 0x64, false⟩
/-- CAL_TIME_TRIM (0x8050:06), DOMAIN, RO: Table 16.8. -/
def calTimeTrim : Obj := ⟨0x805006, 0, 0, false⟩
/-- CAL_TIME_APPLIED (0x8050:07), TIME96, RO: Table 16.8. -/
def calTimeApplied : Obj := ⟨0x805007, 96, 0, false⟩
/-- CAL_SET (0x8050:08), DOMAIN, RW: Table 16.8. -/
def calSet : Obj := ⟨0x805008, 0, 0, false⟩
/-- CAL_SET_STATE (0x8050:09), ENUM8, RO: Table 16.8. -/
def calSetState : Obj := ⟨0x805009, 8, 0, false⟩
/-- CAL_SET_GEN (0x8050:0A), U32, RO: Table 16.8. -/
def calSetGen : Obj := ⟨0x80500A, 32, 0, false⟩
/-- TEL_RING_WRITE (0x9000:01), U64, RO: Table 19.6. -/
def telRingWrite : Obj := ⟨0x900001, 64, 0, false⟩
/-- TEL_RING_OLDEST (0x9000:02), U64, RO: Table 19.6. -/
def telRingOldest : Obj := ⟨0x900002, 64, 0, false⟩
/-- TEL_RING_FROM (0x9000:03), U64, RW: Table 19.6. -/
def telRingFrom : Obj := ⟨0x900003, 64, 0, false⟩
/-- TEL_RING_DATA (0x9000:04), DOMAIN, RO: Table 19.6. -/
def telRingData : Obj := ⟨0x900004, 0, 0, false⟩
/-- TEL_RING_DROPS (0x9000:05), U64, RWC: Table 19.6. -/
def telRingDrops : Obj := ⟨0x900005, 64, 0, false⟩
/-- TEL_LATCHABLE (0x9000:06), DOMAIN, RO: Table 19.6. -/
def telLatchable : Obj := ⟨0x900006, 0, 0, false⟩
/-- TEL_EVENT_LIST (0x9000:07), DOMAIN, RO: Table 19.6. -/
def telEventList : Obj := ⟨0x900007, 0, 0, false⟩
/-- TEL_CYCLES (0x9100:01), U64, RO: Table 19.6. -/
def telCycles (i : Nat) : Obj := ⟨0x910001 + 256 * i, 64, 0, false⟩
/-- TEL_CNT_CTRL (0x9100:02), U32, RW: Table 19.6. -/
def telCntCtrl (i : Nat) (k : Nat) : Obj := ⟨0x910002 + 256 * i + k, 32, 0xFFFF, false⟩
/-- TEL_CNT (0x9100:0A), U64, RWC: Table 19.6. -/
def telCnt (i : Nat) (k : Nat) : Obj := ⟨0x91000A + 256 * i + k, 64, 0, false⟩
/-- TEL_GRP_MEMBERS (0x9200:01), DOMAIN, RW: Table 19.6. -/
def telGrpMembers (i : Nat) : Obj := ⟨0x920001 + 256 * i, 0, 0, false⟩
/-- TEL_GRP_DEST (0x9200:02), ENUM8, RW: Table 19.6. -/
def telGrpDest (i : Nat) : Obj := ⟨0x920002 + 256 * i, 8, 0, false⟩
/-- TEL_GRP_PERIOD (0x9200:03), U32, RW: Table 19.6. -/
def telGrpPeriod (i : Nat) : Obj := ⟨0x920003 + 256 * i, 32, 0, false⟩
/-- TEL_GRP_DUMP (0x9200:04), U8, RWS: Table 19.6. -/
def telGrpDump (i : Nat) : Obj := ⟨0x920004 + 256 * i, 8, 0, false⟩
/-- TEL_GRP_RECORD (0x9200:05), DOMAIN, RO: Table 19.6. -/
def telGrpRecord (i : Nat) : Obj := ⟨0x920005 + 256 * i, 0, 0, false⟩
/-- TEL_GRP_SKIPS (0x9200:06), U32, RWC: Table 19.6. -/
def telGrpSkips (i : Nat) : Obj := ⟨0x920006 + 256 * i, 32, 0, false⟩
/-- TEL_GRP_DUMPS (0x9200:07), U32, RWC: Table 19.6. -/
def telGrpDumps (i : Nat) : Obj := ⟨0x920007 + 256 * i, 32, 0, false⟩
/-- TEL_SWEEP_START (0x9300:01), U8, RWS: Table 19.6. -/
def telSweepStart (i : Nat) : Obj := ⟨0x930001 + 256 * i, 8, 0, false⟩
/-- TEL_SWEEP_PERIOD (0x9300:02), U32, RW: Table 19.6. -/
def telSweepPeriod (i : Nat) : Obj := ⟨0x930002 + 256 * i, 32, 0, false⟩
/-- TEL_SWEEP_RATE (0x9300:03), U32, RW: Table 19.6. -/
def telSweepRate (i : Nat) : Obj := ⟨0x930003 + 256 * i, 32, 0xF4240, false⟩
/-- TEL_SWEEP_CLEAR (0x9300:04), BOOL, RW: Table 19.6. -/
def telSweepClear (i : Nat) : Obj := ⟨0x930004 + 256 * i, 1, 0, false⟩
/-- TEL_SWEEP_STATE (0x9300:05), ENUM8, RO: Table 19.6. -/
def telSweepState (i : Nat) : Obj := ⟨0x930005 + 256 * i, 8, 0, false⟩
/-- TEL_SWEEP_LAST_START (0x9300:06), TIME96, RO: Table 19.6. -/
def telSweepLastStart (i : Nat) : Obj := ⟨0x930006 + 256 * i, 96, 0, false⟩
/-- TEL_SWEEP_LAST_END (0x9300:07), TIME96, RO: Table 19.6. -/
def telSweepLastEnd (i : Nat) : Obj := ⟨0x930007 + 256 * i, 96, 0, false⟩
/-- TEL_SWEEP_LATE (0x9300:08), U32, RWC: Table 19.6. -/
def telSweepLate (i : Nat) : Obj := ⟨0x930008 + 256 * i, 32, 0, false⟩
/-- TEL_BW_WINDOW (0x9400:01), U32, RW: Table 19.6. -/
def telBwWindow : Obj := ⟨0x940001, 32, 0x3E8, false⟩
/-- TEL_BW_END (0x9400:02), TIME96, RO: Table 19.6. -/
def telBwEnd : Obj := ⟨0x940002, 96, 0, false⟩
/-- TEL_BW_FLAGS (0x9400:03), U8, RO: Table 19.6. -/
def telBwFlags : Obj := ⟨0x940003, 8, 0, false⟩
/-- TEL_BW_IN (0x9401:01), U64, RO: Table 19.6. -/
def telBwIn (k : Nat) : Obj := ⟨0x940101 + k, 64, 0, false⟩
/-- TEL_BW_OUT (0x9402:01), U64, RO: Table 19.6. -/
def telBwOut (k : Nat) : Obj := ⟨0x940201 + k, 64, 0, false⟩
/-- TEL_BW_PEAK_IN (0x9403:01), U64, RWC: Table 19.6. -/
def telBwPeakIn (k : Nat) : Obj := ⟨0x940301 + k, 64, 0, false⟩
/-- TEL_BW_PEAK_OUT (0x9404:01), U64, RWC: Table 19.6. -/
def telBwPeakOut (k : Nat) : Obj := ⟨0x940401 + k, 64, 0, false⟩
/-- LANE_PORT_TYPE (0xA000:01), U8, RW: Table 15.6. -/
def lanePortType (k : Nat) : Obj := ⟨0xA00001 + k, 8, 0, false⟩
/-- LANE_PORT_ENABLE (0xA001:01), U8, RWS: Table 15.6. -/
def lanePortEnable (k : Nat) : Obj := ⟨0xA00101 + k, 8, 0, false⟩
/-- LANE_PORT_GROUP (0xA002:01), U16, RW: Table 15.6. -/
def lanePortGroup (k : Nat) : Obj := ⟨0xA00201 + k, 16, 0, false⟩
/-- LANE_PORT_FEC (0xA003:01), ENUM8, RW: Table 15.6. -/
def lanePortFec (k : Nat) : Obj := ⟨0xA00301 + k, 8, 0, false⟩
/-- LANE_PORT_STATE (0xA004:01), ENUM8, RO: Table 15.6. -/
def lanePortState (k : Nat) : Obj := ⟨0xA00401 + k, 8, 0, false⟩
/-- LANE_PORT_SLOTS (0xA005:01), U32, RO: Table 15.6. -/
def lanePortSlots (k : Nat) : Obj := ⟨0xA00501 + k, 32, 0, false⟩
/-- LANE_PORT_FAULTS (0xA006:01), U8, RO: Table 15.6. -/
def lanePortFaults (k : Nat) : Obj := ⟨0xA00601 + k, 8, 0, false⟩
/-- LANE_PORT_IDLE_INS (0xA007:01), U64, RWC: Table 15.6. -/
def lanePortIdleIns (k : Nat) : Obj := ⟨0xA00701 + k, 64, 0, false⟩
/-- LANE_PORT_IDLE_DEL (0xA008:01), U64, RWC: Table 15.6. -/
def lanePortIdleDel (k : Nat) : Obj := ⟨0xA00801 + k, 64, 0, false⟩
/-- LANE_PORT_FEC_CORR (0xA009:01), U64, RWC: Table 15.6. -/
def lanePortFecCorr (k : Nat) : Obj := ⟨0xA00901 + k, 64, 0, false⟩
/-- LANE_PORT_FEC_UNCORR (0xA00A:01), U64, RWC: Table 15.6. -/
def lanePortFecUncorr (k : Nat) : Obj := ⟨0xA00A01 + k, 64, 0, false⟩
/-- LANE_RX_STATE (0xA010:01), ENUM8, RO: Table 15.6. -/
def laneRxState (k : Nat) : Obj := ⟨0xA01001 + k, 8, 0, false⟩
/-- LANE_TX_STATE (0xA011:01), ENUM8, RO: Table 15.6. -/
def laneTxState (k : Nat) : Obj := ⟨0xA01101 + k, 8, 0, false⟩
/-- LANE_POWER (0xA012:01), U8, RO: Table 15.6. -/
def lanePower (k : Nat) : Obj := ⟨0xA01201 + k, 8, 0x33, false⟩
/-- LANE_TRAIN (0xA013:01), ENUM8, RW: Table 15.6. -/
def laneTrain (k : Nat) : Obj := ⟨0xA01301 + k, 8, 0, false⟩
/-- LANE_TX_FIR (0xA014:01), BYTES(4), RW: Table 15.6. -/
def laneTxFir (k : Nat) : Obj := ⟨0xA01401 + k, 32, 0x3C04, false⟩
/-- LANE_RX_SNR (0xA015:01), U16, RO: Table 15.6. -/
def laneRxSnr (k : Nat) : Obj := ⟨0xA01501 + k, 16, 0xFFFF, false⟩
/-- LANE_LOCK_LOSSES (0xA016:01), U32, RWC: Table 15.6. -/
def laneLockLosses (k : Nat) : Obj := ⟨0xA01601 + k, 32, 0, false⟩
/-- LANE_POLARITY (0xA017:01), U8, RW: Table 15.6. -/
def lanePolarity (k : Nat) : Obj := ⟨0xA01701 + k, 8, 0, false⟩
/-- LANE_MATE_ENABLE (0xA040:01), U8, RW: Table 15.6. -/
def laneMateEnable : Obj := ⟨0xA04001, 8, 0xFF, false⟩
/-- LANE_MATE_CLOCK (0xA040:02), ENUM8, RW: Table 15.6. -/
def laneMateClock : Obj := ⟨0xA04002, 8, 0, false⟩
/-- LANE_MATE_CTRL (0xA040:03), U16, RW: Table 15.6. -/
def laneMateCtrl : Obj := ⟨0xA04003, 16, 0x400, false⟩
/-- LANE_MATE_STATE (0xA040:04), ENUM8, RO: Table 15.6. -/
def laneMateState : Obj := ⟨0xA04004, 8, 0, false⟩
/-- LANE_MATE_RX_LANES (0xA040:05), U8, RO: Table 15.6. -/
def laneMateRxLanes : Obj := ⟨0xA04005, 8, 0, false⟩
/-- LANE_MATE_TX_LANES (0xA040:06), U8, RO: Table 15.6. -/
def laneMateTxLanes : Obj := ⟨0xA04006, 8, 0, false⟩
/-- LANE_MATE_SLOTS (0xA040:07), U32, RO: Table 15.6. -/
def laneMateSlots : Obj := ⟨0xA04007, 32, 0, false⟩
/-- LANE_MATE_WIDTH_CHANGES (0xA040:08), U32, RWC: Table 15.6. -/
def laneMateWidthChanges : Obj := ⟨0xA04008, 32, 0, false⟩
/-- LANE_MATE_CW_CORR (0xA040:09), U64, RWC: Table 15.6. -/
def laneMateCwCorr : Obj := ⟨0xA04009, 64, 0, false⟩
/-- LANE_MATE_CW_UNCORR (0xA040:0A), U64, RWC: Table 15.6. -/
def laneMateCwUncorr : Obj := ⟨0xA0400A, 64, 0, false⟩
/-- LANE_MATE_SKEW (0xA040:0B), I32, RO: Table 15.6. -/
def laneMateSkew : Obj := ⟨0xA0400B, 32, 0, true⟩
/-- LANE_MATE_DEGRADE (0xA040:0C), U16, RW: Table 15.6. -/
def laneMateDegrade : Obj := ⟨0xA0400C, 16, 0x10, false⟩
/-- LANE_MATE_MISWIRE (0xA040:0D), U32, RWC: Table 15.6. -/
def laneMateMiswire : Obj := ⟨0xA0400D, 32, 0, false⟩
/-- LANE_FLEXE_NEXT (0xA060:01), DOMAIN, RW: Table 15.6. -/
def laneFlexeNext : Obj := ⟨0xA06001, 0, 0, false⟩
/-- LANE_FLEXE_APPLY (0xA060:02), U16, RWS: Table 15.6. -/
def laneFlexeApply : Obj := ⟨0xA06002, 16, 0, false⟩
/-- LANE_FLEXE_ACTIVE (0xA060:03), DOMAIN, RO: Table 15.6. -/
def laneFlexeActive : Obj := ⟨0xA06003, 0, 0, false⟩
/-- LANE_FLEXE_REJOIN (0xA060:04), U16, RW: Table 15.6. -/
def laneFlexeRejoin : Obj := ⟨0xA06004, 16, 0xA, false⟩
/-- LANE_FLEXE_REMOVED (0xA060:05), U32, RO: Table 15.6. -/
def laneFlexeRemoved : Obj := ⟨0xA06005, 32, 0, false⟩
/-- PWR_RESET_CAUSE (0xB000:01), ENUM8, RO: Table 20.6. -/
def pwrResetCause : Obj := ⟨0xB00001, 8, 0, false⟩
/-- PWR_BRINGUP (0xB000:02), U8, RO: Table 20.6. -/
def pwrBringup : Obj := ⟨0xB00002, 8, 0, false⟩
/-- PWR_MARGIN (0xB000:03), U32, RW: Table 20.6. -/
def pwrMargin : Obj := ⟨0xB00003, 32, 0x64, false⟩
/-- PWR_MAX_STATE (0xB000:04), ENUM8, RW: Table 20.6. -/
def pwrMaxState (k : Nat) : Obj := ⟨0xB00004 + k, 8, [2, 3, 3, 3].getD k 0, false⟩
/-- PWR_FEC_ACTIVE (0xB000:08), U8, RW: Table 20.6. -/
def pwrFecActive : Obj := ⟨0xB00008, 8, 0x14, false⟩
/-- PWR_ENTRIES (0xB000:09), U32, RWC: Table 20.6. -/
def pwrEntries : Obj := ⟨0xB00009, 32, 0, false⟩
/-- PWR_LATE_WAKES (0xB000:0A), U32, RWC: Table 20.6. -/
def pwrLateWakes : Obj := ⟨0xB0000A, 32, 0, false⟩
/-- PWR_STATE_LIST (0xB000:0B), DOMAIN, RO: Table 20.6. -/
def pwrStateList : Obj := ⟨0xB0000B, 0, 0, false⟩
/-- PWR_STAGE_TIME (0xB001:01), TIME96, RO: Table 20.6. -/
def pwrStageTime (k : Nat) : Obj := ⟨0xB00101 + k, 96, 0, false⟩
/-- PWR_IMG_STATE (0xB002:01), ENUM8, RO: Table 20.6. -/
def pwrImgState (k : Nat) : Obj := ⟨0xB00201 + k, 8, 0, false⟩
/-- PWR_IMG_VERSION (0xB002:03), U32, RO: Table 20.6. -/
def pwrImgVersion (k : Nat) : Obj := ⟨0xB00203 + k, 32, 0, false⟩
/-- PWR_IMG_MIRROR (0xB002:05), BYTES(6), RO: Table 20.6. -/
def pwrImgMirror (k : Nat) : Obj := ⟨0xB00205 + k, 48, 0, false⟩
/-- PWR_IMG_PREFER (0xB002:07), U8, RO: Table 20.6. -/
def pwrImgPrefer : Obj := ⟨0xB00207, 8, 0, false⟩
/-- PWR_IMG_DATA (0xB002:08), DOMAIN, WO: Table 20.6. -/
def pwrImgData : Obj := ⟨0xB00208, 0, 0, false⟩
/-- PWR_IMG_SWITCH (0xB002:09), U8, RWS: Table 20.6. -/
def pwrImgSwitch : Obj := ⟨0xB00209, 8, 0, false⟩
/-- PWR_IMG_CONFIRM (0xB002:0A), BOOL, WO: Table 20.6. -/
def pwrImgConfirm : Obj := ⟨0xB0020A, 1, 0, false⟩
/-- PWR_IMG_TRIAL (0xB002:0B), U16, RW: Table 20.6. -/
def pwrImgTrial : Obj := ⟨0xB0020B, 16, 0x258, false⟩
/-- PWR_IMG_ROLLBACK_MIN (0xB002:0C), U16, RO: Table 20.6. -/
def pwrImgRollbackMin : Obj := ⟨0xB0020C, 16, 0, false⟩
/-- PWR_IMG_FALLBACKS (0xB002:0D), U32, RWC: Table 20.6. -/
def pwrImgFallbacks : Obj := ⟨0xB0020D, 32, 0, false⟩
/-- MEM_HBM_MAP (0xF000:01), DOMAIN, RO: Table 10.8. -/
def memHbmMap : Obj := ⟨0xF00001, 0, 0, false⟩
/-- MEM_MRAM_MAP (0xF000:02), DOMAIN, RO: Table 10.8. -/
def memMramMap : Obj := ⟨0xF00002, 0, 0, false⟩
/-- MEM_STACK_STATE (0xF002:01), ENUM8, RO: Table 10.8. -/
def memStackState (k : Nat) : Obj := ⟨0xF00201 + k, 8, 0, false⟩
/-- MEM_STACK_FREE (0xF002:05), U32, RO: Table 10.8. -/
def memStackFree (k : Nat) : Obj := ⟨0xF00205 + k, 32, 0, false⟩
/-- MEM_CE_COUNT (0xF004:01), U64, RWC: Table 10.8. -/
def memCeCount (k : Nat) : Obj := ⟨0xF00401 + k, 64, 0, false⟩
/-- MEM_UE_COUNT (0xF005:01), U64, RWC: Table 10.8. -/
def memUeCount (k : Nat) : Obj := ⟨0xF00501 + k, 64, 0, false⟩
/-- MEM_POISON_READS (0xF006:01), U64, RWC: Table 10.8. -/
def memPoisonReads (k : Nat) : Obj := ⟨0xF00601 + k, 64, 0, false⟩
/-- MEM_CE_ALARM (0xF007:01), U32, RW: Table 10.8. -/
def memCeAlarm (k : Nat) : Obj := ⟨0xF00701 + k, 32, 0x3E8, false⟩
/-- MEM_SWEEP_RATE (0xF008:01), U32, RW: Table 10.8. -/
def memSweepRate (k : Nat) : Obj := ⟨0xF00801 + k, 32, [1000, 0, 0, 12500, 10, 0].getD k 0, false⟩
/-- MEM_LAP_LAST (0xF009:01), U32, RO: Table 10.8. -/
def memLapLast (k : Nat) : Obj := ⟨0xF00901 + k, 32, 0, false⟩
/-- MEM_LAP_MAX (0xF00A:01), U32, RWC: Table 10.8. -/
def memLapMax (k : Nat) : Obj := ⟨0xF00A01 + k, 32, 0, false⟩
/-- MEM_LAP_LIMIT (0xF00B:01), U32, RW: Table 10.8. -/
def memLapLimit (k : Nat) : Obj := ⟨0xF00B01 + k, 32, [755, 0, 0, 124000, 33600, 10].getD k 0, false⟩
/-- MEM_SWEEP_CANCELS (0xF00C:01), U64, RWC: Table 10.8. -/
def memSweepCancels : Obj := ⟨0xF00C01, 64, 0, false⟩
/-- MEM_ERR_LOG (0xF00C:02), DOMAIN, RO: Table 10.8. -/
def memErrLog : Obj := ⟨0xF00C02, 0, 0, false⟩
/-- MEM_ERR_LOG_CLEAR (0xF00C:03), BOOL, WO: Table 10.8. -/
def memErrLogClear : Obj := ⟨0xF00C03, 1, 0, false⟩
/-- MEM_POISON_CONSUMED (0xF00E:01), U64, RWC: Table 10.8. -/
def memPoisonConsumed (k : Nat) : Obj := ⟨0xF00E01 + k, 64, 0, false⟩
/-- MEM_COUNTER_RESETS (0xF00E:0F), U32, RWC: Table 10.8. -/
def memCounterResets : Obj := ⟨0xF00E0F, 32, 0, false⟩
/-- MEM_DECODE_ERRORS (0xF010:01), U32, RWC: Table 10.8. -/
def memDecodeErrors : Obj := ⟨0xF01001, 32, 0, false⟩
/-- MEM_DECODE_LAST (0xF010:02), BYTES(8), RO: Table 10.8. -/
def memDecodeLast : Obj := ⟨0xF01002, 64, 0, false⟩
/-- MEM_DEBUG_ENABLE (0xF010:03), BOOL, RW: Table 10.8. -/
def memDebugEnable : Obj := ⟨0xF01003, 1, 0, false⟩

end Sys2Proof.Machine.Reg
end

