-- ==== Sys2Proof/Machine/Operands.lean ====
section
/-! DEFINITION. Operand forms: bit fields, bytes (most significant first, R5), two's complement, TIME96 and device time in
fu, calendar and PPS boundaries, checks of a written value against its object's row, the CRCs and the scrambler. -/

namespace Sys2Proof.Machine

/-- Bits [hi:lo] of a word, bit 0 least significant (R4). -/
def bits (w hi lo : Nat) : Nat := w / 2 ^ lo % 2 ^ (hi + 1 - lo)

/-- Bit k of a word. -/
def bitAt (w k : Nat) : Bool := w / 2 ^ k % 2 == 1

/-- The word with bit k set to b. -/
def withBit (w k : Nat) (b : Bool) : Nat :=
  if bitAt w k = b then w else if b then w + 2 ^ k else w - 2 ^ k

/-- The word with bits [hi:lo] zero: what a reserved field of a written record reads as (R6). -/
def clearBits (w hi lo : Nat) : Nat := w - bits w hi lo * 2 ^ lo

/-- A Boolean as the value of a BOOL object. -/
def b2n (b : Bool) : Nat := if b then 1 else 0

/-- The signed value of a w-bit word in two's complement. -/
def toSigned (w v : Nat) : Int := if v < 2 ^ (w - 1) then (v : Int) else (v : Int) - (2 ^ w : Nat)

/-- The w-bit word of an integer in two's complement. -/
def ofSigned (w : Nat) (i : Int) : Nat := (i % (2 ^ w : Nat)).toNat

/-- n bytes of v, most significant first (R5). -/
def beBytes : Nat → Nat → List Nat
  | 0, _ => []
  | n + 1, v => v / 256 ^ n % 256 :: beBytes n v

/-- The number that bytes spell, most significant first (R5). -/
def ofBytes (bs : List Nat) : Nat := bs.foldl (fun a b => a * 256 + b % 256) 0

/-- A list cut into records of n bytes, each as a number; a rest shorter than n is dropped. Fuel bounds the number of records. -/
def recordsFuel (n : Nat) : Nat → List Nat → List Nat
  | 0, _ => []
  | f + 1, bs => if bs.length < n ∨ n = 0 then [] else ofBytes (bs.take n) :: recordsFuel n f (bs.drop n)

/-- The records of n bytes that a DOMAIN value holds. -/
def recordsOf (n : Nat) (bs : List Nat) : List Nat := recordsFuel n (bs.length / n) bs

/-- Counts of fu: one nanosecond, microsecond, millisecond, second (chapter 00, "Device-time values"). -/
def fuNs : Nat := 65536
def fuUs : Nat := 65536000
def fuMs : Nat := 65536000000
def fuSec : Nat := 65536000000000

/-- One calendar cycle of 12.8 µs in fu (R17). -/
def fuCycle : Nat := 838860800

/-- From arming to the boundary: 25.6 µs (R24). -/
def fuArm : Nat := 1677721600

/-- One arbiter cycle of 2.5 ns in fu (R31). -/
def fuArbiter : Nat := 163840

/-- A TIME96 word names a device time only if its nanosecond field is below 10^9 (R7). -/
def time96Valid (w : Nat) : Bool := decide (bits w 47 16 ≤ 999999999)

/-- The device time of a TIME96 word, in fu. -/
def time96ToFu (w : Nat) : Nat := (bits w 95 48 * 1000000000 + bits w 47 16) * 65536 + bits w 15 0

/-- The TIME96 word of a device time. -/
def fuToTime96 (t : Nat) : Nat :=
  (t / fuSec % 2 ^ 48) * 2 ^ 48 + (t / 65536 % 1000000000) * 2 ^ 16 + t % 65536

/-- The first multiple of p at or after t. -/
def ceilTo (p t : Nat) : Nat := (t + p - 1) / p * p

/-- The first multiple of p after t. -/
def nextMultiple (p t : Nat) : Nat := (t / p + 1) * p

/-- Rounds n/d to the nearest whole number, halves up. -/
def roundDiv (n d : Nat) : Nat := (2 * n + d) / (2 * d)

/-- n/d rounded up. -/
def ceilDiv (n d : Nat) : Nat := (n + d - 1) / d

/-- Limits an integer to an interval. -/
def clampInt (lo hi x : Int) : Int := if x < lo then lo else if hi < x then hi else x

/-- n/d rounded to the nearest integer, halves away from 0 upwards (the spec states no rounding; assumption 21). -/
def roundInt (n : Int) (d : Nat) : Int := (2 * n + d) / (2 * d)

/-- Sum of a list. -/
def sumOf (l : List Nat) : Nat := l.foldl (· + ·) 0

/-- The list with x put before the first element it comes before. -/
def insertBy {α : Type} (lt : α → α → Bool) (x : α) : List α → List α
  | [] => [x]
  | y :: r => if lt x y then x :: y :: r else y :: insertBy lt x r

/-- A list in ascending order; equal elements keep their order. -/
def sortBy {α : Type} (lt : α → α → Bool) : List α → List α
  | [] => []
  | x :: r => insertBy (fun a b => !lt b a) x (sortBy lt r)

/-- Lexicographic order of lists of numbers. -/
def lexLt : List Nat → List Nat → Bool
  | [], [] => false
  | [], _ :: _ => true
  | _ :: _, [] => false
  | a :: r, b :: t => decide (a < b) || (a == b && lexLt r t)

/-- The value lies in the range its object states (R416). -/
def rangeAdmits (r : Range) (v : Int) : Bool :=
  match r with
  | .any => true
  | .span lo hi => decide (lo ≤ v ∧ v ≤ hi)
  | .among vs => vs.contains v
  | .spanOr lo hi vs => decide (lo ≤ v ∧ v ≤ hi) || vs.contains v
  | .steps lo hi st => decide (lo ≤ v ∧ v ≤ hi ∧ (v - lo) % st = 0)
  | .bitsOf _ => true

/-- Reserved bits read as 0 (R6), so they are not kept. -/
def rangeKeep (r : Range) (v : Nat) : Nat :=
  match r with
  | .bitsOf m => v &&& m
  | _ => v

/-- The row covers the reference. -/
def rowCovers (r : ObjRow) (ref : Nat) : Bool :=
  decide (r.index ≤ ref / 256 ∧ ref / 256 < r.index + r.instances ∧ r.sub ≤ ref % 256 ∧ ref % 256 < r.sub + r.subs)

/-- The row of a reference in the object tables. -/
def rowIn (rows : List ObjRow) (ref : Nat) : Option ObjRow := rows.find? (rowCovers · ref)

/-- A list's element at k, its last element beyond its end, z for an empty list. -/
def atOrLast (l : List Nat) (k z : Nat) : Nat := (l[k]?).getD (l.getLast?.getD z)

/-- The Default of a reference under its row. LINE_ITLA_CARRIER's depends on the port (Table 3.7). -/
def rowDefault (r : ObjRow) (ref : Nat) : Nat :=
  if r.index = 0x2018 ∧ r.sub = 0x0A then (ref / 256 - 0x2018) / 2
  else atOrLast r.dflts (ref % 256 - r.sub) 0

/-- The object a row gives at a reference. Types I8 to I64 (codes 7 to 10, Table 17.7) are signed. -/
def rowObj (r : ObjRow) (ref : Nat) : Obj :=
  ⟨ref, r.width, rowDefault r ref, decide (7 ≤ r.ty ∧ r.ty ≤ 10)⟩

/-- The value of a w-bit word as its type reads it. -/
def rowValue (r : ObjRow) (v : Nat) : Int :=
  if 7 ≤ r.ty ∧ r.ty ≤ 10 then toSigned r.width v else (v : Int)

/-- Type code 0x0E: a DOMAIN (Table 17.7). -/
def tyDomain : Nat := 14

/-- Bytes of a value of an object; a BOOL takes one. -/
def Obj.bytes (o : Obj) : Nat := (o.width + 7) / 8

/-! ### Rows of any reference (R430, R431, R433) -/

/-- The sixteen block indices of Table 18.4. -/
def blockIndices : List Nat :=
  [0x27F0, 0x27F1, 0x27F2, 0x27F3, 0x2FF0, 0x3FF0, 0x4FF0, 0x57F0, 0x5FF0, 0x6FF0, 0x7FF0, 0x8FF0, 0x9FF0, 0xAFF0, 0xBFF0, 0xFFF0]

/-- The common rows of one block (Table 18.3). -/
def blockRowsOf (b : Nat) : List ObjRow :=
  [⟨b, 1, 1, 1, 4, 16, .ro, [0], .any, []⟩, ⟨b, 1, 2, 1, 2, 8, .ro, [0], .any, []⟩, ⟨b, 1, 3, 1, 3, 8, .rwc, [0], .any, []⟩,
   ⟨b, 1, 4, 1, 6, 64, .rwc, [0], .any, []⟩, ⟨b, 1, 5, 1, 6, 64, .ro, [0], .any, []⟩, ⟨b, 1, 6, 1, 2, 8, .ro, [3], .any, []⟩,
   ⟨b, 1, 7, 1, 1, 1, .ro, [0], .any, []⟩, ⟨b, 1, 8, 1, 12, 32, .ro, [0], .any, []⟩]

/-- The highest subindex of an index: what its subindex 0 reads as (R431). -/
def topSub (idx : Nat) : Option Nat :=
  if blockIndices.contains idx then some 8
  else
    match objRows.filter (fun r => decide (r.index ≤ idx ∧ idx < r.index + r.instances)) with
    | [] => none
    | l => some ((l.map (fun r => r.sub + r.subs - 1)).foldl max 0)

/-- The row of any reference: the object tables, the common block objects, subindex 0. -/
def rowOf (ref : Nat) : Option ObjRow :=
  if ref % 256 = 0 then (topSub (ref / 256)).map (fun n => ⟨ref / 256, 1, 0, 1, 3, 8, .ro, [n], .any, []⟩)
  else if blockIndices.contains (ref / 256) then (blockRowsOf (ref / 256)).find? (fun r => r.sub == ref % 256)
  else rowIn objRows ref

/-! ### CRCs -/

/-- One step of the CRC-16 x^16 + x^12 + x^5 + 1, most significant bit first (R129). -/
def crc16Bit (crc : Nat) (b : Bool) : Nat :=
  let top := bitAt crc 15
  let sh := crc * 2 % 65536
  if top != b then sh ^^^ 0x1021 else sh

/-- The bits of w from bit n − 1 downwards. -/
def bitsDown : Nat → Nat → List Bool
  | 0, _ => []
  | n + 1, w => bitAt w n :: bitsDown n w

/-- The CRC-16 of R129 over the low n bits of w, from the highest downwards: initial 0xFFFF, no reflection, no final XOR. -/
def crc16 (n w : Nat) : Nat := (bitsDown n w).foldl crc16Bit 0xFFFF

/-- One bit step of the reflected IEEE 802.3 CRC-32. -/
def crc32Shift (c : Nat) : Nat := if c % 2 = 1 then c / 2 ^^^ 0xEDB88320 else c / 2

/-- n bit steps of the reflected CRC-32. -/
def crc32Steps : Nat → Nat → Nat
  | 0, c => c
  | n + 1, c => crc32Steps n (crc32Shift c)

/-- The IEEE 802.3 CRC-32 of a byte string (R421, Table 18.7). -/
def crc32 (bs : List Nat) : Nat :=
  (bs.foldl (fun c b => crc32Steps 8 (c ^^^ b % 256)) 0xFFFFFFFF) ^^^ 0xFFFFFFFF

/-- The scrambler x^31 + x^28 + 1 of R133: the next state of its 31-bit register and the bit it adds. -/
def scramblerStep (r : Nat) : Nat × Bool :=
  let f := bitAt r 30 != bitAt r 27
  (r * 2 % 2 ^ 31 + b2n f, f)

/-- Scrambles (or descrambles) bits from the register state r. -/
def scramble : Nat → List Bool → List Bool
  | _, [] => []
  | r, b :: bs => (b != (scramblerStep r).2) :: scramble (scramblerStep r).1 bs

end Sys2Proof.Machine
end

