-- ==== Sys2Proof/Machine/Shaping.lean ====
section
/-! DEFINITION. The amplitude compositions of the shaped loading codes, which LINE_TX_PS_TABLE shows (chapter 03, R42). -/

namespace Sys2Proof.Machine

/-- n! -/
def factorial : Nat → Nat
  | 0 => 1
  | n + 1 => (n + 1) * factorial n

/-- Counts of the amplitudes 1, 3, 5 and 7 among 256. -/
abbrev Composition : Type := Nat × Nat × Nat × Nat

/-- Every composition of 256 amplitudes. -/
def compositions : List Composition :=
  (List.range 257).flatMap (fun n7 => (List.range (257 - n7)).flatMap (fun n5 =>
    (List.range (257 - n7 - n5)).map (fun n3 => (256 - n7 - n5 - n3, n3, n5, n7))))

/-- The count of arrangements of a composition. -/
def arrangements (p : Composition) : Nat :=
  factorial 256 / (factorial p.1 * factorial p.2.1 * factorial p.2.2.1 * factorial p.2.2.2)

/-- The energy of a composition, 256 times its mean. -/
def energy (p : Composition) : Nat := p.1 + 9 * p.2.1 + 25 * p.2.2.1 + 49 * p.2.2.2

/-- Frame bits that set the amplitudes of one dimension in a mapping period; none below code 32 (R42). -/
def amplitudeBits (c : Nat) : Nat := 8 * c - 256

/-- A composition is large enough for a code. -/
def carriesCode (c : Nat) (p : Composition) : Bool := decide (2 ^ amplitudeBits c ≤ arrangements p)

/-- The lowest energy of the compositions large enough for a code. -/
def leastEnergy (c : Nat) : Nat := (compositions.filter (carriesCode c)).foldl (fun m p => min m (energy p)) (256 * 49)

/-- The compositions that R42 admits for a code: large enough, with lowest mean energy. For many codes there are several. -/
def bestCompositions (c : Nat) : List Composition := compositions.filter (fun p => carriesCode c p && energy p == leastEnergy c)

/-- The composition of a code: the one R42 states, a free choice where several share the lowest energy (assumption 39). -/
def composition (c : Nat) : Composition :=
  let l := bestCompositions c
  l.getD (Config.shapingChoice c % l.length) (256, 0, 0, 0)

/-- LINE_TX_PS_TABLE: four counts for each code from 24 to 94; what stands for codes 95 and 96 has no stated layout and is free (assumption 39). -/
def psTable : List Nat :=
  ((List.range 71).map (fun k => composition (k + 24))).flatMap (fun p => beBytes 2 p.1 ++ beBytes 2 p.2.1 ++ beBytes 2 p.2.2.1 ++ beBytes 2 p.2.2.2) ++
    Config.shapingRest

end Sys2Proof.Machine
end

