-- ==== Sys2Proof/Machine/Aes.lean ====
section
/-! DEFINITION. AES-256 encryption of one block (FIPS 197), from which the check value of a key comes (R326), and AES-256-GCM over it (R322). A block and a key are byte lists;
byte i of a block stands in row i mod 4, column i div 4. -/

namespace Sys2Proof.Machine

/-- Multiplication by x in GF(2^8). -/
def xtime (b : Nat) : Nat := if 128 ≤ b then b * 2 % 256 ^^^ 0x1B else b * 2

/-- The S-box of FIPS 197: row r holds the values of 16 r to 16 r + 15, the first in the lowest byte. -/
def sboxRows : List Nat :=
  [0x76ABD7FE2B670130C56F6BF27B777C63, 0xC072A49CAFA2D4ADF04759FA7DC982CA, 0x1531D871F1E5A534CCF73F362693FDB7] ++
   [0x75B227EBE28012079A059618C323C704, 0x842FE329B3D63B52A05A6E1B1A2C8309, 0xCF584C4A39BECB6A5BB1FC20ED00D153] ++
   [0xA89F3C507F02F94585334D43FBAAEFD0, 0xD2F3FF1021DAB6BCF5389D928F40A351, 0x73195D643D7EA7C41744975FEC130CCD] ++
   [0xDB0B5EDE14B8EE4688902A22DC4F8160, 0x79E4959162ACD3C25C2406490A3A32E0, 0x08AE7A65EAF4566CA94ED58D6D37C8E7] ++
   [0x8A8BBD4B1F74DDE8C6B4A61C2E2578BA, 0x9E1DC186B95735610EF6034866B53E70, 0xDF2855CEE9871E9B948ED9691198F8E1] ++
   [0x16BB54B00F2D99416842E6BF0D89A18C]

def sbox (x : Nat) : Nat := sboxRows.getD (x / 16) 0 / 2 ^ (8 * (x % 16)) % 256

/-- Adds two byte strings. -/
def xorBytes (a b : List Nat) : List Nat := List.zipWith (· ^^^ ·) a b

/-- The next word of the key schedule, the words before it newest first: word i of 60. -/
def nextWord (i rcon : Nat) (ws : List (List Nat)) : List Nat :=
  let t := ws.headD []
  let t := if i % 8 = 0 then xorBytes ((t.drop 1 ++ t.take 1).map sbox) [rcon, 0, 0, 0] else if i % 8 = 4 then t.map sbox else t
  xorBytes (ws.getD 7 []) t

/-- n words more, from word i. -/
def expandKey : Nat → Nat → Nat → List (List Nat) → List (List Nat)
  | 0, _, _, ws => ws.reverse
  | n + 1, i, rcon, ws => expandKey n (i + 1) (if i % 8 = 0 then xtime rcon else rcon) (nextWord i rcon ws :: ws)

/-- A byte string in pieces of n bytes. -/
def piecesFuel (n : Nat) : Nat → List Nat → List (List Nat)
  | 0, _ => []
  | f + 1, bs => if bs.isEmpty then [] else bs.take n :: piecesFuel n f (bs.drop n)

/-- The 60 words of a 32-byte key. -/
def keySchedule (key : List Nat) : List (List Nat) := expandKey 52 8 1 (piecesFuel 4 8 key).reverse

/-- The round key of round r. -/
def roundKey (ks : List (List Nat)) (r : Nat) : List Nat := ((ks.drop (4 * r)).take 4).flatten

/-- ShiftRows. -/
def shiftRows (s : List Nat) : List Nat := (List.range 16).map (fun i => s.getD ((i + 4 * (i % 4)) % 16) 0)

/-- MixColumns. -/
def mixColumns (s : List Nat) : List Nat :=
  (List.range 16).map (fun i =>
    let a (k : Nat) : Nat := s.getD (i / 4 * 4 + (i + k) % 4) 0
    xtime (a 0) ^^^ (xtime (a 1) ^^^ a 1) ^^^ a 2 ^^^ a 3)

/-- AES-256 of a 16-byte block. -/
def aes256 (key block : List Nat) : List Nat :=
  let ks := keySchedule key
  let s := (List.range 13).foldl (fun s r => xorBytes (mixColumns (shiftRows (s.map sbox))) (roundKey ks (r + 1)))
    (xorBytes block (roundKey ks 0))
  xorBytes (shiftRows (s.map sbox)) (roundKey ks 14)

/-- The check value of a key: the first 3 bytes of AES-256 over 16 zero bytes (R326). -/
def checkValue (key : Nat) : Nat := ofBytes ((aes256 (beBytes 32 key) (List.replicate 16 0)).take 3)

/-! ### AES-256-GCM (NIST SP 800-38D) with a 96-bit IV: blocks are 128-bit numbers, the first byte highest -/

/-- AES-256 of IV and counter. -/
def gcmBlock (key iv counter : Nat) : Nat := ofBytes (aes256 (beBytes 32 key) (beBytes 16 (iv * 2 ^ 32 + counter % 2 ^ 32)))

/-- The key stream of data block i. -/
def gcmStream (key iv i : Nat) : Nat := gcmBlock key iv (i + 2)

/-- Multiplication in GF(2^128), bit 127 the coefficient of 1. -/
def gcmMul (x y : Nat) : Nat :=
  ((List.range 128).foldl (fun (s : Nat × Nat) i =>
    (if bitAt x (127 - i) then s.1 ^^^ s.2 else s.1, if s.2 % 2 = 1 then s.2 / 2 ^^^ 0xE1 * 2 ^ 120 else s.2 / 2)) (0, y)).1

/-- GHASH of blocks under h. -/
def ghash (h : Nat) (blocks : List Nat) : Nat := blocks.foldl (fun y b => gcmMul (y ^^^ b) h) 0

/-- A byte string in blocks, the last padded with zeros. -/
def padBlocks (bs : List Nat) : List Nat := (piecesFuel 16 bs.length bs).map (fun p => ofBytes ((p ++ List.replicate 16 0).take 16))

/-- The tag over additional data and ciphertext given as blocks with their lengths in bits. -/
def gcmTag (key iv : Nat) (aad : List Nat) (aadBits : Nat) (text : List Nat) (textBits : Nat) : Nat :=
  let h := ofBytes (aes256 (beBytes 32 key) (List.replicate 16 0))
  gcmBlock key iv 1 ^^^ ghash h (aad ++ text ++ [aadBits * 2 ^ 64 + textBits])

/-- The 64 most significant bits of the tag over bytes as additional data alone (GMAC). -/
def gmac64 (key iv : Nat) (bs : List Nat) : Nat := gcmTag key iv (padBlocks bs) (8 * bs.length) [] 0 / 2 ^ 64

end Sys2Proof.Machine
end

