-- ==== Sys2Proof/Machine/State.lean ====
section
/-! DEFINITION. The state of the VX4880: the object dictionary, the internal state that the chapters name beside the
objects, what the last command sent out, and the queue of waiting commands. Plain data throughout. -/

namespace Sys2Proof.Machine

/-- Two of a kind: one for C0, one for C1. -/
structure Pair (α : Type) where
  c0 : α
  c1 : α
deriving DecidableEq, Repr

/-! ### Statuses, responses and notices (chapter 17) -/

/-- A failing status of Table 17.6 with the error detail of Table 17.10. -/
structure Err where
  status : Nat
  kind : Nat
  member : Nat
  ref : Nat
deriving DecidableEq, Repr

/-- A response (R414): where it goes, the request it answers, STATUS and the body bytes. -/
structure Resp where
  transport : Nat
  addr : Nat
  service : Nat
  session : Nat
  reqId : Nat
  status : Nat
  body : List Nat
deriving DecidableEq, Repr

/-- What a notice says: the latest value of an object, or an event of the owning chapter with its numbers. -/
inductive NoticeBody where
  | value (v : Nat)
  | event (fields : List Nat)
deriving DecidableEq, Repr

/-- A notice (R420). -/
structure Notice where
  transport : Nat
  addr : Nat
  session : Nat
  seq : Nat
  time : Nat
  sub : Nat
  lost : Nat
  ref : Nat
  body : NoticeBody
deriving DecidableEq, Repr

/-- A message that leaves on a transport or waits to be read over SPI, with its bytes: header, body, tag (R408, R410). -/
inductive Msg where
  | resp (r : Resp) (bytes : List Nat)
  | notice (n : Notice) (bytes : List Nat)
deriving DecidableEq, Repr

/-- A session (R422): its number, transport, address and level; the counter base and the last COUNTER each way (R423);
whether it is the untagged installer session of R424; the last 16 responses (R425). -/
structure Session where
  num : Nat
  transport : Nat
  addr : Nat
  level : Nat
  base : Nat
  lastIn : Nat
  lastOut : Nat
  limited : Bool
  cache : List Resp
deriving DecidableEq, Repr

/-- A subscription (R420), with the change notices that wait for its period or for EOP_NOTICE_MIN (references), and the
references whose spacing still runs. -/
structure Subscription where
  num : Nat
  session : Nat
  transport : Nat
  addr : Nat
  first : Nat
  last : Nat
  period : Nat
  spaced : List Nat
  waiting : List Nat
deriving DecidableEq, Repr

/-- The LOST count a session or sessionless address carries to its next notice (R420). -/
structure LostCount where
  session : Nat
  transport : Nat
  addr : Nat
  count : Nat
deriving DecidableEq, Repr

/-- A BLOCK transfer in progress (R421): the object, who holds it, write or read, the length, and the bytes so far or the
snapshot. -/
structure Transfer where
  ref : Nat
  session : Nat
  transport : Nat
  addr : Nat
  writing : Bool
  total : Nat
  data : List Nat
deriving DecidableEq, Repr

/-- A request sent on over the line (R413): the asker, the original REQ_ID and the number it went out under. -/
structure Forward where
  msgId : Nat
  transport : Nat
  addr : Nat
  service : Nat
  session : Nat
  reqId : Nat
deriving DecidableEq, Repr

/-- A message being reassembled from segments (R412): carrier, leaf (128: the far end), MSG_ID, the next INDEX, the bytes. -/
structure Reassembly where
  carrier : Nat
  leaf : Nat
  msgId : Nat
  nextIndex : Nat
  data : List Nat
deriving DecidableEq, Repr

/-- A response withheld until the mirror's ACK (R357), with its epoch. -/
structure Withheld where
  epoch : Nat
  resp : Resp
deriving DecidableEq, Repr

/-- The EOP service (chapter 17); vlanCount: frames taken per client port since the last PPS boundary (Table 17.2). -/
structure Eop where
  sessions : List Session
  subs : List Subscription
  lost : List LostCount
  transfers : List Transfer
  forwards : List Forward
  nextMsgId : Nat
  reassembly : List Reassembly
  spiOut : List Msg
  spiLost : Bool
  latch : Option (Nat × Nat × Nat)
  vlanCount : List (Nat × Nat)
  nonces : List (Nat × Nat × Nat)
  bases : List (Nat × Nat)
  withheld : List Withheld
deriving DecidableEq, Repr

/-! ### Device time, scheduler and arbiter (chapter 02) -/

/-- The kinds of Table 2.2. -/
inductive ActKind where
  | calendar | lineC0 | lineC1 | pps
deriving DecidableEq, Repr

/-- The origins of Table 2.6. -/
inductive Origin where
  | host | device | mirror | line
deriving DecidableEq, Repr

/-- An action (R22 to R30, Table 2.6): handle, acceptance (number and time), bake time as the TIME96 word written (0: as
soon as possible), kind, origin, class, target; late policy 1; the boundary once armed; the instant its arming point must
lie after (R35, R189, R357); the number of the arming event; the value written, the numbers its class needs, the members of a bundle with the pre-images
taken at preparation; the failure found while preparing; where the withheld response of an immediate bundle goes; the
resources of Table 20.4 it names (R34); whether its place is of the host pool (R27); whether it waits for a rebuild of the
next bank (R189); the open epoch whose ACK it waits for (R357; 0: none); in the standby the handle its record
names. -/
structure Action where
  handle : Nat
  acceptSeq : Nat
  acceptAt : Nat
  bake : Nat
  kind : ActKind
  origin : Origin
  cls : Nat
  target : Nat
  late1 : Bool
  armed : Option Nat
  notBefore : Nat
  armSeq : Nat
  value : Nat
  args : List Nat
  members : List Member
  preimages : List Member
  prepFail : Option Err
  reply : Option Resp
  needs : List Nat
  hostPlace : Bool
  held : Bool
  epoch : Nat
  mirrorOf : Nat
deriving DecidableEq, Repr

/-- A bundle on its way to MRAM (R418): its number, the pre-images, the new values once it has taken effect (before: none), whether the pre-images
are durable. -/
structure BundleStore where
  bundle : Nat
  preimages : List Member
  values : List Member
  preDurable : Bool
deriving DecidableEq, Repr

/-- The scheduler and the event arbiter: actions in the schedule in order of acceptance, device-created actions waiting for a
place (R28), the next handle and bundle number, bundles on their way to MRAM (R418), the accepted step (R19), the latest
sequence number given, the number of the event now in effect, events carried to the next cycle and numbers given whose
event has not yet taken effect (R31). -/
structure Sched where
  actions : List Action
  waiting : List Action
  nextHandle : Nat
  nextBundle : Nat
  bundles : List BundleStore
  step : Option Nat
  lastSeq : Nat
  cur : Nat
  carried : List ArbEvent
  granted : List Nat
deriving DecidableEq, Repr

/-! ### Line framer (chapter 06) -/

/-- One slice block in the switch memory (R183): its 16 bytes and its poison mark. -/
structure SliceBlock where
  data : Nat
  poison : Bool
deriving DecidableEq, Repr

/-- A decoded block that waits for the framer (R111, R119): its 256 units, which halves failed, which of those carry the poison mark. -/
structure RxBlock where
  units : List Nat
  fail0 : Bool
  fail1 : Bool
  mark0 : Bool
  mark1 : Bool
deriving DecidableEq, Repr

/-- A payload unit on its way to its line slot (R136, R325): 16 bytes, poison mark, line slot (none: stuff, or before any cycle mark), the segment of the frame
it lies in (0 to 3; R322), on line slot 0 the arrival of its cycle mark, and whether a slip makes it
fill. -/
structure RxUnit where
  data : Nat
  poison : Bool
  slot : Option Nat
  seg : Nat
  at_ : Nat
  fill : Bool
deriving DecidableEq, Repr

/-- A payload unit waiting to be sent (R135): its slice block, whether it is line slot 0 of a cycle, and the crypt group under whose record it was taken
(R318; 128: none), and the instant from which it is ready. -/
structure TxUnit where
  data : Nat
  first : Bool
  cg : Nat
  ready : Nat
deriving DecidableEq, Repr

/-- A message for the overhead slots of a carrier (R132): its class (block mod 4; 16 + b: block b alone), the groups still to carry it, whether it stays until it is withdrawn,
until when it is sent (0: no limit), its 512 bits. -/
structure SlotMsg where
  cls : Nat
  groups : List Nat
  stays : Bool
  till : Nat
  word : Nat
deriving DecidableEq, Repr

/-- An invocation of a crypt group over a segment not yet ended (R322): the group with its CG_ID, its pair, whether it is GMAC only, whether it sends ciphertext, the
key and the epoch, what the tag covers so far. -/
structure OpenCg where
  cg : Nat
  id : Nat
  pair : Nat
  gmac : Bool
  live : Bool
  key : Nat
  epoch : Nat
  units : List Nat
deriving DecidableEq, Repr

/-- The frame a group is sending (R127 to R131): FRAME_COUNT, tick, TT_STAMP, AIS, RDI, and the invocations as they stood at its start (R327). -/
structure TxFrame where
  count : Nat
  tick : Nat
  stamp : Nat
  ais : Bool
  rdi : Bool
  keys : List OpenCg
deriving DecidableEq, Repr

/-- The receive side of a subcarrier group (R137 to R148): runs of valid and bad headers, the BLOCK expected, blocks hunted,
the table under test, the line-slot count, runs of frames with and without AIS, RDI, trace mismatch and BONDED mismatch, the
defects present before masking (Table 6.7), the REI for the last 1 ms, the announcement taken (table, frame), the frame count
last seen and its TT_STAMP, the line slots shed (from, to), the table the receiver applies to the group's frames, and whether a block-0 header has
settled it since Sync was entered, cycles of skew within 0.9 µs (BSK), and intervals counted towards SD and its end. The demapped ratios not yet taken by a
codeword, each with its subcarrier and its place in its mapping period; decoded blocks that wait
for the framer; whether the frame in progress failed its TABLE check; units held for their SEC_SEG; the line slots of the cycle in progress; an unpaired cycle
mark (its arrival), the last pairing, and a whole cycle, with the arrival of the mark that ended it, that waits for the other member of a bonded port (R145); crypt
groups whose invocation an engine mismatch spoilt (R333). -/
structure RxGroup where
  okRun : Nat
  badRun : Nat
  expect : Nat
  hunted : Nat
  testTable : Nat
  fromSync : Bool
  slotCount : Option Nat
  aisOn : Nat
  aisOff : Nat
  rdiOn : Nat
  rdiOff : Nat
  timOn : Nat
  timOff : Nat
  bmmOn : Nat
  bmmOff : Nat
  raw : Nat
  announced : Option (Nat × Nat)
  frame : Nat
  stamp : Nat
  shed : Option (Nat × Nat)
  table : Nat
  settled : Bool
  bskOk : Nat
  sdOn : Nat
  sdOff : Nat
  ratios : List (Int × Nat × Nat)
  blocks : List RxBlock
  badTable : Bool
  held : List RxUnit
  cycle : List (Nat × SliceBlock)
  mark : Option Nat
  pairedAt : Nat
  whole : Option (Nat × List (Nat × SliceBlock))
  faults : List Nat
deriving DecidableEq, Repr

/-- The transmit side of a subcarrier group: FRAME_COUNT, the announcement in its block-1 headers (table, SWITCH_FRAME), the
RDI it sends, and the failed frames of the last millisecond that REI returns; the table under which its frames are mapped and the switch that waits for
its next frame (table, codes; R131); the frame it is sending; units taken and not yet sent; coded bits that do not fill a mapping period (R43, R44); the
open segment (SEG, its invocations; R322), and crypt groups whose next invocation an engine mismatch spoils (R333). -/
structure TxGroup where
  frameCount : Nat
  announce : Option (Nat × Nat)
  rdi : Bool
  rei : Nat
  table : Nat
  due : Option (Nat × List Nat)
  sending : Option TxFrame
  queue : List TxUnit
  rest : List Bool
  seg : Option (Nat × List OpenCg)
  faults : List Nat
deriving DecidableEq, Repr

/-- The framer of one carrier: groups by first subcarrier, the last control message of each TYPE taken (R132), the
transmit table in force, the last tick of the frame clock, and the messages for its overhead slots, in order. -/
structure Framer where
  rx : List (Nat × RxGroup)
  tx : List (Nat × TxGroup)
  lastControl : List Nat
  txTable : Nat
  tickAt : Nat
  slots : List SlotMsg
deriving DecidableEq, Repr

/-! ### Receive chain and loading (chapter 04) -/

/-- A loading proposal or table: its number and the codes of the carrier's subcarriers (bonded: 32). -/
structure LoadTable where
  table : Nat
  codes : List Nat
deriving DecidableEq, Repr

/-- The receive chain and the loading negotiation of one carrier: per subcarrier the unwrapped carrier phase and the static offset in steps of π/64, the quarter
turns kept (R87, R88) and the last valid SNR in 0.01 dB (R89); the last 100 dispersion estimates in 0.1 ps/nm, newest first (R81), and since when LINE_RX_CD_STATE has read
Tracking (R285). -/
structure RxChain where
  stage : Nat
  frozenFrom : List (Nat × Nat)
  resolved : List Nat
  suspect : List Nat
  cdEstimate : Int
  acqAt : Nat
  outstanding : Option LoadTable
  acked : Option Nat
  candidates : List LoadTable
  nextTable : Nat
  startHunt : Bool
  restarting : Bool
  dueDown : List Nat
  dueUp : List Nat
  excluded : List Nat
  probes : List Nat
  inForce : LoadTable
  manualCodes : List Nat
  ackOut : Option (Nat × Nat × Nat)
  phase : List (Nat × Int)
  offset : List (Nat × Int)
  turns : List (Nat × Nat)
  lastSnr : List (Nat × Nat)
  estimates : List Int
  cdAt : Nat
deriving DecidableEq, Repr

/-! ### FEC pool (chapter 05) -/

/-- A codeword in the pool (R111, R113): its number, carrier, group, block (R106), overhead code, the group's codes, its place on the bit stream, ready instant,
placement instant, its ratios with the subcarriers they came from, and the burst of its subcarrier it belongs to (R161). -/
structure Codeword where
  num : Nat
  carrier : Nat
  group : Nat
  block : Nat
  overhead : Nat
  codes : List Nat
  place : Nat
  ready : Nat
  placed : Nat
  ratios : List (Int × Nat)
  burst : Option Nat
deriving DecidableEq, Repr

/-- A codeword whose decoding has stopped and whose block is not yet delivered: why (0 Converged, 1 Maximum, 2 Cut-off,
3 Preempted) and after how many iterations. -/
structure Stopped where
  word : Codeword
  reason : Nat
  iters : Nat
deriving DecidableEq, Repr

/-- The statistics of one carrier: when the window of R120 began, its counts (pre-FEC errors, bits, the same per subcarrier, codewords stopped and their
iterations), the millisecond of R123 (errors, bits, codewords, failed frames per group), and the worst status so far of each
group's frame (R118). -/
structure FecWindow where
  start : Nat
  errors : Nat
  bits : Nat
  scErrors : List (Nat × Nat)
  scBits : List (Nat × Nat)
  words : Nat
  iters : Nat
  msErrors : Nat
  msBits : Nat
  msWords : Nat
  msFailed : List (Nat × Nat)
  worst : List (Nat × Nat)
deriving DecidableEq, Repr

/-- The decoder pool: occupied slots by number, held codewords in order, codewords stopped and not delivered, the statistics of
both carriers, and for FEC_POOL_MEAN the slot-time occupied in the second that runs (slots × fu), up to which instant, and how many
milliseconds of it have ended. -/
structure FecPool where
  slots : List (Nat × Codeword)
  held : List Codeword
  stopped : List Stopped
  win : Pair FecWindow
  area : Nat
  since : Nat
  ms : Nat
deriving DecidableEq, Repr

/-! ### Transmit and optics (chapter 03) -/

/-- An ITLA transaction (R49). -/
inductive ItlaCmd where
  | raw (word : Nat)
  | readBaud | setBaud (rate : Nat)
  | setFreq (mhz : Nat) | setPower (p : Nat) | setFtf (f : Nat)
  | enable | disable | pollPending | pollStatus
deriving DecidableEq, Repr

/-- An ITLA port (R49 to R53): queue of transactions, the outstanding one, retries made, whether an operation is pending,
baud rate in force, power settled, alarm, and the level of ITLAn_DIS_N. -/
structure ItlaPort where
  queue : List ItlaCmd
  out : Option ItlaCmd
  retries : Nat
  pendingOp : Bool
  baud : Nat
  settled : Bool
  alarm : Bool
  disHigh : Bool
deriving DecidableEq, Repr

/-- A transfer list on the ASPI master (R55, R56): kind 0 host, 1 safe-state, 2 resume; the carrier whose lasers are enabled
after a resume list (2: none); records still to run and records done. -/
structure AspiRun where
  kind : Nat
  carrier : Nat
  todo : List Nat
  finished : List Nat
deriving DecidableEq, Repr

/-- The ASPI master: the list running, the lists waiting behind it in order, the word length of the transfer in progress (R54). -/
structure Aspi where
  running : Option AspiRun
  waiting : List AspiRun
  len : Nat
deriving DecidableEq, Repr

/-- The bias loops (R57): the loop visited, the conversions of its dither period so far, the differences d of the visit so far (sums over
28 conversions), consecutive visits within the lock window per loop. -/
structure Bias where
  visited : Option Nat
  conv : List Int
  ds : List Int
  within : List (Nat × Nat)
deriving DecidableEq, Repr

/-- One carrier's transmit side beside its objects: whether it was Active when it entered Squelched, whether the squelch
turned the laser off. -/
structure TxSide where
  wasActive : Bool
  laserOff : Bool
deriving DecidableEq, Repr

/-! ### Hub mode (chapter 07) -/

/-- What a receive path starts a leaf's burst from: frequency offset, timing phase and equaliser taps of its last valid burst (R160). -/
structure BurstStart where
  freq : Int
  timing : Int
  taps : List Int
deriving DecidableEq, Repr

/-- A leaf of a hub carrier beside its objects: the instants of its violations in the last second; runs of valid and of missed bursts;
runs of AIS, RDI and their absence over valid bursts; SD runs; the defects present before masking (Table 7.5); the last accepted
NONCE; its burst count C (R324); arrival and SNR of valid bursts in the SNR window; pre-FEC errors and bits in the window of R120; the
millisecond's errors, bits, bursts and failed bursts; the grant record before the last switch and the cycle until which a burst in that
window is stale; the slots shed (first, end); what its next burst starts from; the arrival offset of its last valid burst in symbols. -/
structure HubLeaf where
  violations : List Nat
  okRun : Nat
  missRun : Nat
  aisOn : Nat
  aisOff : Nat
  rdiOn : Nat
  rdiOff : Nat
  sdSet : Nat
  sdClr : Nat
  raw : Nat
  nonce : Option Nat
  burstCount : Nat
  snrs : List (Nat × Nat)
  errors : Nat
  bits : Nat
  msErrors : Nat
  msBits : Nat
  msBursts : Nat
  msFailed : Nat
  oldGrant : Option Nat
  staleUntil : Nat
  shed : Option (Nat × Nat)
  start : Option BurstStart
  offset : Int
deriving DecidableEq, Repr

/-- A burst from its sync word on (R161, R163): number, granted leaf (128: discovery) and record, position of preamble symbol 0 in symbols after the start of its
cycle (the discovery cycle), RSSI; demapped ratios that fill no codeword yet, codewords taken, blocks delivered, their pre-FEC errors and bits; the receiver's
report once it has ended. -/
structure HubBurst where
  id : Nat
  leaf : Nat
  record : Nat
  pos : Int
  rssi : Int
  ratios : List (Int × Nat × Nat)
  taken : Nat
  blocks : List (Nat × RxBlock)
  errors : Nat
  bits : Nat
  report : Option BurstReport
deriving DecidableEq, Repr

/-- The burst receiver of one subcarrier: the granted leaf of the window (128: discovery), whether the window is still open, until when the discovery window
lasts, what the path starts from; the leaf in whose window the current detection lies, its correlation power in 0.1 dB and its position, those of the detection
B holds; the bursts not yet judged, oldest first, and the number of the next. -/
structure HubPath where
  leaf : Nat
  windowOpen : Bool
  till : Nat
  start : Option BurstStart
  burst : Nat
  power : Int
  pos : Int
  second : Option (Int × Int)
  bursts : List HubBurst
  nextId : Nat
deriving DecidableEq, Repr

/-- A hub message that came in a burst (R324): its leaf (128: a discovery burst), subcarrier, block, the burst's count C (of a discovery burst: its BURST_SEQ), the
position of the burst, the 512 bits. -/
structure UpMsg where
  leaf : Nat
  sc : Nat
  block : Nat
  count : Nat
  pos : Int
  word : Nat
deriving DecidableEq, Repr

/-- A grant switch that has fired: table number, records, the downstream and the upstream cycle from which it holds. -/
structure GrantSwitch where
  table : Nat
  records : List Nat
  launch : Nat
  receive : Nat
deriving DecidableEq, Repr

/-- Hub mode of one carrier: leaves, subcarrier paths, fired switches not yet in force at reception, the DISC_ID last sent, messages that came in discovery bursts
and in leaves' bursts and wait to be checked. -/
structure Hub where
  leaves : List (Nat × HubLeaf)
  paths : List (Nat × HubPath)
  switches : List GrantSwitch
  discId : Nat
  registers : List UpMsg
  messages : List UpMsg
deriving DecidableEq, Repr

/-! ### Slice fabric and protection (chapter 08) -/

/-- A slice map entry (Table 8.3). -/
structure MapEntry where
  kind : Nat
  group : Nat
  aPort : Nat
  aSlice : Nat
  bPort : Nat
  bSlice : Nat
deriving DecidableEq, Repr

/-- A group configuration record (Table 8.4). -/
structure GroupRec where
  prot : Nat
  revert : Bool
  monitor : Bool
  tim : Nat
  holdOff : Nat
  wtr : Nat
  allow : Nat
  traceExp : Nat
  traceTx : Nat
deriving DecidableEq, Repr

/-- The port sizes, the entries (keyed by port * 2^24 + slot) and the group records of one bank (R177, R180, R182). Ports
not listed have size 0, slots not listed are unassigned, groups not listed have the Default record. -/
structure Bank where
  inSize : List (Nat × Nat)
  outSize : List (Nat × Nat)
  entries : List (Nat × MapEntry)
  groups : List (Nat × GroupRec)
deriving DecidableEq, Repr

/-- A port's re-timing buffer (R178): the cycle given last, whole cycles that wait (line ports), whether the next boundary repeats the last. Cells are slots with
their slice blocks. -/
structure Retime where
  last : List (Nat × SliceBlock)
  queue : List (List (Nat × SliceBlock))
  again : Bool
deriving DecidableEq, Repr

/-- A monitoring point (R195, R196): alignment (0 off, 1 Hunt, 2 Presync, 3 Sync), runs of valid and invalid headers, the
last SEQ, runs of AIS and trace headers, the defects present before masking, the last valid TRACE, and on a hitless group's leg the
arrival of SEQ 0 that the last arrival implies (in 1/n fu for a group of n slots; none while not in Sync). -/
structure MonPoint where
  align : Nat
  okRun : Nat
  badRun : Nat
  lastSeq : Nat
  aisOn : Nat
  aisOff : Nat
  timOn : Nat
  timOff : Nat
  raw : Nat
  trace : Nat
  norm : Option Int
deriving DecidableEq, Repr

/-- The group blocks that an output carries (R197): the SEQ of the last header, the place of the last slice block in its group block, and how many
headers since were invalid. -/
structure OutGrid where
  seq : Nat
  pos : Nat
  bad : Nat
deriving DecidableEq, Repr

/-- What a slice group holds (R195 to R208): its two monitoring points; the command (0 none, 1 LO, 2 FS, 3 MS-P, 4 MS-W);
the SF and SD requests past hold-off, bits [0] SF-W, [1] SD-W, [2] SF-P, [3] SD-P; those waiting out the hold-off; WTR and
DNR; when WTR ends and whether its expiry waits (R208); the request in force; the legs it has given since the selector last acted, with their times (R203); the leg
selected; counters; hitless: first alignment done, realign ordered, the output time of SEQ 0 in 1/n fu; the grid of group blocks that the output
carries (R197), how often its output's point has left Sync or met SF (R238), whether it sends AIS; hitless: the grid of each leg's blocks, each leg's
slice blocks in HBM by their number (256 SEQ + place) in order of arrival, and the number after the last one sent (R206). -/
structure GroupState where
  w : MonPoint
  p : MonPoint
  cmd : Nat
  reqs : Nat
  holding : Nat
  wtr : Bool
  wtrExpired : Bool
  dnr : Bool
  wtrEnd : Nat
  inForce : Nat
  pend : List (Nat × Nat)
  selected : Nat
  switches : Nat
  realigns : Nat
  hdrErrors : Nat
  firstAligned : Bool
  realign : Bool
  outBase : Option Int
  grid : Option OutGrid
  breaks : Nat
  ais : Bool
  gridW : Option OutGrid
  gridP : Option OutGrid
  bufW : List (Nat × SliceBlock)
  bufP : List (Nat × SliceBlock)
  sent : Option Nat
deriving DecidableEq, Repr

/-- The slice fabric: active and next bank as the three copies agreed, where single copies differ from them (R184), the re-timing buffers by port (R178), held edits and reverts in order of arrival (R189: an edit record, or none for a revert),
whether the validation pass of the armed swap is done and its verdict, the two pages of switch memory keyed by input address
(R175), the page written, the groups' states, and the input slots under an action giving SF, SD or AIS (Tables 6.8 and 7.5,
failed ports): port, first slot, slots, bits [0] SF, [1] SD, [2] slice-group AIS, [3] fill, and the cause that set it. -/
structure Fabric where
  active : Bank
  next : Bank
  upsets : List Upset
  retime : List (Nat × Retime)
  writeTable : List (Nat × Nat)
  held : List (Option Nat)
  passed : Bool
  page0 : List (Nat × SliceBlock)
  page1 : List (Nat × SliceBlock)
  pageWrite : Nat
  states : List (Nat × GroupState)
  affected : List (Nat × Nat × Nat × Nat × Nat)
deriving DecidableEq, Repr

/-! ### Packet adaptation (chapter 09) -/

/-- A committed item of a queue: frame length in bytes and deadline in fu (R228). -/
structure PktItem where
  length : Nat
  deadline : Nat
deriving DecidableEq, Repr

/-- A producer word of an item (R224): 8 bytes and the 4-bit tag. -/
structure PktWord where
  data : Nat
  tag : Nat
deriving DecidableEq, Repr

/-- A granule of a queue's middle in HBM (R234): eight producer words, the first in the highest bits, and their tags in the sideband. -/
structure Granule where
  data : Nat
  tags : Nat
deriving DecidableEq, Repr

/-- A queue (R221 to R240): its configuration record, state (Table 9.5), committed items, whether the consumer has begun the first and
the charge bytes taken of it, whether a flush waits for its fence and whether the queue is disabled after it, the live
watermark status, the latch, the first crossing, the counters of 0x4022; its words, in head staging, the middle and tail staging. -/
structure PktQueue where
  cfg : Nat
  state : Nat
  items : List PktItem
  begun : Bool
  taken : Nat
  flushing : Bool
  disableAfter : Bool
  live : Bool
  latch : Nat
  wmFirst : Nat
  accepted : Nat
  refused : Nat
  policed : Nat
  rewound : Nat
  flushedItems : Nat
  flushedBytes : Nat
  fenceWords : Nat
  peak : Nat
  head : List PktWord
  mid : List Granule
  tail : List PktWord
deriving DecidableEq, Repr

/-- A flow entry (Table 9.2), the flow's counter record (R226) and the position it lies at (R217). -/
structure Flow where
  valid : Bool
  action : Nat
  queue : Nat
  cir : Nat
  cbs : Nat
  tokens : Nat
  last : Nat
  accBytes : Nat
  accPkts : Nat
  polPkts : Nat
  refPkts : Nat
  recPkts : Nat
  recBytes : Nat
  recPoliced : Nat
  recRefused : Nat
  pos : Nat
deriving DecidableEq, Repr

/-- The frame a packet port is receiving: its queue (none: dropped or discarded), the key of its flow, whether a fence has passed, its bytes so far, and how many
of its words stand in the queue. -/
structure RxFrame where
  queue : Option Nat
  flow : Option Nat
  fenced : Bool
  bytes : List Nat
  written : Nat
deriving DecidableEq, Repr

/-- A word of a group's item area as the extractor took it: whether its slice carried the poison mark, and whether it lies at FIRST (R237, R238). -/
structure AreaWord where
  data : Nat
  poison : Bool
  first : Bool
deriving DecidableEq, Repr

/-- The extractor of a group (R238): delineation lost, or not yet found; the length of the open item; whether a fence has passed it; how many times the group had stopped
running when it last looked; FIRST of the block in progress (0xFFF: none, or its pointer word failed PCRC); the words of the stream that wait. -/
structure Extractor where
  lost : Bool
  item : Option Nat
  fenced : Bool
  epoch : Nat
  ptr : Nat
  words : List AreaWord
deriving DecidableEq, Repr

/-- A word that a channel sends: an item header begins an item; whether its slice is marked (R236, R237). -/
structure ChanWord where
  data : Nat
  start : Bool
  poison : Bool
deriving DecidableEq, Repr

/-- The ingress drainer of a channel (R229, R237): the SEQ of its next group block, the place of its next slice block in it, words taken that wait for a slot, and
whether the slices of the item begun are marked. -/
structure Channel where
  seq : Nat
  pos : Nat
  words : List ChanWord
  bad : Bool
deriving DecidableEq, Repr

/-- Packet adaptation: queues off their defaults, flows by key, port counters (port * 16 + counter), frames being received by port,
extractors by group, the queues with LATCHED set in order, channels by group, the words of the frame that each port's transmitter has taken. -/
structure Packet where
  queues : List (Nat × PktQueue)
  flows : List (Nat × Flow)
  counts : List (Nat × Nat)
  rx : List (Nat × RxFrame)
  ext : List (Nat × Extractor)
  wmList : List Nat
  chan : List (Nat × Channel)
  tx : List (Nat × List PktWord)
deriving DecidableEq, Repr
/-! ### Memories (chapter 10) -/

/-- The crumb sweep, the error log, the poison stored by it, the control matrix: sweep position per place (1, 5, 6: the class; 8 + k: stack
k of class 4) as a count of units, start of each class's lap, correctable errors per class in the running second, up to 256 log records,
poisoned units (class * 2^48 + address), the master each target is parked on, the bytes of MRAM and of HBM as the matrix wrote them, lines
waiting in the MRAM target's buffer, and when a line was last written (those of the last millisecond). -/
structure Mem where
  pos : List (Nat × Nat)
  lapStart : List (Nat × Nat)
  ceSecond : List (Nat × Nat)
  log : List Nat
  poisoned : List (Nat × Nat)
  parked : List (Nat × Nat)
  mram : List Host.Cell
  mramBuf : List (Nat × Nat)
  mramAt : List (Nat × Nat)
  hbm : List Host.Cell
deriving DecidableEq, Repr

/-! ### Timing and holdover (chapters 11 and 12) -/

/-- A reference candidate beside its objects: whether its next qualification is its first since its source was written, the QL it
receives, the STEPS its sender gives, when its proofing ends. -/
structure Cand where
  first : Bool
  ql : Nat
  steps : Nat
  proofEnd : Nat
deriving DecidableEq, Repr

/-- A PTP port: the last Sync (its time and its arrival), the last Delay_Req sent, when the last Sync and the last Announce came, a two-step Sync that waits for its
Follow_Up (sequence number, arrival), in fu; the offsets found since the last PPS boundary (ps), and whether TIME_PTP_MEAN_DELAY has been measured. -/
structure PtpPort where
  t1 : Option Nat
  t2 : Option Nat
  t3 : Option Nat
  syncAt : Option Nat
  announceAt : Option Nat
  awaits : Option (Nat × Nat)
  thetas : List Int
  measured : Bool
deriving DecidableEq, Repr

/-- A frame marked for time transfer (R285): FRAME_COUNT, tick, TX_OFFSET in ps, and the 62.5 ms interval in which it lies. -/
structure LtMark where
  frame : Nat
  tick : Nat
  offset : Nat
  interval : Nat
deriving DecidableEq, Repr

/-- A measurement kept from TT_INFO: FRAME_COUNT, the far tick and TX_OFFSET, the arrival, the far-end clock's interval. -/
structure LtMeas where
  frame : Nat
  tick : Nat
  offset : Nat
  arrival : Nat
  interval : Nat
deriving DecidableEq, Repr

/-- Line time transfer of one carrier (R285, R286): own marks and kept measurements of recent intervals, STEPS and LOOP of the far end, when an
exchange last completed, a TT_INFO last came, whether its frame's TT_STAMP disagreed with it, and the offsets found since the last PPS boundary (ps). -/
structure LineTime where
  marks : List LtMark
  kept : List LtMeas
  exchangeAt : Option Nat
  infoAt : Option Nat
  stampBad : Bool
  thetas : List Int
deriving DecidableEq, Repr

/-- The model record of R312: generation, fit time, A and D (10^-18), c1 to c3 (10^-18 per °C^k), T0 (0.01 °C), order, learning seconds, and the
bins: residual (10^-16) and count by bin number. -/
structure HoModel where
  gen : Nat
  fitTime : Nat
  a : Int
  d : Int
  c1 : Int
  c2 : Int
  c3 : Int
  t0 : Int
  order : Nat
  learn : Nat
  bins : List (Nat × Int × Nat)
deriving DecidableEq, Repr

/-- The starter (chapter 12): temperatures of the running second (units of 10^-6 °C) and how many seconds in a row were not valid, the
filtered temperature, the learning seconds of the sample in progress (mean c in 10^-18, filtered temperature) with its SOURCE, the history
(words of Table 12.1, oldest first), the model, its copies A (0) and B (1) in the MRAM area, learning seconds since the last fit, whether a fit has completed since power-up or a
retrace, consecutive outliers, the anchor offset (10^-18), the end of the last phase-traceable sample, whether the specification held at
entry and no fault has come since, whether the next sample is marked BOOT, whether the last Selected candidate was GNSS at QL 1, the
Selected candidate's phases over the anchor window, newest first (ps), and the second for which EXPECT was last made. -/
structure Starter where
  temps : List Int
  tempLost : Nat
  filt : Option Int
  secs : List (Int × Int)
  source : Nat
  history : List Nat
  model : Option HoModel
  copies : List (Nat × HoModel)
  sinceFit : Nat
  fitted : Bool
  outRun : Nat
  offset : Int
  lastTrace : Option Nat
  specHeld : Bool
  bootNext : Bool
  lastGnss1 : Bool
  phases : List Int
deriving DecidableEq, Repr

/-- The timing block beside its objects: candidates, the running pull (remainder in ps at an instant, slope in 0.1 ns/s), whether TIME_LOCK has
reached Locked since reset, mean corrections of the last seconds (end of second, 10^-18), a correction (10^-15) that waits for the next
calendar boundary, the starter clock's phase during a disagreement (ps × 10^6), the first-acquisition step that is due (fu), the last
GNSS pulse and the pulse a ToD message was last paired with, the pulses since that one, the seconds it named and whether they disagreed with the pulse count; the last edges at EXT_REF0 and EXT_REF1, values of TIME_PPS_OFFSET (places 0, 1)
and TIME_FREQ_OUT (2, 3) that wait with the instant of their write, and those in force; PTP ports; line time transfer; the starter; when
PPS_OUT0 last edged; consecutive seconds within the lock window; the loop bandwidth in force for phase and for frequency (µHz; R281); the device time state the twin advertises. -/
structure Tim where
  cands : List (Nat × Cand)
  pull : Option (Int × Nat × Nat)
  locked : Bool
  hist : List (Nat × Int)
  cNext : Option Int
  sPhase : Option Int
  stepBy : Option Int
  gnssEdge : Option Nat
  gnssPaired : Option Nat
  gnssPulses : Nat
  gnssSecs : Option Nat
  gnssBad : Bool
  extEdge : List (Nat × Nat)
  outNext : List (Nat × Int × Nat)
  outForce : List (Nat × Int)
  ptp : List (Nat × PtpPort)
  lt : Pair LineTime
  ho : Starter
  ppsAt : Option Nat
  lockRun : Nat
  bw : Nat × Nat
  mateState : Nat
  mateThetas : List Int
deriving DecidableEq, Repr

/-! ### Line encryption (chapter 13) -/

/-- A half of a key pair: its state (0 Empty, 1 Loaded, 2 Current, 3 Retired), epoch and key (R326). -/
structure KeyHalf where
  state : Nat
  epoch : Nat
  key : Nat
deriving DecidableEq, Repr

/-- A key pair: the current and the next half, CUR_USES, SEC_PAIR_SHARED. -/
structure KeyPair where
  cur : KeyHalf
  next : KeyHalf
  uses : Nat
  shared : Bool
deriving DecidableEq, Repr

/-- The security block: pairs off their defaults, their wrapped copies in MRAM, SEG and RES of each line port (16 * carrier + first subcarrier), the
last SEG that passed per port and UNIT (2 * port + UNIT), crypt groups in guard stop, when crypt groups that send none ceased to send ciphertext, the instants of the last second's mismatches, when the Retired
half of a pair last matched an entry, or was retired, detections per sensor, the erase-pending record (R335). -/
structure Sec where
  pairs : List (Nat × KeyPair)
  wrapped : List (Nat × KeyPair)
  segs : List (Nat × Nat)
  res : List (Nat × Nat)
  lastSeg : List (Nat × Nat)
  guardStop : List Nat
  ended : List (Nat × Nat)
  mismatches : List Nat
  matched : List (Nat × Nat)
  detections : List (Nat × Nat)
  erasePending : Bool
deriving DecidableEq, Repr


/-! ### Twin redundancy (chapter 14) -/

/-- An epoch: its number, its records, and when it was closed. -/
structure Epoch where
  num : Nat
  records : List MirrorRec
  closedAt : Nat
deriving DecidableEq, Repr

/-- Redundancy beside its objects. Cores: those that wait for resynchronisation, recent dissents (core, instant), last resynchronisations. Claim: whether
twin operation is on since power-up (R343), whether the unit still listens (R344), whether it has claimed once, since when a lower health class holds,
the start of the last claim frame and whether its effect instant is to come, the level of CLAIM_WON, the last winner, the twin's claim and bus reading,
consecutive faulty, silent and good frames, since when both links are lost (R351), from when the shared outputs may start and whether they are
driven (R352). Mirror: the journal of the open epoch and its number, epochs closed and not acknowledged, the epoch number a baseline's snapshot was fixed
at; in the standby the part of an epoch received, complete epochs not yet committed, the epoch that failed last, handles of action records of discarded
parts and how many parts; whether mirrored records are being applied. The end of the last resynchronisation gap of the core. -/
structure Twin where
  dissenting : List Nat
  dissents : List (Nat × Nat)
  resyncAt : List (Nat × Nat)
  enabled : Bool
  listening : Bool
  claimed : Bool
  lowerSince : Option Nat
  frameAt : Option Nat
  frameOpen : Bool
  won : Bool
  winner : Option Nat
  twinClaim : Option Nat
  twinBus : Option Nat
  faultyRun : Nat
  silentRun : Nat
  goodRun : Nat
  lostAt : Option Nat
  driveAt : Option Nat
  drives : Bool
  journal : List MirrorRec
  openEpoch : Nat
  closed : List Epoch
  baseAt : Option Nat
  part : Option (Nat × List MirrorRec)
  ready : List Epoch
  failedNum : Option Nat
  droppedActs : List (Nat × Nat)
  droppedParts : Nat
  applying : Bool
  gapEnd : Nat
deriving DecidableEq, Repr

/-! ### Client and mate lanes (chapter 15) -/

/-- A stream of a client port or FlexE client (R370, R372). Ingress: 66b blocks that wait, whether a frame is open after the last one placed, payload units left
of the group block in progress, its place and SEQ. Egress: units of the item area in progress, blocks for the partner, whether a frame is open after the last
one sent. -/
structure ClientSide where
  waiting : List Nat
  inFrame : Bool
  units : List Nat
  pos : Nat
  seq : Nat
  area : List Nat
  out : List Nat
  outFrame : Bool
deriving DecidableEq, Repr

/-- Lanes beside their objects. FlexE: the configuration in force and whether it uses calendar B; the configuration (bytes) whose calendar switch is under way;
ports without overhead lock; since when each removed member has been up with matching overhead. Client ports whose egress buffer under-ran in the last cycle; what
is sent to partners in place of blocks, by port and first slot (1 Local Fault, 2 Remote Fault); the streams by port and first slot. Mate link: LANE_MATE_CTRL and LANE_MATE_CLOCK in force, whether it runs since power-up; per lane runs of valid and of missed marks and
the CYCLE last seen; RX_LANES last reported, the cycle, and for how many cycles; the next lane set of the transmitter and its cycle; the lanes the
partner deals to, and its next lane set with SWITCH; uncorrectable codewords of the last millisecond (lane, instant, number); the slots' blocks for the next cycle's lanes; received data blocks that wait (lane, the sender's
cycle, blocks). -/
structure Lane where
  flexActive : List FlexeGroup
  calendarB : Bool
  switching : Option (List Nat)
  overheadLost : List Nat
  flexUp : List (Nat × Nat)
  underRun : List Nat
  sent : List (Nat × Nat)
  clients : List (Nat × ClientSide)
  mateOn : Bool
  mateCtrl : Nat
  mateClock : Nat
  marks : List (Nat × Nat × Nat × Nat)
  seenRx : Nat × Nat × Nat
  txNext : Option (Nat × Nat)
  rxDeal : Nat
  rxNext : Option (Nat × Nat)
  cwBad : List (Nat × Nat × Nat)
  mateOut : List Nat
  mateIn : List (Nat × Nat × List SliceBlock)
deriving DecidableEq, Repr


/-! ### Monitor converter and calibration (chapter 16) -/

/-- What the converter is doing: nothing, a bias visit, a step of a sequence, a self-calibration (R391). -/
inductive Conv where
  | idle | visit | seq (k : Nat) | selfCal
deriving DecidableEq, Repr

/-- A running sequence (R392, R393): the start of its last pass, whether that pass runs, its step, results still to discard, the sum and number of
those averaged, OVR and RESUMED so far, the records of the pass, whether a start fell due during it, whether a stop is ordered. -/
structure SeqRun where
  startAt : Nat
  inPass : Bool
  step : Nat
  discard : Nat
  sum : Int
  taken : Nat
  ovr : Bool
  resumed : Bool
  records : List Nat
  due : Bool
  stop : Bool
deriving DecidableEq, Repr

/-- The converter beside its objects: whether the reference has been ready since reset, the work, the work that a self-calibration interrupted, the
sequences whose steps wait (oldest request first), until when a yield lasts, the running sequences, a self-calibration queued, the die temperature at the
last one, the results of a self-calibration in progress, the items of the calibration set found unusable at power-up (Table 16.7, from 0); the time-path corrections as (from, target, parts, parts taken) and a measurement that waits for its PPS boundary with its end (R402). -/
structure Mon where
  refSeen : Bool
  work : Conv
  held : Conv
  queue : List Nat
  yieldEnd : Option Nat
  seqs : List (Nat × SeqRun)
  calQueued : Bool
  calTemp : Option Int
  calConv : List Int
  unusable : List Nat
  trims : List (Int × Int × Nat × Nat)
  measured : Option (Nat × List Int)
deriving DecidableEq, Repr

/-- A ramp of R398 over the eight terms of a direction (skew XI, XQ, YI, YQ; IQ gain X, Y; IQ phase X, Y): the corrections in force, those at its start,
the targets, the steps taken (64: none runs). -/
structure Ramp where
  now : List Int
  start : List Int
  target : List Int
  step : Nat
deriving DecidableEq, Repr

/-- Line-path calibration of one carrier: the run (0 none, 1 receive, 2 transmit), runs queued, the two ramps, the transmit iteration, whether it
averages, the reports it has taken, the next SEQ of CAL_REPORT, whether an equaliser has been undecided since the last one, whether the transmitter has been Active since power-up. -/
structure CalSide where
  run : Nat
  rxQueued : Bool
  txQueued : Bool
  rxRamp : Ramp
  txRamp : Ramp
  iter : Nat
  averaging : Bool
  reports : List (List Int)
  seq : Nat
  unsteady : Bool
  activeSeen : Bool
deriving DecidableEq, Repr


/-! ### Dictionary store (chapter 18) -/

/-- A stored scalar's pair of lines (R436): the generation and value of the newest record, and, until its line write is
durable, the record it replaces (none: a free line). -/
structure StoreRec where
  gen : Nat
  value : Nat
  before : Option (Nat × Nat)
  waits : Bool
deriving DecidableEq, Repr

/-- A stored DOMAIN's slot (R438): generation and contents of the newest copy (none: LENGTH 0xFFFF_FFFF, over its slot), what
the other copy holds, whether the rewrite of the newest copy runs, and a change that came during it. -/
structure DomSlot where
  gen : Nat
  value : Option (List Nat)
  before : Option (List Nat)
  rewriting : Bool
  next : Option (List Nat)
deriving DecidableEq, Repr

/-- The saved image (R442): whether it is valid, its generation, the device time of the save; its scalars (reference, GEN, value) and its DOMAINs (reference, GEN,
contents). -/
structure SavedImage where
  valid : Bool
  gen : Nat
  time : Nat
  scalars : List (Nat × Nat × Nat)
  domains : List (Nat × Nat × List Nat)
deriving DecidableEq, Repr

/-- The store: live scalars and slots, the saved image, the copy a save is writing, the restore request, what a load in
progress still holds (DOMAINs to apply after the restored swap), the handle of that swap. -/
structure Store where
  live : List (Nat × StoreRec)
  liveDoms : List (Nat × DomSlot)
  saved : SavedImage
  saving : Option SavedImage
  request : Nat
  loading : Bool
  loadDoms : List (Nat × List Nat)
  loadSwap : Option Nat
  log : List Nat
deriving DecidableEq, Repr


/-! ### Telemetry (chapter 19) -/

/-- A record of the ring before it is written (Table 19.3): TYPE (4: a sweep item), ID, COUNT, TIME, SEQ, SKIPPED, STEP, INVALID, and what follows the
header; an item is its body alone. -/
structure RingRec where
  typ : Nat
  id : Nat
  count : Nat
  time : Nat
  seq : Nat
  skipped : Nat
  step : Bool
  invalid : Nat
  body : List Nat
deriving DecidableEq, Repr

/-- A running sweep (R457, R458): its start boundary, the keys, queues or groups written, their number, the flow keys valid since the start and not yet
written, and the instant before which the rate keeps the next read. -/
structure Sweep where
  startAt : Nat
  done : List Nat
  items : Nat
  left : List Nat
  nextAt : Nat
deriving DecidableEq, Repr

/-- Telemetry beside its objects: counter control writes that wait for the next calendar boundary (8 * block + counter), records waiting for HBM, the
ring's whole records by stream position, whether a record was dropped since the last one written, the positions an open transfer of TEL_RING_DATA
covers; latches not taken per group; groups (0 to 31) and sets (33 to 35) that have had no record since a step of device time; the sweeps by set and the
sets whose next start waits; calendar cycles of the bandwidth window, whether it spans a step, and the bytes counted in it by port code,
plus 0x80 out of the fabric. -/
structure Tel where
  ctrlWaits : List Nat
  waiting : List RingRec
  ring : List (Nat × List Nat)
  lost : Bool
  reading : Option (Nat × Nat)
  skipped : List (Nat × Nat)
  stepped : List Nat
  sweeps : List (Nat × Sweep)
  due : List Nat
  bwCycles : Nat
  bwStep : Bool
  bwBytes : List (Nat × Int)
deriving DecidableEq, Repr


/-! ### Power states (chapter 20) -/

/-- Where the device stands between reset and service (R463 to R468, R342). -/
inductive Phase where
  | reset | boot | recovery | loading | running | restarting
deriving DecidableEq, Repr

/-- A sleeping resource of Table 20.4: its state P0 to P3, whether it is waking, when it is ready, and whether the
place kept for its wake is one of the host pool (R28). -/
structure Resource where
  state : Nat
  waking : Bool
  readyAt : Nat
  hostPlace : Bool
deriving DecidableEq, Repr

/-- A write that waits for sleeping resources (R477): the request, its service, what it writes (a value or the bytes of a DOMAIN), the
resources. -/
structure Deferred where
  req : Req
  svc : Nat
  ref : Nat
  value : Nat
  data : List Nat
  needs : List Nat
deriving DecidableEq, Repr

/-- An image slot (R466 to R469): 0 empty, 1 valid, 2 invalid; its 256-byte header; its boot failures. -/
structure ImgSlot where
  state : Nat
  header : Nat
  fails : Nat
deriving DecidableEq, Repr

/-- Power-up and images beside their objects: the cause of the reset in progress, whether OCXO_CLK has run for 1 ms, the slots, the slot booted at
power-up, the slot in use (2: none), whether it is on trial, PWR_IMG_ROLLBACK_MIN, an image whose lines are not yet all durable (slot, header), the boot
count, calendar cycles since power-up, the blocks that failed their power-up self-test whole. -/
structure Pwr where
  cause : Nat
  clock : Bool
  slots : Pair ImgSlot
  prefer : Nat
  active : Nat
  trial : Bool
  rollback : Nat
  writing : Option (Nat × Nat)
  boots : Nat
  cycles : Nat
  failed : List Nat
deriving DecidableEq, Repr

/-! ### The JTAG port (chapter 21) -/

/-- The states of the test access port's controller (IEEE 1149.1). -/
inductive TapState where
  | reset | idle | selectDr | captureDr | shiftDr | exit1Dr | pauseDr | exit2Dr | updateDr
  | selectIr | captureIr | shiftIr | exit1Ir | pauseIr | exit2Ir | updateIr
deriving DecidableEq, Repr

/-- The instructions of the JTAG port (R496). -/
inductive JtagInstr where
  | bypass | idcode | sample | extest
deriving DecidableEq, Repr

/-- The JTAG port (R496): its controller, the instruction in force, the bits of the instruction and data registers that shift (the next out first), and the
levels that the boundary-scan register holds for its cells. -/
structure Jtag where
  tap : TapState
  instr : JtagInstr
  ir : List Bool
  dr : List Bool
  cells : List Bool
deriving DecidableEq, Repr

/-! ### What a command sends out -/

/-- A stage of the transmit chain after symbol mapping, with its settings, in the order of Table 3.1 and R46: shaping of a subcarrier (number, centre in MHz from
the laser, roll-off in 0.0001; R45), dispersion (ps/nm), IQ gain and phase imbalance (X, Y: 0.001 dB, 0.01°), skew per DAC (0.1 ps), pre-emphasis (pairs of 10 MHz
and 0.01 dB), clipping (0.1 dB), conversion (full scale in mVppd). -/
inductive TxStage where
  | shape (sc : Nat) (centre : Int) (rolloff : Nat)
  | dispersion (ps : Int)
  | iq (gain phase : List Int)
  | skew (tenths : List Int)
  | emphasis (pairs : List (Nat × Int))
  | clip (ratio : Nat)
  | convert (fullScale : Nat)
deriving DecidableEq, Repr

/-- What leaves the device while one command takes effect. -/
inductive Out where
  | message (m : Msg)
  | spiStatus (byte : Nat)
  | spiMessage (m : Option Msg)
  | spiRead (status flag word : Nat)
  | spiWrite (status : Nat)
  | lineEop (carrier leaf msg : Nat)
  | slice (port slot : Nat) (b : SliceBlock)
  | slip (port : Nat) (beyond : Bool)
  | clientFrame (port : Nat) (bytes : List Nat)
  | loadReq (carrier table lead : Nat) (codes : List Nat)
  | loadAck (carrier table bake switchFrame : Nat)
  | loadNak (carrier table reason : Nat)
  | loadRestart (carrier : Nat)
  | itla (port : Nat) (cmd : ItlaCmd)
  | aspi (select mode length word : Nat) (read : Bool) (delay : Nat)
  | bias (loop : Nat) (code : Nat)
  | hub (carrier sc msgType leaf : Nat) (body : List Nat)
  | frame (carrier group : Nat) (blocks : List (List Nat))
  | symbols (carrier group : Nat) (periods : List (List (Nat × List Sym))) (stages : List TxStage)
  | pps (out : Nat) (at_ : Int) (width : Nat)
  | freqOut (out hz : Nat)
  | tod (time ql baud : Nat)
  | ptp (port msgType : Nat) (fields : List Nat)
  | esmc (port code : Nat)
  | ttInfo (carrier group word : Nat)
  | ttReturn (carrier group word : Nat)
  | mateLane (lane : Nat) (blocks : List Nat)
  | pcs (port first : Nat) (blocks : List Nat)
  | claim (value : Nat)
  | epoch (num : Nat) (records : List MirrorRec)
  | epochAck (num : Nat)
  | mateClaim (claim bus : Nat)
  | bound (handle boundary : Nat)
  | calReport (carrier group seq valid : Nat) (terms : List Int)
  | matrix (master target resp ahead clocks : Nat) (data : List Nat) (poison : Bool)
deriving DecidableEq, Repr

/-- The device. -/
structure Device where
  dict : List (Nat × Nat)
  doms : List (Nat × List Nat)
  now : Nat
  free : Nat
  out : List Out
  phase : Phase
  resources : List (Nat × Resource)
  deferred : List Deferred
  eop : Eop
  sched : Sched
  fab : Fabric
  frm : Pair Framer
  rx : Pair RxChain
  tx : Pair TxSide
  fec : FecPool
  hub : Pair Hub
  pkt : Packet
  itla : List (Nat × ItlaPort)
  aspi : Aspi
  bias : Bias
  store : Store
  twin : Twin
  mem : Mem
  tim : Tim
  sec : Sec
  lane : Lane
  mon : Mon
  cal : Pair CalSide
  tel : Tel
  pwr : Pwr
  jtag : Jtag
deriving DecidableEq, Repr

/-- The machine: the device and the commands waiting, first in, first out. -/
structure State where
  dev : Device
  pending : List Instr
deriving DecidableEq, Repr

/-- No command stops the block with a fault: errors are statuses of responses, counted discards and alarms. No one raises
this; safe. -/
inductive Fault where
  | none
deriving DecidableEq, Repr

/-- A command the model does not know, by its mnemonic. Raised by no meaning; safe. -/
inductive Refusal where
  | notModelled (mnemonic : String)
deriving DecidableEq, Repr

/-! ### Reset -/

/-- No bank: every port of size 0. -/
def Bank.empty : Bank := ⟨[], [], [], []⟩

/-- A carrier's receive chain that is Off. -/
def RxChain.initial : RxChain :=
  ⟨0, [], [], [], 0, 0, none, none, [], 0, false, false, [], [], [], [], ⟨0, []⟩, [], none, [], [], [], [], [], 0⟩

def FecWindow.initial : FecWindow := ⟨0, 0, 0, [], [], 0, 0, 0, 0, 0, [], []⟩

/-- Eight terms of 0, no ramp running. -/
def Ramp.initial : Ramp :=
  ⟨[0, 0, 0, 0, 0, 0, 0, 0], [0, 0, 0, 0, 0, 0, 0, 0], [0, 0, 0, 0, 0, 0, 0, 0], 64⟩

def CalSide.initial : CalSide := ⟨0, false, false, Ramp.initial, Ramp.initial, 0, false, [], 0, false, false⟩

/-- A starter without history; its first sample is marked BOOT (R313). -/
def Starter.initial : Starter := ⟨[], 0, none, [], 0, [], none, [], 0, false, 0, 0, none, false, true, false, []⟩

def LineTime.initial : LineTime := ⟨[], [], none, none, false, []⟩

def Tim.initial : Tim :=
  ⟨[], none, false, [], none, none, none, none, none, 0, none, false, [], [], [], [], ⟨LineTime.initial, LineTime.initial⟩, Starter.initial, none, 0, (0, 0), 0, []⟩

def Twin.initial : Twin :=
  ⟨[], [], [], false, false, false, none, none, false, false, none, none, none, 0, 0, 0, none, none, false, [], 1, [], none, none, [], none, [], 0, false, 0⟩

def Sched.initial : Sched := ⟨[], [], 1, 1, [], none, 0, 0, [], []⟩

def Eop.initial : Eop := ⟨[], [], [], [], [], 0, [], [], false, none, [], [], [], []⟩

def Mem.initial : Mem := ⟨[], [], [], [], [], [], [], [], [], []⟩

def Lane.initial : Lane := ⟨[], false, none, [], [], [], [], [], false, 0, 0, [], (0, 0, 0), none, 0, none, [], [], []⟩

def Store.initial : Store := ⟨[], [], ⟨false, 0, 0, [], []⟩, none, 0, false, [], none, []⟩

/-- The header of an image with the Defaults of Table 20.1: what the factory image's is taken to be (assumption 41). -/
def factoryHeader : Nat := 0x5658494D * 2 ^ 2016 + 2 ^ 2000 + 0x0100 * 2 ^ 1856

/-- The pairs 254 and 255 leave manufacture with a Current half of epoch 1 (R424); their keys are no part of the spec (assumption 37). -/
def factoryPairs : List (Nat × KeyPair) :=
  [(254, ⟨⟨2, 1, Config.factoryKey 254⟩, ⟨0, 0, 0⟩, 0, false⟩), (255, ⟨⟨2, 1, Config.factoryKey 255⟩, ⟨0, 0, 0⟩, 0, false⟩)]

/-- The sleeping resources in reset: engines, hub paths and lanes in P3 (Table 18.3, _BLK_POWER), the HBM stacks in P0. -/
def resourcesAtReset : List (Nat × Resource) :=
  ((List.range 20).map (· + 256) ++ (List.range 64).map (· + 512) ++ (List.range 80).map (· + 768)).map (fun r => (r, ⟨3, false, 0, false⟩))

/-- The device in reset as it leaves manufacture: every object at its Default (R3, R439), nothing stored, a valid image in slot 0. -/
def Device.initial : Device :=
  { dict := [], doms := [], now := 0, free := 0, out := [], phase := .reset, resources := resourcesAtReset, deferred := [],
    eop := Eop.initial, sched := Sched.initial,
    fab := ⟨Bank.empty, Bank.empty, [], [], [], [], false, [], [], 0, [], []⟩,
    frm := ⟨⟨[], [], [], 0, 0, []⟩, ⟨[], [], [], 0, 0, []⟩⟩,
    rx := ⟨RxChain.initial, RxChain.initial⟩, tx := ⟨⟨false, false⟩, ⟨false, false⟩⟩,
    fec := ⟨[], [], [], ⟨FecWindow.initial, FecWindow.initial⟩, 0, 0, 0⟩,
    hub := ⟨⟨[], [], [], 0, [], []⟩, ⟨[], [], [], 0, [], []⟩⟩, pkt := ⟨[], [], [], [], [], [], [], []⟩,
    itla := [], aspi := ⟨none, [], 8⟩, bias := ⟨none, [], [], []⟩, store := Store.initial, twin := Twin.initial, mem := Mem.initial,
    tim := Tim.initial, sec := ⟨[], factoryPairs, [], [], [], [], [], [], [], [], false⟩, lane := Lane.initial,
    mon := ⟨false, .idle, .idle, [], none, [], false, none, [], [], [], none⟩, cal := ⟨CalSide.initial, CalSide.initial⟩,
    tel := ⟨[], [], [], false, none, [], [], [], [], 0, false, []⟩,
    pwr := ⟨0, false, ⟨⟨1, factoryHeader, 0⟩, ⟨0, 0, 0⟩⟩, 0, 2, false, 0, none, 0, 0, []⟩,
    jtag := ⟨.reset, .idcode, [], [], []⟩ }

/-- The machine right after reset (R464): X of the first power-up. SCHED_BOOT_COUNT is 1, device time counts from 0 in Unset, PWR_RESET_CAUSE is 0
(power-on), the monitor reference buffer is enabled and settles, the boot code has chosen slot 0, and no command waits. -/
def State.reset : State :=
  { dev := { Device.initial with
      dict := [(0x580202, 1), (0x800002, 1), (0xB00201, 3)]
      phase := .boot
      pwr := { Device.initial.pwr with clock := true, active := 0, boots := 1 } }
    pending := [] }

end Sys2Proof.Machine
end

