-- ==== Sys2Proof/Machine/Ops.lean ====
section
/-! DEFINITION. The named operations every family uses: object values, sequence numbers, notices, responses, the request
envelope of chapter 17, and the scheduler of chapter 02 (acceptance, places, lateness, firing). -/

namespace Sys2Proof.Machine

/-! ### Objects -/

/-- The value of an object: the one listed, or its Default (R3). -/
def Device.get (d : Device) (o : Obj) : Nat := tblGetD d.dict o.ref o.dflt

/-- Writes an object's value, cut to its width. -/
def Device.set (d : Device) (o : Obj) (v : Nat) : Device :=
  { d with dict := tblSet d.dict o.ref (v % 2 ^ o.width) o.dflt }

/-- The value of an object as a signed number. -/
def Device.getI (d : Device) (o : Obj) : Int := toSigned o.width (d.get o)

/-- Writes a signed value in two's complement. -/
def Device.setI (d : Device) (o : Obj) (i : Int) : Device := d.set o (ofSigned o.width i)

/-- An object that is a flag: its value is not 0. -/
def Device.on (d : Device) (o : Obj) : Bool := d.get o != 0

/-- Sets or clears bit k of an object. -/
def Device.setBit (d : Device) (o : Obj) (k : Nat) (b : Bool) : Device := d.set o (withBit (d.get o) k b)

/-- A counter moves up by n. What it holds past its top the spec does not say: a free value (assumption 4). -/
def Device.count (d : Device) (o : Obj) (n : Nat) : Device :=
  if d.get o + n < 2 ^ o.width then d.set o (d.get o + n)
  else { d.set o (Config.counterPastTop d.free) with free := d.free + 1 }

/-- A counter moves up by 1. -/
def Device.bump (d : Device) (o : Obj) : Device := d.count o 1

/-- The bytes of a DOMAIN that the dictionary holds as written. -/
def Device.dom (d : Device) (ref : Nat) : List Nat := tblGetD d.doms ref []

/-- Writes the bytes of a DOMAIN; an empty value is not listed. -/
def Device.setDom (d : Device) (ref : Nat) (bs : List Nat) : Device := { d with doms := tblSet d.doms ref bs [] }

/-- The device sends something: the outputs of the command in their order. -/
def Device.send (d : Device) (o : Out) : Device := { d with out := d.out ++ [o] }

/-- Applies f for every element of a list, in order. -/
def Device.each {α : Type} (d : Device) (l : List α) (f : α → Device → Device) : Device := l.foldl (fun x a => f a x) d

/-- The element of carrier c. -/
def Pair.at {α : Type} (p : Pair α) (c : Nat) : α := if c = 0 then p.c0 else p.c1

/-- The pair with the element of carrier c replaced. -/
def Pair.put {α : Type} (p : Pair α) (c : Nat) (x : α) : Pair α := if c = 0 then { p with c0 := x } else { p with c1 := x }

/-! ### Common block objects (R433) -/

/-- The common block index of the block an index belongs to (Tables 18.1, 18.4, 18.9); 0 for indices of no block. -/
def blockOf (idx : Nat) : Nat :=
  if blockIndices.contains idx then idx
  else if idx < 0x2000 then 0
  else if idx < 0x2040 then 0x27F0
  else if idx < 0x2060 then 0x27F1
  else if idx < 0x2080 then 0x27F2
  else if idx < 0x2800 then 0x27F3
  else if idx < 0x3000 then 0x2FF0
  else if idx < 0x4000 then 0x3FF0
  else if idx < 0x5000 then 0x4FF0
  else if idx < 0x5800 then 0x57F0
  else if idx < 0x6000 then 0x5FF0
  else if idx < 0x7000 then 0x6FF0
  else if idx < 0x8000 then 0x7FF0
  else if idx < 0x9000 then 0x8FF0
  else if idx < 0xA000 then 0x9FF0
  else if idx < 0xB000 then 0xAFF0
  else if idx < 0xC000 then 0xBFF0
  else if idx < 0xF000 then 0
  else 0xFFF0

/-- _BLK_STATE, _BLK_FAULTS, _BLK_NOTICES, _BLK_LAST_SEQ, _BLK_POWER and _BLK_CHANGED of a block (Table 18.3). -/
def blkState (b : Nat) : Obj := ⟨b * 256 + 2, 8, 0, false⟩
def blkFaults (b : Nat) : Obj := ⟨b * 256 + 3, 8, 0, false⟩
def blkNotices (b : Nat) : Obj := ⟨b * 256 + 4, 64, 0, false⟩
def blkLastSeq (b : Nat) : Obj := ⟨b * 256 + 5, 64, 0, false⟩
def blkPower (b : Nat) : Obj := ⟨b * 256 + 6, 8, 3, false⟩
def blkChanged (b : Nat) : Obj := ⟨b * 256 + 7, 1, 0, false⟩

/-- Latches a bit of a block's _BLK_FAULTS. -/
def Device.blockFault (d : Device) (b k : Nat) : Device := d.setBit (blkFaults b) k true

/-! ### Block counters (R448 to R450) -/

/-- Fields of a counter control word (Table 19.1). -/
def ctrlEnable (w : Nat) : Bool := bitAt w 31
def ctrlEvent (w : Nat) : Nat := bits w 27 16
def ctrlInstance (w : Nat) : Nat := bits w 15 0

/-- Fabric clocks of a calendar cycle: 12.8 µs at 1.6 GHz. -/
def clocksPerCycle : Nat := 20480

/-- A counter adds n, modulo 2^48; a wrap sets WRAPPED (R448). -/
def Device.addCnt (d : Device) (block k n : Nat) : Device :=
  let v := d.get (Reg.telCnt block k) + min n (65535 * clocksPerCycle)
  let d := d.set (Reg.telCnt block k) (v % 2 ^ 48)
  if 2 ^ 48 ≤ v then d.setBit (Reg.telCntCtrl block k) 30 true else d

/-- A counter of a block is enabled and counts an event of an instance, under a control write in effect (R449, R450). -/
def Device.cntTakes (d : Device) (block k ev inst : Nat) : Bool :=
  let w := d.get (Reg.telCntCtrl block k)
  ctrlEnable w && ctrlEvent w == ev && (decide (ev ≤ 2) || ctrlInstance w == 0xFFFF || ctrlInstance w == inst) && !d.tel.ctrlWaits.contains (8 * block + k)

/-- One event of Table 19.2 at a block, by its index: the counters that select it count it (R448). -/
def Device.countEvent (d : Device) (b ev inst : Nat) : Device :=
  match blockIndices.findIdx? (· == b) with
  | none => d
  | some n => d.each (List.range 8) (fun k x => if x.cntTakes n k ev inst then x.addCnt n k 1 else x)

/-- Bytes that pass a fabric port join its bandwidth window: keys 0x00 to 0x41 into the fabric, plus 0x80 out of it (R459). -/
def Device.countBytes (d : Device) (key : Nat) (n : Int) : Device :=
  if n = 0 then d else { d with tel := { d.tel with bwBytes := tblPut d.tel.bwBytes key (tblGetD d.tel.bwBytes key 0 + n) } }

/-- The bytes of slice blocks that are neither fill nor poisoned, 16 each (R459). -/
def sliceBytes (l : List SliceBlock) : Nat := 16 * (l.filter (fun b => b.data != 0 && !b.poison)).length

/-- A consumer of Table 10.6 meets poisoned data: its row is counted, and its block's _BLK_FAULTS bit [1] latches (R256, R433, R449). -/
def Device.consumed (d : Device) (row block : Nat) : Device :=
  ((d.bump (Reg.memPoisonConsumed (row - 1))).blockFault block 1).countEvent block 5 row

/-! ### Instants -/

/-- An instant has come: it lies before the end of the running calendar cycle (assumption 158). -/
def Device.comes (d : Device) (t : Nat) : Bool := decide (t < nextMultiple fuCycle d.now)

/-- Device time at an instant that has come. -/
def Device.moveTo (d : Device) (t : Nat) : Device := { d with now := max d.now t }

/-- What the control core handles waits for the end of a resynchronisation gap (R67, R102, R173, R210, R241, R294, R316, R337, R382, R403, R428; assumption 165). -/
def Device.afterGap (d : Device) : Device := d.moveTo d.twin.gapEnd

/-! ### Sequence numbers (R31 to R33) -/

/-- An event takes effect under its sequence number: the next one the arbiter has given, or, where none waits, the number
one above the latest given. -/
def Device.takeSeq (d : Device) : Device :=
  match d.sched.granted with
  | n :: r => { d with sched := { d.sched with granted := r, cur := n } }
  | [] =>
    let n := d.sched.lastSeq + 1
    let d := { d with sched := { d.sched with lastSeq := n, cur := n } }
    d.set Reg.schedLastSeq n

/-- An event that the control core handles takes effect under its number after a gap. -/
def Device.coreSeq (d : Device) : Device := d.afterGap.takeSeq

/-- A stale timer expiry: numbered, discarded, counted (R32). -/
def Device.stale (d : Device) : Device := d.bump Reg.schedStaleCount

/-- The device serves no one and nothing of it runs: reset, or boot before an image is proved (R463, R467). -/
def Device.dead (d : Device) : Bool :=
  match d.phase with
  | .reset => true
  | .boot => true
  | _ => false

/-- Requests receive an answer (R342, R463, R468). -/
def Device.serves (d : Device) : Bool :=
  match d.phase with
  | .running => true
  | .recovery => true
  | _ => false

/-! ### Groups of a carrier and their overhead slots (R125, R132) -/

/-- The group layout in force: C0's while bonded (R126), every subcarrier its own port in hub mode (R151). -/
def Device.groupMask (d : Device) (c : Nat) : Nat :=
  if d.on Reg.frmBondMode then d.get (Reg.frmGroups 0)
  else if d.on (Reg.hubEnable c) then 0xFFFF
  else d.get (Reg.frmGroups c)

/-- The first subcarriers of the carrier's groups, ascending. -/
def Device.groups (d : Device) (c : Nat) : List Nat := (List.range 16).filter (fun k => bitAt (d.groupMask c) k)

/-- The carrier whose loading objects govern: C0's while bonded (R92). -/
def Device.loadCarrier (d : Device) (c : Nat) : Nat := if d.on Reg.frmBondMode then 0 else c

/-- Puts a message into the slots of its class on given groups of a carrier. -/
def Device.post (d : Device) (c : Nat) (m : SlotMsg) : Device :=
  { d with frm := d.frm.put c { d.frm.at c with slots := (d.frm.at c).slots ++ [m] } }

/-- Withdraws the messages of a carrier that p names. -/
def Device.unpost (d : Device) (c : Nat) (p : SlotMsg → Bool) : Device :=
  { d with frm := d.frm.put c { d.frm.at c with slots := (d.frm.at c).slots.filter (fun m => !p m) } }

/-! ### Messages as bytes (R5, R408, R420, R423) -/

def halfEmpty : KeyHalf := ⟨0, 0, 0⟩
def pairNew : KeyPair := ⟨halfEmpty, halfEmpty, 0, false⟩
def Device.pair (d : Device) (p : Nat) : KeyPair := tblGetD d.sec.pairs p pairNew

/-- UNIT of the device in a twin pair, else 0 (Table 13.2). -/
def Device.unitBit (d : Device) : Nat := if d.twin.enabled then d.get Reg.twinUnit else 0

/-- An IV (Table 13.2). -/
def ivOf (carrier first cg end_ unit epoch counter : Nat) : Nat :=
  carrier * 2 ^ 95 + first * 2 ^ 91 + cg * 2 ^ 79 + end_ * 2 ^ 73 + unit * 2 ^ 72 + epoch * 2 ^ 64 + counter

/-- The session's messages carry tags and COUNTERs (R423). -/
def Session.counted (s : Session) : Bool := decide (2 ≤ s.level) && !s.limited

/-- The Current half of the pair named for a level (R423). -/
def Device.authKey (d : Device) (level : Nat) : KeyHalf := (d.pair (d.get (Reg.eopAuthPair (if level = 3 then 1 else 0)))).cur

/-- The tag over the bytes of a message of a session, from the host (end_ 0) or the device (1); 0 for the OPEN exchange (R423). -/
def Device.eopTag (d : Device) (level session end_ counter : Nat) (bytes : List Nat) : Nat :=
  let h := d.authKey level
  gcmTag h.key (ivOf 0 0 (0xC00 + session) end_ d.unitBit h.epoch counter) (padBlocks bytes) (8 * bytes.length) [] 0

/-- A tagged message carries the right tag under the pair named for its level. -/
def Device.tagRight (d : Device) (level session : Nat) (q : Req) : Bool :=
  q.tagged && (d.authKey level).state == 2 && q.tag.toNat == d.eopTag level session 0 q.counter.toNat (q.bytes.map (·.toNat))

/-- The header of a message that the device sends (Table 17.1); `kind`: RESP and NOTICE; a COUNTER where it is tagged. -/
def eopHeader (kind service status session reqId length : Nat) (counter : Option Nat) : Nat :=
  2 ^ 124 + kind * 2 ^ 122 + b2n counter.isSome * 2 ^ 121 + service * 2 ^ 112 + status * 2 ^ 104 + session * 2 ^ 80 + reqId * 2 ^ 64 + length * 2 ^ 48 +
    counter.getD 0

/-- The level and the COUNTER under which a message of a session leaves, where its messages are tagged. -/
def Device.tagsOf (d : Device) (session transport addr : Nat) : Option (Nat × Nat) :=
  (d.eop.sessions.find? (fun s => s.num == session && s.transport == transport && s.addr == addr && s.counted)).map (fun s => (s.level, s.lastOut))

/-- The same of the answer to an OPEN: under SESSION 0 with B, which opens the session that its body names. -/
def Device.openTags (d : Device) (r : Resp) : Option (Nat × Nat) :=
  if r.service = 6 ∧ r.session = 0 ∧ r.status = 0 ∧ r.body.length = 8 then
    (d.eop.sessions.find? (fun s => s.num == r.body.getD 1 0 && s.counted)).map (fun s => (s.level, s.base))
  else none

/-- A message's bytes: header, body, and the tag over both where it is tagged. -/
def Device.eopBytes (d : Device) (kind service status session reqId : Nat) (body : List Nat) (tags : Option (Nat × Nat)) : List Nat :=
  let m := beBytes 16 (eopHeader kind service status session reqId body.length (tags.map (·.2))) ++ body
  match tags with
  | none => m
  | some t => m ++ beBytes 16 (d.eopTag t.1 session 1 t.2 m)

/-- The bytes of a response. -/
def Device.respBytes (d : Device) (r : Resp) : List Nat :=
  d.eopBytes 2 r.service r.status r.session r.reqId r.body (if r.session = 0 then d.openTags r else d.tagsOf r.session r.transport r.addr)

/-- A reference in a body (Table 17.4). -/
def refBytes (ref : Nat) : List Nat := beBytes 4 (ref * 256)

/-- The bytes of an object's value; a DOMAIN's go by BLOCK alone. -/
def valueBytes (ref v : Nat) : List Nat :=
  match rowOf ref with
  | some r => if r.ty = tyDomain then [] else beBytes (rowObj r ref).bytes v
  | none => []

/-- The body of a notice (R420); a snapshot group's holds the record (R453). -/
def noticeBytes (n : Notice) : List Nat :=
  beBytes 8 n.seq ++ beBytes 12 (fuToTime96 n.time) ++ beBytes 1 n.sub ++ beBytes 2 n.lost ++ refBytes n.ref ++
    (match n.body with
     | .value v => valueBytes n.ref v
     | .event l => if 0x9200 ≤ n.ref / 256 ∧ n.ref / 256 ≤ 0x921F then l else Config.eventContent n.ref l)

/-- The bytes of a message. -/
def Msg.bytes : Msg → List Nat
  | .resp _ b => b
  | .notice _ b => b

/-- A notice with its bytes. -/
def Device.noticeMsg (d : Device) (n : Notice) : Msg :=
  .notice n (d.eopBytes 1 4 0 n.session 0 (noticeBytes n) (d.tagsOf n.session n.transport n.addr))

/-- The group of a carrier that line messages use: the lowest with a non-zero code (R412). -/
def Device.lineGroup (d : Device) (c : Nat) : Option Nat :=
  match (List.range 16).find? (fun k => d.get (Reg.lineTxLoad c k) != 0) with
  | none => none
  | some k => ((List.range (k + 1)).reverse).find? (fun g => bitAt (d.groupMask c) g)

/-- The segments of a message (Table 17.5): 58 bytes each, from INDEX i. Fuel bounds their number. -/
def lineSegments (msg : Nat) : Nat → Nat → List Nat → List Nat
  | 0, _, _ => []
  | f + 1, i, bs =>
    let last := decide (bs.length ≤ 58)
    (0x40 * 2 ^ 504 + b2n (i == 0) * 2 ^ 503 + b2n last * 2 ^ 502 + msg % 65536 * 2 ^ 480 + i * 2 ^ 464 + ofBytes ((bs ++ List.replicate 58 0).take 58)) ::
      (if last then [] else lineSegments msg f (i + 1) (bs.drop 58))

/-- A message goes out on the line to the far end of a carrier (128) or to a leaf: each segment in the next free slot of its class on the group of R412, or on
the leaf's downstream subcarrier. -/
def Device.sendLine (d : Device) (c leaf : Nat) (bytes : List Nat) : Device :=
  let m := d.eop.nextMsgId
  let g := if leaf < 128 then some (d.get (Reg.hubLeafDsSc (c * 128 + leaf))) else d.lineGroup c
  let d := ({ d with eop := { d.eop with nextMsgId := (m + 1) % 65536 } }).send (.lineEop c leaf m)
  match g with
  | some g => if g < 16 then d.each (lineSegments m bytes.length 0 bytes) (fun w x => x.post c ⟨3, [g], false, 0, w⟩) else d
  | none => d

/-- A message leaves: over SPI it waits to be read, elsewhere it goes out on its transport, on the line in segments (R409, R410, R412). -/
def Device.dispatch (d : Device) (transport addr : Nat) (m : Msg) (bytes : List Nat) : Device :=
  if transport = 1 then { d with eop := { d.eop with spiOut := d.eop.spiOut ++ [m] } }
  else
    let d := d.send (.message m)
    if transport = 3 then d.sendLine (addr / 256 % 2) (addr % 256) bytes else d

/-! ### Notices (R420) -/

/-- Where a subscription's notices go. -/
def sameOwner (a b : Subscription) : Bool :=
  a.session == b.session && (a.session != 0 || (a.transport == b.transport && a.addr == b.addr))

/-- The subscription covers the index of a reference. -/
def covers (s : Subscription) (ref : Nat) : Bool := decide (s.first ≤ ref / 256 ∧ ref / 256 ≤ s.last)

/-- A notice of a session or address waits in the SPI queue. -/
def noticeWaits (s : Subscription) (m : Msg) : Bool :=
  match m with
  | .notice n _ => n.session == s.session && n.transport == s.transport && n.addr == s.addr
  | .resp _ _ => false

/-- Takes the LOST count of an owner, leaving 0. -/
def takeLost (s : Subscription) (l : List LostCount) : Nat × List LostCount :=
  (((l.find? (fun x => x.session == s.session && x.transport == s.transport && x.addr == s.addr)).map (·.count)).getD 0,
   l.filter (fun x => !(x.session == s.session && x.transport == s.transport && x.addr == s.addr)))

/-- BLOCK transfers for which p does not hold end; the ring is held while a transfer of TEL_RING_DATA is open (R421, R455). -/
def Device.keepTransfers (d : Device) (p : Transfer → Bool) : Device :=
  let l := d.eop.transfers.filter p
  { d with
    eop := { d.eop with transfers := l }
    tel := { d.tel with reading := if l.any (fun t => t.ref == Reg.telRingData.ref) then d.tel.reading else none } }

/-- Sessions for which p does not hold end, with their subscriptions and transfers (R420 to R422). -/
def Device.keepSessions (d : Device) (p : Session → Bool) : Device :=
  let gone := (d.eop.sessions.filter (fun s => !p s)).map (·.num)
  if gone.isEmpty then d
  else
    ({ d with eop := { d.eop with
        sessions := d.eop.sessions.filter p
        subs := d.eop.subs.filter (fun s => !gone.contains s.session)
        lost := d.eop.lost.filter (fun x => !gone.contains x.session) } }).keepTransfers (fun t => !gone.contains t.session)

/-- A message leaves for a session: its COUNTER towards the host rises; a session whose COUNTER would pass B + 2^32 − 1 ends (R423). -/
def Device.countOut (d : Device) (num : Nat) : Device :=
  let up : List Session := d.eop.sessions.map (fun s : Session => if s.num = num ∧ s.counted then { s with lastOut := s.lastOut + 1 } else s)
  ({ d with eop := { d.eop with sessions := up } } : Device).keepSessions
    (fun s => !(s.num == num && s.counted && decide (s.base + 2 ^ 32 ≤ s.lastOut)))

/-- Sends one notice to the owner of a subscription: over SPI it waits to be read, on the other transports it leaves at once.
A notice that finds 256 waiting is dropped and counted in LOST of the next one. -/
def Device.noticeTo (d : Device) (s : Subscription) (ref : Nat) (b : NoticeBody) : Device :=
  let lost := takeLost s d.eop.lost
  if s.transport = 1 ∧ 256 ≤ (d.eop.spiOut.filter (noticeWaits s)).length then
    { d with eop := { d.eop with lost := ⟨s.session, s.transport, s.addr, lost.1 + 1⟩ :: lost.2 } }
  else
    let n : Notice := ⟨s.transport, s.addr, s.session, d.sched.cur, d.now, s.num, lost.1, ref, b⟩
    let d := ({ d with eop := { d.eop with lost := lost.2 } }).countOut s.session
    let m := d.noticeMsg n
    d.dispatch s.transport s.addr m m.bytes

/-- A block raises a notice: it counts in the block's common objects, and the event among those the block raised (R433, R449). -/
def Device.blockNoticed (d : Device) (ref : Nat) : Device :=
  let b := blockOf (ref / 256)
  if b = 0 then d
  else
    let d := if d.get (blkLastSeq b) = d.sched.cur then d else d.countEvent b 2 0
    (d.bump (blkNotices b)).set (blkLastSeq b) d.sched.cur

/-- An event notice about an object, to every subscription that covers it. -/
def Device.notice (d : Device) (o : Obj) (fields : List Nat) : Device :=
  (d.blockNoticed o.ref).each (d.eop.subs.filter (covers · o.ref)) (fun s x => x.noticeTo s o.ref (.event fields))

/-- The first subscription of each owner. -/
def firstPerOwner : List Subscription → List Subscription → List Subscription
  | _, [] => []
  | seen, s :: r => if seen.any (sameOwner s) then firstPerOwner seen r else s :: firstPerOwner (s :: seen) r

/-- A notice about SCHED_LIST and about the object an action's TARGET names: once to every owner with a subscription
covering either (R37). -/
def Device.noticeEither (d : Device) (ref : Nat) (fields : List Nat) : Device :=
  let subs := firstPerOwner [] (d.eop.subs.filter (fun s => covers s Reg.schedList.ref || (ref != 0 && covers s ref)))
  (d.blockNoticed Reg.schedList.ref).each subs
    (fun s x => x.noticeTo s (if ref = 0 then Reg.schedList.ref else ref) (.event fields))

/-- The references whose values differ between two tables. -/
def changedRefs {α : Type} [DecidableEq α] (a b : List (Nat × α)) : List Nat :=
  ((a ++ b.filter (fun e => (tblGet a e.1).isNone)).map (·.1)).filter (fun r => decide (tblGet a r ≠ tblGet b r))

/-- Replaces a subscription. -/
def Device.putSub (d : Device) (s : Subscription) : Device :=
  { d with eop := { d.eop with subs := d.eop.subs.map (fun x => if sameOwner x s && x.num == s.num then s else x) } }

/-- A value change of an object under one subscription: sent at once, or kept until the spacing of that object ends (R420). -/
def Device.changeTo (d : Device) (s : Subscription) (ref v : Nat) : Device :=
  if s.spaced.contains ref then
    if s.waiting.contains ref then d else d.putSub { s with waiting := s.waiting ++ [ref] }
  else (d.putSub { s with spaced := s.spaced ++ [ref] }).noticeTo s ref (.value v)

/-- Value changes, each a reference with its latest value, go to the subscriptions that cover them (R420). -/
def Device.tell (d : Device) (l : List (Nat × Nat)) : Device :=
  d.each l (fun e x => x.each (x.eop.subs.filter (covers · e.1)) (fun s y => y.changeTo s e.1 e.2))

/-! ### Statuses (Table 17.6) and error details (Table 17.10) -/

def stSuccess : Nat := 0x00
def stInvalidValue : Nat := 0x01
def stInvalidCombination : Nat := 0x02
def stNotPermitted : Nat := 0x03
def stInUse : Nat := 0x04
def stDenied : Nat := 0x05
def stNoObject : Nat := 0x06
def stWrongType : Nat := 0x07
def stBakePast : Nat := 0x08
def stBakeFar : Nat := 0x09
def stSchedFull : Nat := 0x0A
def stArmed : Nat := 0x0B
def stTableFull : Nat := 0x0C
def stUncorrectable : Nat := 0x0D
def stBusy : Nat := 0x0E
def stSession : Nat := 0x0F
def stMalformed : Nat := 0x10
def stNoRoute : Nat := 0x11
def stTimeout : Nat := 0x12
def stUseBlock : Nat := 0x13

/-- An error with no owner to name: KIND 0, MEMBER none. -/
def err (status : Nat) : Err := ⟨status, 0, 255, 0⟩

/-- An error naming an object as owner: KIND 1. -/
def errObj (status ref : Nat) : Err := ⟨status, 1, 255, ref * 2 ^ 24⟩

/-- An error naming an action by its handle: KIND 2. -/
def errAct (status handle : Nat) : Err := ⟨status, 2, 255, handle⟩

/-- An error naming a session: KIND 3; KIND 0 for a holder without one. -/
def errSess (status session : Nat) : Err := if session = 0 then err status else ⟨status, 3, 255, session⟩

/-- An error naming a count: KIND 4. -/
def errCount (status n : Nat) : Err := ⟨status, 4, 255, n⟩

/-- The 8 bytes of an error detail. -/
def errBytes (e : Err) : List Nat := beBytes 1 e.kind ++ beBytes 1 e.member ++ beBytes 6 e.ref

/-! ### The request envelope (R408, R409, R413, R422 to R425) -/

/-- What a service answers: a body, an error, or nothing yet (a response withheld, R357, R417, R477). -/
inductive Reply where
  | ok (body : List Nat)
  | fail (e : Err)
  | later
deriving DecidableEq, Repr

/-- A response leaves, back over its transport (R409). -/
def Device.emit (d : Device) (r : Resp) : Device := d.dispatch r.transport r.addr (.resp r (d.respBytes r)) (d.respBytes r)

/-- Keeps a response among the last 16 of its session (R425) and raises the session's COUNTER towards the host (R423). -/
def Device.keepResp (d : Device) (r : Resp) : Device :=
  let kept : List Session := d.eop.sessions.map (fun s : Session =>
    if s.num = r.session then { s with cache := (s.cache ++ [r]).drop ((s.cache.length + 1) - 16) } else s)
  ({ d with eop := { d.eop with sessions := kept } } : Device).countOut r.session

/-- The response to a request. -/
def respOf (q : Req) (svc status : Nat) (body : List Nat) : Resp :=
  ⟨q.transport.val, q.addr, svc, q.session.toNat, q.reqId.toNat, status, body⟩

/-- Sends a reply to a request. -/
def Device.reply (d : Device) (q : Req) (svc : Nat) (r : Reply) : Device :=
  match r with
  | .ok b => (d.keepResp (respOf q svc stSuccess b)).emit (respOf q svc stSuccess b)
  | .fail e => (d.keepResp (respOf q svc e.status (errBytes e))).emit (respOf q svc e.status (errBytes e))
  | .later => d

/-- The session a request names, if it is open and of the request's transport and address (R422). -/
def Device.sessionOf (d : Device) (q : Req) : Option Session :=
  d.eop.sessions.find? (fun s => s.num == q.session.toNat && s.transport == q.transport.val && s.addr == q.addr)

/-- A message of an installer or vendor session passes: tagged, its tag right, its COUNTER above the last and within the
2^32 of its base (R423); the untagged installer session of R424 carries no tag. -/
def Device.tagPasses (d : Device) (s : Session) (q : Req) : Bool :=
  if s.level < 2 || s.limited then true
  else d.tagRight s.level s.num q && decide (s.lastIn < q.counter.toNat ∧ q.counter.toNat < s.base + 2 ^ 32)

/-- The COUNTER of a tagged message would pass the last of its session (R423). -/
def Device.pastLast (d : Device) (s : Session) (q : Req) : Bool := s.counted && d.tagRight s.level s.num q && decide (s.base + 2 ^ 32 ≤ q.counter.toNat)

/-- The privilege a request runs at, or the status that refuses it. Tag or counter failures are counted; a session whose COUNTER
would pass its last ends (R423). -/
def Device.vet (d : Device) (q : Req) : Device × Except Err (Nat × Bool) :=
  if q.session = 0 then (d, .ok (0, false))
  else
    match d.sessionOf q with
    | none => (d, .error (err stSession))
    | some s =>
      if d.tagPasses s q then
        ({ d with eop := { d.eop with sessions := d.eop.sessions.map (fun x =>
            if x.num = s.num then { x with lastIn := max x.lastIn q.counter.toNat } else x) } },
         .ok (s.level, s.limited))
      else if d.pastLast s q then (d.keepSessions (fun x => x.num != s.num), .error (err stSession))
      else (d.bump Reg.eopTagFails, .error (err stSession))

/-- The earlier response a request repeats (R425). -/
def Device.repeated (d : Device) (q : Req) : Option Resp :=
  if q.session = 0 then none
  else
    match d.sessionOf q with
    | none => none
    | some s => s.cache.find? (fun r => r.reqId == q.reqId.toNat)

/-- The write level of Table 18.1 at an index. -/
def rangeLevel (idx : Nat) : Nat :=
  if 0x6000 ≤ idx ∧ idx < 0x8000 then 2 else if 0xF000 ≤ idx then 2 else 1

/-- The read level of Table 17.9 at an index. -/
def readLevel (idx : Nat) : Nat := if 0x6000 ≤ idx ∧ idx < 0x7000 then 1 else 0

/-- What a limited installer session may write (R424). -/
def limitedMay (ref : Nat) : Bool :=
  [Reg.secKeySelect.ref, Reg.secKeyWrite.ref, Reg.secRoll.ref].contains ref

/-- What recovery serves (R468): the objects at 0x1000, 0xB000 and 0xB002 over SPI and 10BASE-T1S; of writes, PWR_IMG_DATA. -/
def recoveryServes (q : Req) (writing : Bool) (ref : Nat) : Bool :=
  decide (q.transport.val ≤ 1) &&
    (if writing then ref == Reg.pwrImgData.ref else [0x1000, 0xB000, 0xB002].contains (ref / 256))

/-- The group of a carrier that line messages use is in Sync (R412, R413). -/
def Device.lineUp (d : Device) (c : Nat) : Bool := (d.lineGroup c).any (fun g => d.get (Reg.frmAlignState c g) == 4)

/-- A request as it is sent on: its bytes with ROUTE 0, and its tag. -/
def forwardBytes (q : Req) : List Nat :=
  let bs := q.bytes.map (·.toNat)
  bs.take 3 ++ ((bs.drop 3).take 1).map (· % 16) ++ bs.drop 4 ++ (if q.tagged then beBytes 16 q.tag.toNat else [])

/-- A forwarded request goes out over the line with ROUTE 0, or is answered "route unavailable" at once (R413). A leaf is
reached while it is Active (3) or Dozing (5) (Table 7.8). -/
def Device.forward (d : Device) (q : Req) (svc : Nat) : Device :=
  let c := (q.route.val - 1) % 2
  let leaf := if 3 ≤ q.route.val then q.leaf.toNat else 128
  let up := if 3 ≤ q.route.val then
      [3, 5].contains (d.get (Reg.hubLeafState (c * 128 + leaf % 128)))
    else d.lineUp c
  if up then
    let f : Forward := ⟨d.eop.nextMsgId, q.transport.val, q.addr, svc, q.session.toNat, q.reqId.toNat⟩
    ({ d with eop := { d.eop with forwards := d.eop.forwards ++ [f] } }).sendLine c leaf (forwardBytes q)
  else d.emit (respOf q svc stNoRoute (errBytes (err stNoRoute)))

/-- The client port of a message on transport 2: its address is the port times 2^48 plus the MAC address it came from. -/
def vlanPort (q : Req) : Nat := q.addr / 2 ^ 48 % 32

/-- A frame of a client VLAN is taken out as EOP only on a packet-mode port whose bit of EOP_VLAN_PORTS is set (Table 17.2). -/
def Device.vlanTakes (d : Device) (q : Req) : Bool :=
  d.get (Reg.pktPortMode (vlanPort q)) == 1 && bitAt (d.get Reg.eopVlanPorts) (vlanPort q)

/-- Frames a port has taken since the last PPS boundary. -/
def Device.vlanTaken (d : Device) (q : Req) : Nat := tblGetD d.eop.vlanCount (vlanPort q) 0

/-- The request never reaches the service: nothing answers (R342, R463, R468), or its frame is no EOP frame. -/
def Device.unheard (d : Device) (q : Req) : Bool :=
  !d.serves || (d.phase == .recovery && decide (1 < q.transport.val)) || (q.transport.val == 2 && !d.vlanTakes q)

/-- The excess over 10 000 frames per client port and second is dropped (Table 17.2). -/
def Device.vlanFull (d : Device) (q : Req) : Bool := q.transport.val == 2 && decide (10000 ≤ d.vlanTaken q)

/-- A frame taken from a client port counts. -/
def Device.countVlan (d : Device) (q : Req) : Device :=
  if q.transport.val = 2 then { d with eop := { d.eop with vlanCount := tblPut d.eop.vlanCount (vlanPort q) (d.vlanTaken q + 1) } } else d

/-- Serves one request: no answer in reset or a control restart; forwarding; "busy" beyond 4 waiting; the session, the tag
and the privilege; a repeated REQ_ID; then the service itself, whose answer leaves. -/
def Device.serve (d : Device) (q : Req) (svc level : Nat) (writing : Bool) (ref : Nat)
    (f : Nat → Device → Device × Reply) : Device :=
  if d.unheard q then d
  else if d.vlanFull q then d.bump Reg.eopBusy
  else
    let d := (d.countVlan q).coreSeq
    if 4 ≤ q.waiting then (d.bump Reg.eopBusy).reply q svc (.fail (err stBusy))
    else if q.route.val ≠ 0 then d.forward q svc
    else if d.phase == .recovery && !(q.session == 0 && recoveryServes q writing ref) then
      d.reply q svc (.fail (err stNotPermitted))
    else
      match d.vet q with
      | (d, .error e) => (if (d.sessionOf q).isSome then d.countOut q.session.toNat else d).emit (respOf q svc e.status (errBytes e))
      | (d, .ok (lvl, limited)) =>
        match d.repeated q with
        | some r => (d.countOut r.session).emit r
        | none =>
          if decide (lvl < level) && d.phase != .recovery then d.reply q svc (.fail (err stDenied))
          else if limited && writing && !limitedMay ref then d.reply q svc (.fail (err stDenied))
          else
            let r := f lvl d
            r.1.reply q svc r.2

/-! ### The scheduler (R22 to R37) -/

/-- The code of a kind (Table 2.2). -/
def kindCode : ActKind → Nat
  | .calendar => 0 | .lineC0 => 1 | .lineC1 => 2 | .pps => 3

/-- The code of an origin (Table 2.6). -/
def originCode : Origin → Nat
  | .host => 0 | .device => 1 | .mirror => 2 | .line => 3

/-- The carrier whose transmit frame clock times a line-frame kind. -/
def kindCarrier : ActKind → Option Nat
  | .lineC0 => some 0 | .lineC1 => some 1 | _ => none

/-- The line-frame kind of a carrier; while the carriers are bonded C0's clock times both (R22). -/
def Device.lineKind (d : Device) (c : Nat) : ActKind :=
  if c = 0 ∨ d.on Reg.frmBondMode then .lineC0 else .lineC1

/-- The transmit frame clock of a carrier ticks at every calendar boundary while its transmit state is Off or every code is 0
(R130). -/
def Device.tickIsCalendar (d : Device) (c : Nat) : Bool :=
  d.get (Reg.lineTxState c) == 0 || (List.range 16).all (fun k => d.get (Reg.lineTxLoad c k) == 0)

/-- The first boundary of a kind at or after t (R22). Ticks of a running frame clock have no stated phase: a free function of
the carrier, its last tick and t (assumption 12). -/
def Device.boundaryAt (d : Device) (k : ActKind) (t : Nat) : Nat :=
  match k with
  | .calendar => ceilTo fuCycle t
  | .pps => ceilTo fuSec t
  | .lineC0 => if d.tickIsCalendar 0 then ceilTo fuCycle t else max t (Config.frameTick 0 (d.frm.at 0).tickAt t)
  | .lineC1 => if d.tickIsCalendar 1 then ceilTo fuCycle t else max t (Config.frameTick 1 (d.frm.at 1).tickAt t)

/-- The bake time of an action in fu; all zeros: as soon as possible (R26). -/
def bakeFu (a : Action) : Nat := if a.bake = 0 then 0 else time96ToFu a.bake

/-- The first eligible boundary: at or after the bake time, its arming point after the acceptance and after any resource it
waits for is ready (R22, R24, R35). -/
def Device.eligible (d : Device) (a : Action) : Nat :=
  d.boundaryAt a.kind (max (bakeFu a) (max a.acceptAt a.notBefore + fuArm + 1))

/-- The action is late: its first eligible boundary comes after the one its bake time alone gives (R25). Never with an
all-zero bake time (R26). -/
def Device.isLate (d : Device) (a : Action) : Bool :=
  a.bake != 0 && decide (d.boundaryAt a.kind (bakeFu a) < d.eligible a)

/-- Ranges of TWIN_LOCAL_LIST, kept unit-local: pairs of U16 first and last index. -/
def Device.unitLocal (d : Device) (idx : Nat) : Bool :=
  (recordsOf 4 (d.dom Reg.twinLocalList.ref)).any (fun r => decide (r / 65536 ≤ idx ∧ idx ≤ r % 65536))

/-- Display selectors, never mirrored (Table 14.4). -/
def displaySelectors : List Nat :=
  [Reg.fabGrpSelect.ref, Reg.pktPortSelect.ref, Reg.pktQSelect.ref, Reg.secKeySelect.ref, Reg.pktFlowLookup.ref]

/-- The WO objects of the mirrored ranges that store (Table 14.4): FAB_MAP_REVERT, PKT_FLOW_EDIT, SEC_KEY_WRITE, SEC_ERASE. -/
def storingWo : List Nat := [Reg.fabMapRevert.ref, Reg.pktFlowEdit.ref, Reg.secKeyWrite.ref, Reg.secErase.ref]

/-- RW and RWS objects; WO ones that store. -/
def mirrorAccess (ref : Nat) : Bool :=
  match rowIn objRows ref with
  | some r => r.access == .rw || r.access == .rws || storingWo.contains ref
  | none => false

/-- The object belongs to the mirror set (Table 14.4). -/
def Device.mirrored (d : Device) (ref : Nat) : Bool :=
  decide (0x2000 ≤ ref / 256 ∧ ref / 256 ≤ 0x6FFF) && !displaySelectors.contains ref && !d.unitLocal (ref / 256) && mirrorAccess ref

/-- The action counts in the mirrored share of the host pool (R27). -/
def Device.actMirrored (d : Device) (a : Action) : Bool :=
  if a.cls = 0x0009 then a.members.any (fun m => d.mirrored m.ref) else d.mirrored a.target

/-- The pending or armed entry or wake of a resource. -/
def Device.powerAction (d : Device) (r : Nat) : Option Action := d.sched.actions.find? (fun a => a.cls == 0x0007 && a.args.getD 1 0 == r)

/-- Places kept for the wakes of sleeping resources that have no action of their own (R28): in the host pool, or in the device pool. -/
def Device.wakePlaces (d : Device) (host : Bool) : Nat :=
  (d.resources.filter (fun e => e.2.state != 0 && !e.2.waking && e.2.hostPlace == host && (d.powerAction e.1).isNone)).length

/-- Places of the host pool and of the device pool in use. -/
def Device.hostUsed (d : Device) : Nat := (d.sched.actions.filter (·.hostPlace)).length + d.wakePlaces true
def Device.deviceUsed (d : Device) : Nat := (d.sched.actions.filter (!·.hostPlace)).length + d.wakePlaces false

/-- A host-created action finds a place (R27): 3 840 in all; with TWIN_ENABLE 1, 3 328 for actions on mirrored objects and
512 for the others. TWIN_ENABLE is the value in force since power-up (R343). -/
def Device.hostPlaceFree (d : Device) (a : Action) : Bool :=
  decide (d.hostUsed < 3840) &&
    (!d.twin.enabled ||
      (let mine := d.actMirrored a
       let share := (d.sched.actions.filter (fun x => (x.origin == .host || x.origin == .mirror) && d.actMirrored x == mine)).length
       decide (share < if mine then 3328 else 512)))

/-- The next handle; 0 is never given (Table 2.6). -/
def nextHandleAfter (h : Nat) : Nat := if h + 1 < 2 ^ 32 then h + 1 else 1

/-- The leaves whose records a grant switch drops as it fires: those Quarantined (R166). -/
def Device.switchDrops (d : Device) (a : Action) : List Nat :=
  let c := a.target / 256 - 0x2802
  if a.cls = 0x000A ∧ a.target ≠ 0 then
    ((recordsOf 8 (d.dom (Reg.hubGrantNext c).ref)).map (bits · 63 56)).filter (fun l => d.get (Reg.hubLeafState (128 * c + l)) == 6)
  else []

/-- An action's outcome as its notice carries it (R37): handle, the boundary it fired on (0: it did not fire), outcome (0 fired, 1 fired late, 2 failed,
3 cancelled, 4 dropped), for a failure the status and the error detail, for a grant switch the leaves it dropped. -/
def Device.outcome (d : Device) (a : Action) (code : Nat) (e : Option Err) : Device :=
  let own := (a.origin = .device ∨ a.origin = .line) ∧ a.cls ≠ 0x0008
  let ref := if a.cls = 0x0009 ∨ own then 0 else a.target
  let tail := match e with
    | none => if code ≤ 1 then d.switchDrops a else []
    | some x => [x.status, x.kind, x.member, x.ref]
  d.noticeEither ref ([a.handle, if code ≤ 1 then a.armed.getD 0 else 0, code] ++ tail)

/-- The action leaves the schedule (R37). -/
def Device.dropAction (d : Device) (h : Nat) : Device :=
  { d with sched := { d.sched with actions := d.sched.actions.filter (fun a => a.handle != h) } }

/-- The action with handle h. -/
def Device.action? (d : Device) (h : Nat) : Option Action := d.sched.actions.find? (fun a => a.handle == h)

/-- Replaces the action with the same handle. -/
def Device.putAction (d : Device) (a : Action) : Device :=
  { d with sched := { d.sched with actions := d.sched.actions.map (fun x => if x.handle = a.handle then a else x) } }

/-- The withheld response of an immediate bundle, sent with its outcome (R417). -/
def Device.answerHeld (d : Device) (a : Action) (status : Nat) (tail : List Nat) : Device :=
  match a.reply with
  | none => d
  | some r =>
    let r := { r with status := status, body := if status = 0 then beBytes 4 a.handle ++ tail else tail }
    (d.keepResp r).emit r

/-- A loading message (Table 4.9). -/
def loadWord (typ table reason : Nat) (bonded : Bool) (lead bake frame : Nat) (codes : List Nat) : Nat :=
  typ * 2 ^ 504 + table * 2 ^ 496 + reason * 2 ^ 488 + b2n bonded * 2 ^ 487 + lead % 2 ^ 16 * 2 ^ 464 + bake % 2 ^ 96 * 2 ^ 368 +
    frame % 2 ^ 48 * 2 ^ 320 + ofBytes ((codes ++ List.replicate 32 0).take 32)

/-- TYPE of a message. -/
def slotType (w : Nat) : Nat := bits w 511 504

/-- Sends a loading message: it goes into the control slots of every group of the carrier, or of both bonded ones, in every slot until it is withdrawn where it
stays (R96, R97, R100, R132). -/
def Device.sendLoad (d : Device) (lc : Nat) (stays : Bool) (w : Nat) : Device :=
  d.each (if d.on Reg.frmBondMode then [0, 1] else [lc]) (fun c x => x.post c ⟨0, x.groups c, stays, 0, w⟩)

/-- Withdraws the loading messages of a TYPE. -/
def Device.endLoad (d : Device) (lc typ : Nat) : Device :=
  d.each (if d.on Reg.frmBondMode then [0, 1] else [lc]) (fun c x => x.unpost c (fun m => m.cls == 0 && slotType m.word == typ))

/-- A NAK leaves, once in each group (R97). -/
def Device.sendNak (d : Device) (lc table reason : Nat) : Device :=
  (d.sendLoad lc false (loadWord 3 table reason (d.on Reg.frmBondMode) 0 0 0 [])).send (.loadNak lc table reason)

/-- A negotiated switch that fails before its frame: NAK "withdrawn" in place of the ACK (R97). -/
def Device.withdraw (d : Device) (a : Action) : Device :=
  if a.cls = 0x0002 ∧ a.origin = .line then
    let c := a.args.headD 0
    match (d.rx.at c).ackOut with
    | some t =>
      if t.1 = a.args.getD 1 0 then (({ d with rx := d.rx.put c { d.rx.at c with ackOut := none } }).endLoad c 2).sendNak c t.1 5 else d
    | none => d
  else d

/-- An error detail that names nothing names the failing member's object, the object written, or the action itself (R30, Table 17.10). -/
def Action.names (a : Action) (e : Err) : Err :=
  if e.kind ≠ 0 then e
  else
    match a.members[e.member]? with
    | some m => { e with kind := 1, ref := m.ref * 2 ^ 24 }
    | none => if a.cls = 0x0009 ∨ a.target = 0 then { e with kind := 2, ref := a.handle } else { e with kind := 1, ref := a.target * 2 ^ 24 }

/-- An action ends "failed": it leaves the schedule, is counted, and the notice says why (R30). -/
def Device.failAction (d : Device) (a : Action) (e : Err) : Device :=
  let e := a.names e
  ((((d.dropAction a.handle).bump Reg.schedFailedCount).outcome a 2 (some e)).answerHeld a e.status (errBytes e)).withdraw a

/-- Wake time of a power state in fu: 200 ns, 20 µs, 5 ms (Table 20.4). -/
def wakeTime (p : Nat) : Nat :=
  if p = 1 then 200 * fuNs else if p = 2 then 20 * fuUs else if p = 3 then 5 * fuMs else 0

/-- The state of a sleeping resource; one not listed is in P0. -/
def Device.resource (d : Device) (r : Nat) : Resource := tblGetD d.resources r ⟨0, false, 0, false⟩

/-- Starts the wake of a sleeping resource (R35, R477). -/
def Device.wake (d : Device) (r : Nat) : Device :=
  let x := d.resource r
  if x.state = 0 ∨ x.waking then d
  else { d with resources := tblPut d.resources r { x with waking := true, readyAt := d.now + wakeTime x.state } }

/-- When a resource is ready if its wake starts now (or has started). -/
def Device.readyAt (d : Device) (r : Nat) : Nat :=
  let x := d.resource r
  if x.state = 0 then 0 else if x.waking then x.readyAt else d.now + wakeTime x.state

/-- The action needs a resource that cannot be ready by the arming point of its first eligible boundary (R35). -/
def Device.mustWake (d : Device) (a : Action) : Bool :=
  a.needs.any (fun r => decide (d.eligible a < d.readyAt r + fuArm + 1 ∧ 0 < d.readyAt r))

/-- The action with the instant its resources are ready, each such wake started and counted (R35, R476). -/
def Device.wakeFor (d : Device) (a : Action) : Device × Action :=
  if d.mustWake a then
    ((d.each a.needs (fun r x => x.wake r)).bump Reg.pwrLateWakes,
     { a with notBefore := a.needs.foldl (fun t r => max t (d.readyAt r)) a.notBefore })
  else (d, a)

/-- An action before its acceptance. -/
def newAction (kind : ActKind) (origin : Origin) (cls target bake value : Nat) : Action :=
  { handle := 0, acceptSeq := 0, acceptAt := 0, bake := bake, kind := kind, origin := origin, cls := cls, target := target,
    late1 := false, armed := none, notBefore := 0, armSeq := 0, value := value, args := [], members := [], preimages := [],
    prepFail := none, reply := none, needs := [], hostPlace := true, held := false, epoch := 0, mirrorOf := 0 }

/-- Puts an action into the schedule: it takes the next handle and the number of the event that accepts it. -/
def Device.enter (d : Device) (a : Action) : Device × Nat :=
  let h := d.sched.nextHandle
  let a := { a with handle := h, acceptSeq := d.sched.cur, acceptAt := d.now }
  ({ d with sched := { d.sched with actions := d.sched.actions ++ [a], nextHandle := nextHandleAfter h } }, h)

/-- The late policy a request carries: LATE 1 refuse, 2 fire late, 0 SCHED_LATE_POLICY (R25, Table 17.1). -/
def Device.latePolicy (d : Device) (q : Req) : Bool :=
  if q.late.val = 0 then d.get Reg.schedLatePolicy == 1 else q.late.val == 2

/-- Refuses an action: the schedule stays as it is and the refusal is counted (R25, R27). -/
def Device.refuseAction (d : Device) (e : Err) : Device × Reply := (d.bump Reg.schedRefusedCount, .fail e)

/-- Accepts a host-created action or refuses it (R24 to R27, R35). On acceptance the handle is the answer. One that is on time but for a wake it needs is
accepted, and fails at once as late under policy 0 (R25). -/
def Device.schedule (d : Device) (a : Action) : Device × Reply :=
  if !time96Valid a.bake then d.refuseAction (err stInvalidValue)
  else if decide (d.now + d.get Reg.schedMaxAhead * fuSec < bakeFu a) then d.refuseAction (err stBakeFar)
  else if !d.hostPlaceFree a then d.refuseAction (err stSchedFull)
  else
    let a := { a with acceptAt := d.now, hostPlace := true }
    if d.isLate a && !a.late1 then d.refuseAction (err stBakePast)
    else
      let w := d.wakeFor a
      let e := w.1.enter w.2
      (if d.isLate w.2 && !a.late1 then e.1.failAction { w.2 with handle := e.2, acceptSeq := w.1.sched.cur } (err stBakePast) else e.1, .ok (beBytes 4 e.2))

/-- The pending removal that a quarantine removal joins: of the same carrier, not armed (R28). -/
def Device.removalToJoin (d : Device) (a : Action) : Option Action :=
  if a.cls = 0x000A then
    d.sched.actions.find? (fun x => x.cls == 0x000A && x.target == 0 && x.args.head? == a.args.head? && x.armed.isNone)
  else none

/-- A device-created action without a place (R28): a power-state entry is not scheduled, a quarantine removal joins the carrier's pending one, any other
waits for the first free place, with late policy 1. -/
def Device.waitPlace (d : Device) (a : Action) : Device :=
  if a.cls = 0x0007 ∧ a.args.head? = some 0 then d
  else
    match d.removalToJoin a with
    | some x => d.putAction { x with args := x.args ++ a.args.drop 1 }
    | none => { d with sched := { d.sched with waiting := d.sched.waiting ++ [{ a with late1 := true }] } }

/-- Schedules a device-created action, under SCHED_LATE_POLICY where its chapter gives no policy, as R97 does with late policy 0 (R25): the place kept for its wake, else one of the device
pool, else of the host pool (each counted in SCHED_DEVICE_WAITS), else none (R28). Resources it names that sleep begin to wake (R35). -/
def Device.scheduleOwn (d : Device) (a : Action) : Device :=
  let w := d.wakeFor { a with acceptAt := d.now, late1 := a.late1 || (a.origin != .line && d.get Reg.schedLatePolicy == 1) }
  let a := w.2
  let d := w.1
  let r := d.resource (a.args.getD 1 0)
  if a.cls = 0x0007 ∧ a.args.head? = some 1 ∧ r.state ≠ 0 then (d.enter { a with hostPlace := r.hostPlace }).1
  else if d.deviceUsed < 256 then (d.enter { a with hostPlace := false }).1
  else
    let d := d.bump Reg.schedDeviceWaits
    if d.hostUsed < 3840 then (d.enter { a with hostPlace := true }).1 else d.waitPlace a

/-- A control restart holds back actions of classes 0x0006, 0x0008 and 0x0009 (R342). -/
def Device.heldBack (d : Device) (cls : Nat) : Bool := d.phase == .restarting && [6, 8, 9].contains cls

/-- The action may fire now: armed for a boundary that has come, and no armed action before it in the order of R29. -/
def Device.mayFire (d : Device) (a : Action) : Bool :=
  match a.armed with
  | none => false
  | some b =>
    decide (b ≤ d.now) &&
      d.sched.actions.all (fun x =>
        match x.armed with
        | none => true
        | some b' => x.handle == a.handle || decide (b < b' ∨ (b = b' ∧ a.acceptSeq ≤ x.acceptSeq)))

/-- Changes made by a mirrored action are not journaled again: its record was (R355). -/
def Device.sameJournal (a : Action) (d d' : Device) : Device :=
  if a.origin = .host ∨ a.origin = .mirror then { d' with twin := { d'.twin with journal := d.twin.journal } } else d'

/-- Fires the action h of class cls: it leaves the schedule and takes effect, or fails under R30 leaving every object as it
was, as it does on poisoned data (Table 10.6, row 9). An action fired after the boundary of its bake time is "fired late". What it raises carries the number of its arming event. -/
def Device.fire (d : Device) (h cls : Nat) (poison : Bool) (f : Action → Device → Except Err Device) : Device :=
  match d.action? h with
  | none => d
  | some a =>
    if a.cls = cls ∧ d.mayFire a ∧ !d.heldBack cls then
      let d := { d with sched := { d.sched with cur := a.armSeq } }
      match a.prepFail, poison with
      | some e, _ => d.failAction a e
      | none, true => (d.consumed 9 0x7FF0).failAction a (err stUncorrectable)
      | none, false =>
        match f a (d.dropAction h) with
        | .error e => d.failAction a e
        | .ok d' =>
          let d' := Device.sameJournal a d d'
          let late := a.bake != 0 && decide (d.boundaryAt a.kind (bakeFu a) < a.armed.getD 0)
          let d' := if late then d'.bump Reg.schedLateCount else d'
          (d'.outcome a (if late then 1 else 0) none).answerHeld a stSuccess [0]
    else d

/-- Fires an action on one object. -/
def Device.fireOn (d : Device) (h cls ref value : Nat) (poison : Bool) (f : Action → Device → Except Err Device) : Device :=
  match d.action? h with
  | some a => if a.target = ref ∧ a.value = value then d.fire h cls poison f else d
  | none => d

end Sys2Proof.Machine
end

