-- ==== Sys2Proof/Machine/WriteOps.lean ====
section
/-! DEFINITION. What every write of an object goes through: type, length, range and bake-time checks (R416), the standby's
refusal (R345), storing the value in the live image (R434 to R438) and in the mirror journal (R355). -/

namespace Sys2Proof.Machine

/-! ### Stored objects (R434) -/

/-- RW and RWS objects that are never stored (R434). -/
def neverStored : List Nat :=
  [Reg.fabGrpSelect.ref, Reg.pktPortSelect.ref, Reg.pktQSelect.ref, Reg.secKeySelect.ref, Reg.pktFlowLookup.ref,
   Reg.timeLoopMode.ref, Reg.timeSwFreq.ref, Reg.twinHostClass.ref, Reg.secClassLock.ref, Reg.memDebugEnable.ref,
   Reg.fabMapSwap.ref, Reg.secCgApply.ref, Reg.secRoll.ref, Reg.laneFlexeApply.ref, Reg.pwrImgSwitch.ref, Reg.dictRestore.ref]

/-- LINE_ITLA_RAW, HUB_GRANT_TABLE, TEL_GRP_DUMP and TEL_SWEEP_START of any instance are never stored either (R434). -/
def neverStoredIn (ref : Nat) : Bool :=
  decide ((0x2018 ≤ ref / 256 ∧ ref / 256 ≤ 0x201B ∧ ref % 256 = 0x08) ∨
    (0x2802 ≤ ref / 256 ∧ ref / 256 ≤ 0x2803 ∧ ref % 256 = 0x02) ∨
    (0x9200 ≤ ref / 256 ∧ ref / 256 ≤ 0x921F ∧ ref % 256 = 0x04) ∨
    (0x9300 ≤ ref / 256 ∧ ref / 256 ≤ 0x9302 ∧ ref % 256 = 0x01))

/-- A scalar RW or RWS object that the live image keeps. -/
def storedScalar (ref : Nat) : Bool := !(neverStored.contains ref || neverStoredIn ref)

/-- Issues the MRAM write of a stored scalar (R436, R437): a pair of lines for each value off its Default, 7 168 pairs at
most. Without a free pair the write is not stored: counted, bit [0] of DICT_STORE_STATE. -/
def Device.storeScalar (d : Device) (ref v dflt : Nat) : Device :=
  match tblGet d.store.live ref with
  | some r =>
    { d with store := { d.store with live := tblPut d.store.live ref ⟨(r.gen + 1) % 2 ^ 32, v, if r.waits then r.before else some (r.gen, r.value), true⟩ } }
  | none =>
    if v = dflt then d
    else if d.store.live.length < 7168 then
      let d := { d with store := { d.store with live := tblPut d.store.live ref ⟨1, v, none, true⟩ } }
      d.set Reg.dictRecords d.store.live.length
    else (d.bump Reg.dictUnstored).setBit Reg.dictStoreState 0 true

/-- Slot sizes of Table 18.6 in bytes, each copy; none where the DOMAIN is not stored. -/
def slotSize (ref : Nat) : Option Nat :=
  if ref = Reg.fabMapActive.ref then some (512 * 1024)
  else if ref = Reg.pktQConfig.ref then some (128 * 1024)
  else if ref = Reg.secCgActive.ref then some 4096
  else if ref = Reg.laneFlexeActive.ref then some (32 * 1024)
  else if ref = (Reg.lineTxEmph 0).ref ∨ ref = (Reg.lineTxEmph 1).ref ∨ ref = Reg.lineAspiSafe.ref ∨ ref = Reg.lineAspiResume.ref then some 1024
  else if ref = Reg.timeHoThermTable.ref then some 256
  else if 0x8010 ≤ ref / 256 ∧ ref / 256 ≤ 0x8017 ∧ ref % 256 = 1 then some 256
  else if ref = Reg.twinLocalList.ref then some 512
  else none

/-- The value a rewrite of a slot puts there: the contents, or the overflow header where they and the 32-byte header exceed
the slot (R438). -/
def slotValue (ref : Nat) (bs : List Nat) : Option (List Nat) :=
  match slotSize ref with
  | some n => if bs.length + 32 ≤ n then some bs else none
  | none => none

/-- Stores the contents of a DOMAIN after a change (R438): the rewrite starts, or the change is taken up when the running one
ends. Bit [1] of DICT_STORE_STATE shows a value over its slot. -/
def Device.storeDomain (d : Device) (ref : Nat) (bs : List Nat) : Device :=
  match slotSize ref with
  | none => d
  | some _ =>
    let put (x : DomSlot) : Device := { d with store := { d.store with liveDoms := tblPut d.store.liveDoms ref x } }
    let d := match tblGet d.store.liveDoms ref with
      | some x =>
        if x.rewriting then put { x with next := some bs }
        else put ⟨(x.gen + 1) % 2 ^ 32, slotValue ref bs, x.value, true, none⟩
      | none => put ⟨1, slotValue ref bs, none, true, none⟩
    d.setBit Reg.dictStoreState 1 (d.store.liveDoms.any (fun e => e.2.value.isNone))

/-! ### Mirror journal (R354 to R357) -/

/-- The unit journals: it is the active unit of a pair (TWIN_STATE Paired 3, TWIN_ROLE active 0). -/
def Device.journals (d : Device) : Bool := d.get Reg.twinState == 3 && d.get Reg.twinRole == 0

/-- The unit of a twin holds the standby role, TWIN_ROLE 1 (R345, R352). -/
def Device.standby (d : Device) : Bool := d.twin.enabled && d.get Reg.twinRole == 1

/-- Journals a record into the open epoch (R355). -/
def Device.journalRec (d : Device) (r : MirrorRec) : Device :=
  if d.journals then { d with twin := { d.twin with journal := d.twin.journal ++ [r] } } else d

/-- Journals a committed change of a mirrored object's value. A write that depends on SEC_KEY_SELECT carries it. -/
def Device.journal (d : Device) (ref v : Nat) : Device :=
  if d.mirrored ref then
    d.journalRec ⟨0, ref, v, if ref / 256 = Reg.secKeyWrite.ref / 256 then d.get Reg.secKeySelect else 0, 0, 0, 0, [], []⟩
  else d

/-- Journals the contents of a mirrored DOMAIN. -/
def Device.journalData (d : Device) (ref : Nat) (bs : List Nat) : Device :=
  if d.mirrored ref then d.journalRec ⟨1, ref, 0, 0, 0, 0, 0, bs, []⟩ else d

/-- Journals the starter's model record (R315). -/
def Device.journalModel (d : Device) (bs : List Nat) : Device := d.journalRec ⟨1, Reg.timeHoTwinModel.ref, 0, 0, 0, 0, 0, bs, []⟩

/-- Journals an action that a write to a mirrored object created, or a BUNDLE with its mirrored members. -/
def Device.journalAction (d : Device) (a : Action) : Device :=
  if d.actMirrored a then
    d.journalRec ⟨2, a.target, a.value, d.get Reg.secKeySelect, a.bake, a.handle, if a.epoch = 0 then d.eligible a else 0,
      [a.cls, kindCode a.kind, b2n a.late1], a.members.filter (fun m => d.mirrored m.ref)⟩
  else d

/-- Writes a value as an accepted write does: the object, its block's _BLK_CHANGED and stored record, the mirror journal. -/
def Device.putValue (d : Device) (o : Obj) (v : Nat) : Device :=
  let v := v % 2 ^ o.width
  let d := (d.set o v).journal o.ref v
  if storedScalar o.ref then
    let d := d.storeScalar o.ref v o.dflt
    let b := blockOf (o.ref / 256)
    if b = 0 then d else d.set (blkChanged b) 1
  else d

/-- The stored form of a DOMAIN changes: its slot, and its block's _BLK_CHANGED (R433, R438). -/
def Device.keepDomain (d : Device) (ref : Nat) (bs : List Nat) : Device :=
  let b := blockOf (ref / 256)
  if (slotSize ref).isSome ∧ b ≠ 0 then (d.storeDomain ref bs).set (blkChanged b) 1 else d.storeDomain ref bs

/-- Writes the bytes of a DOMAIN as an accepted write does. -/
def Device.putDomain (d : Device) (ref : Nat) (bs : List Nat) : Device := (d.setDom ref bs).keepDomain ref bs

/-! ### Checks of a write (R416) -/

/-- The value as the object's type reads it. -/
def Obj.asInt (o : Obj) (v : Nat) : Int := if o.signed then toSigned o.width v else (v : Int)

/-- The value's own checks: length, BOOL values 0 and 1, valid TIME96, the stated range. -/
def valueCheck (o : Obj) (r : Range) (v : Val) : Option Err :=
  if v.len ≠ o.bytes then some (err stWrongType)
  else if 2 ^ o.width ≤ v.raw then some (err stInvalidValue)
  else if o.width = 96 && !o.signed && !time96Valid v.raw then some (err stInvalidValue)
  else if !rangeAdmits r (o.asInt v.raw) then some (err stInvalidValue)
  else none

/-- What stands against any write of an object to this unit: the standby refuses mirrored objects, naming the active unit
(R345: KIND 5, unit). -/
def Device.roleCheck (d : Device) (ref : Nat) : Option Err :=
  if d.standby && !d.twin.applying && d.mirrored ref then some ⟨stNotPermitted, 5, 255, 1 - d.get Reg.twinUnit⟩ else none

/-- What the untagged installer session of R424 may not do: select, write or roll another pair than the one EOP_AUTH_PAIR:01 names. -/
def Device.limitedCheck (d : Device) (q : Req) (ref v : Nat) : Option Err :=
  let mine := d.get (Reg.eopAuthPair 0)
  let other := ((ref == Reg.secKeySelect.ref || ref == Reg.secRoll.ref) && v != mine) || (ref == Reg.secKeyWrite.ref && d.get Reg.secKeySelect != mine)
  if other && (d.sessionOf q).any (·.limited) then some (err stDenied) else none

/-- What stands against a write of any kind: the role, then the session. -/
def Device.writerCheck (d : Device) (q : Req) (ref v : Nat) : Option Err :=
  match d.roleCheck ref with
  | some e => some e
  | none => d.limitedCheck q ref v

/-- A write that is not scheduled: no bake time, the value right, then the owning chapter's checks and effect (R416). -/
def Device.plainWriteR (d : Device) (o : Obj) (r : Range) (q : Req) (v : Val) (f : Device → Device × Reply) : Device × Reply :=
  match d.writerCheck q o.ref v.raw with
  | some e => (d, .fail e)
  | none =>
    if q.bake ≠ 0 then (d, .fail (err stInvalidCombination))
    else
      match valueCheck o r v with
      | some e => (d, .fail e)
      | none => f d

/-- The range an object's row states. -/
def rangeOf (ref : Nat) : Range := ((rowIn objRows ref).map (·.range)).getD .any

/-- As plainWriteR, with the range of the object's row. -/
def Device.plainWrite (d : Device) (o : Obj) (q : Req) (v : Val) (f : Device → Device × Reply) : Device × Reply :=
  d.plainWriteR o (rangeOf o.ref) q v f

/-- The answer to a WRITE that created no action: handle 0 (Table 17.4). -/
def okWrite : Reply := .ok (beBytes 4 0)

/-- A write of this object waits for the ACK of its epoch: the mirror is Current (R357). -/
def Device.awaitsAck (d : Device) (ref : Nat) : Bool := d.journals && d.get Reg.twinMirrorState == 2 && d.mirrored ref

/-- A response to a write of a mirrored object by the service svc waits for the ACK of its epoch while the mirror is Current (R357). -/
def Device.withholdAs (d : Device) (q : Req) (svc ref : Nat) (r : Device × Reply) : Device × Reply :=
  match r.2 with
  | .ok body =>
    if d.awaitsAck ref then
      ({ r.1 with eop := { r.1.eop with
          withheld := r.1.eop.withheld ++ [⟨r.1.twin.openEpoch, respOf q svc stSuccess body⟩] } }, .later)
    else r
  | _ => r

/-- As withholdAs, for a WRITE. -/
def Device.withhold (d : Device) (q : Req) (ref : Nat) (r : Device × Reply) : Device × Reply := d.withholdAs q 2 ref r

/-- A write that the object simply takes: stored, reserved bits held at 0, answered with handle 0. -/
def Device.takeWrite (d : Device) (o : Obj) (q : Req) (v : Val) : Device × Reply :=
  d.plainWrite o q v (fun d => d.withhold q o.ref (d.putValue o (rangeKeep (rangeOf o.ref) v.raw), okWrite))

/-! ### Sleeping resources (Table 20.4) -/

/-- The number of a resource: its class of Table 20.4 and its number in the class. -/
def resHbm : Nat := 0
def resEngine (k : Nat) : Nat := 256 + k
def resHubPath (c sc dir : Nat) : Nat := 512 + 2 * (16 * c + sc) + dir
def resLane (lane dir : Nat) : Nat := 768 + 2 * lane + dir

/-- A resource sleeps or is waking. -/
def Device.asleep (d : Device) (r : Nat) : Bool := (d.resource r).state != 0

/-- An immediate write that needs resources: it takes effect now if all are awake, else their wakes start and the write and its
response wait (R477). -/
def Device.whenReady (d : Device) (q : Req) (svc ref v : Nat) (data : List Nat) (needs : List Nat)
    (f : Device → Device × Reply) : Device × Reply :=
  let sleeping := needs.filter d.asleep
  if sleeping.isEmpty then f d
  else
    let x := d.each sleeping (fun r y => y.wake r)
    ({ x with deferred := x.deferred ++ [⟨q, svc, ref, v, data, sleeping⟩] }, .later)

/-- A WRITE to an RWS object: an action of its class and kind with the request's bake time and late policy; a reference change has late policy 1 (R276, R416). While the
mirror is Current its handle is withheld and it is not eligible before the ACK (R357). -/
def Device.actionWriteA (d : Device) (o : Obj) (q : Req) (v : Val) (a : Action) : Device × Reply :=
  match d.writerCheck q o.ref v.raw with
  | some e => d.refuseAction e
  | none =>
    match valueCheck o (rangeOf o.ref) v with
    | some e => d.refuseAction e
    | none =>
      let a := { a with late1 := a.cls == 4 || d.latePolicy q, bake := q.bake.toNat, value := v.raw, target := o.ref }
      let r := d.schedule { a with epoch := if d.awaitsAck o.ref then d.twin.openEpoch else 0 }
      d.withhold q o.ref (match r.2 with
        | .ok body => (match r.1.action? (ofBytes body) with
          | some x => r.1.journalAction x
          | none => r.1, r.2)
        | _ => r)

/-- As actionWriteA, from kind, class and the resources the action names. -/
def Device.actionWrite (d : Device) (o : Obj) (q : Req) (v : Val) (kind : ActKind) (cls : Nat) (needs : List Nat) : Device × Reply :=
  d.actionWriteA o q v { newAction kind .host cls o.ref 0 0 with needs := needs }

/-- Writes the bytes of a DOMAIN by BLOCK: the standby's refusal, the owning chapter's rules, the journal, the withheld response. -/
def Device.domainWrite (d : Device) (q : Req) (ref : Nat) (bs : List Nat) (f : List Nat → Device → Device × Reply) : Device × Reply :=
  match d.roleCheck ref with
  | some e => (d, .fail e)
  | none =>
    let r := f bs d
    match r.2 with
    | .ok _ => d.withholdAs q 5 ref (r.1.journalData ref bs, r.2)
    | _ => r

/-- Ends a BLOCK write of a DOMAIN (R421, op 3): the transfer must be the requester's, its length and CRC-32 right; then the
bytes are the value written. -/
def Device.takeBlock (d : Device) (q : Req) (ref crc : Nat) (f : List Nat → Device → Device × Reply) : Device × Reply :=
  match d.eop.transfers.find? (fun t => t.ref == ref && t.writing) with
  | none => (d, .fail (err stNotPermitted))
  | some t =>
    if t.session ≠ q.session.toNat ∨ (t.session = 0 ∧ (t.transport ≠ q.transport.val ∨ t.addr ≠ q.addr)) then (d, .fail (errSess stInUse t.session))
    else
      let d := d.keepTransfers (fun x => !(x.ref == ref && x.writing))
      if t.data.length ≠ t.total ∨ crc32 t.data ≠ crc then (d, .fail (err stInvalidValue))
      else d.domainWrite q ref t.data f

end Sys2Proof.Machine
end

