-- ==== Sys2Proof/Machine/MonOps.lean ====
section
/-! DEFINITION. Shared operations of the monitor converter and of line-path calibration (chapter 16): the choice of the next work, self-calibration
requests, ramps, run requests, time-path corrections. -/

namespace Sys2Proof.Machine

/-! ### Sequence steps (Table 16.2) -/

def stepChan (w : Nat) : Nat := bits w 63 56
def stepOrder (w : Nat) : Nat := bits w 55 54
def stepDec (w : Nat) : Nat := bits w 47 24
def stepCount (w : Nat) : Nat := bits w 23 16

/-- The filter order N of a step: sinc3, sinc4, sinc5. -/
def stepN (w : Nat) : Nat := stepOrder w + 3

/-- The steps of a sequence. -/
def Device.seqSteps (d : Device) (k : Nat) : List Nat := recordsOf 8 (d.dom (Reg.monSeqSteps k).ref)

/-- A sequence that runs. -/
def Device.seqRun? (d : Device) (k : Nat) : Option SeqRun := tblGet d.mon.seqs k
def Device.putSeq (d : Device) (k : Nat) (r : SeqRun) : Device := { d with mon := { d.mon with seqs := tblPut d.mon.seqs k r } }

/-- A word of Table 16.3. -/
def resultWord (time : Nat) (code : Int) (ovr resumed : Bool) : Nat :=
  fuToTime96 time * 2 ^ 32 + ofSigned 24 code * 2 ^ 8 + b2n ovr * 2 ^ 7 + b2n resumed * 2 ^ 6

/-- A code as the converter gives it: 24 bits, saturated (R384). -/
def clampCode (code : Int) : Int := clampInt (-8388608) 8388607 code

/-- The internal reference's code: nominal, or as the calibration set holds it (R394, Table 16.7; assumption 35). -/
def Device.referenceCode (d : Device) : Int :=
  if d.mon.unusable.contains 0 then 8388608 else Config.referenceCode (d.dom Reg.calSet.ref)

/-- The mean of the n-th of the two inputs of a self-calibration: 6 results discarded, 16 averaged (R394). -/
def calMean (l : List Int) (n : Nat) : Int := roundInt (((l.drop (22 * n + 6)).take 16).foldl (· + ·) 0) 16

/-- Offset and gain that a self-calibration finds: what takes the zero to 0, and the reference to its code, in 10^-6 (assumption 177). A reference that reads
as the zero does gives no gain: not stated (assumption 22). -/
def Device.calFound (d : Device) (l : List Int) : Int × Int :=
  let span := calMean l 1 - calMean l 0
  (-(calMean l 0), if span ≤ 0 then toSigned 32 (Config.unstated span.natAbs % 2 ^ 32) else roundInt ((d.referenceCode - span) * 1000000) span.toNat)

/-- A code with the corrections in force (R394). -/
def Device.corrected (d : Device) (raw : Int) : Int :=
  clampCode (roundInt ((raw + d.getI Reg.monCalOffset) * (1000000 + d.getI Reg.monCalGain)) 1000000)

/-- A result on a channel: MON_CH_LAST, and MON_OVR_COUNT with OVR (R387, R390). -/
def Device.result (d : Device) (ch : Nat) (code : Int) (ovr : Bool) : Device :=
  let d := d.set (Reg.monChLast ch) (resultWord d.now code ovr false)
  if ovr then d.bump Reg.monOvrCount else d

/-! ### Sharing the converter (R391) -/

/-- The converter takes up work. -/
def Device.convert (d : Device) (w : Conv) : Device := { d with mon := { d.mon with work := w } }

/-- A carrier's bias loops run: in Starting, Active, and in a squelch with zero drive (Table 3.4). -/
def Device.biasRuns (d : Device) (c : Nat) : Bool :=
  d.get (Reg.lineTxState c) == 1 || d.get (Reg.lineTxState c) == 3 || (d.get (Reg.lineTxState c) == 2 && !(d.tx.at c).laserOff)

/-- A code at a 16-bit DAC; the spec states no output for a sum outside its codes: a free value. -/
def dacCode (x : Int) : Nat := if 0 ≤ x ∧ x < 65536 then x.toNat else Config.unstated (ofSigned 32 x) % 65536

/-- What a visit adds to its loop's code: dither in the first half period, −dither in the second; every other output holds its code (R57). -/
def Device.ditherOf (d : Device) (n : Nat) : Int :=
  if d.bias.visited = some n ∧ (d.mon.work == .visit || d.mon.held == .visit) then
    (if d.bias.conv.length < 32 then (d.get (Reg.lineBiasDither n) : Int) else -(d.get (Reg.lineBiasDither n) : Int))
  else 0

/-- The code a bias output holds: 0 until the dictionary is ready, LINE_BIAS_SAFE in Off, else its loop's code with the dither of its visit
(R57, R61, R66). -/
def Device.biasOut (d : Device) (n : Nat) : Nat :=
  if !d.on Reg.idDictReady then 0
  else if d.get (Reg.lineTxState (n / 6)) = 0 then d.get (Reg.lineBiasSafe n)
  else dacCode (d.get (Reg.lineBiasCode n) + d.ditherOf n)

/-- Drives the outputs of the loops of `l` whose code is another than in `before`. -/
def Device.driveBias (d before : Device) (l : List Nat) : Device :=
  d.each l (fun n x => if x.biasOut n = before.biasOut n then x else x.send (.bias n (x.biasOut n)))

/-- The visited loop, if any. -/
def Device.visitedLoop (d : Device) : List Nat := d.bias.visited.toList

/-- The converter takes up the step of sequence k: settled results come after N + 1 discarded ones (R392). -/
def Device.convertSeq (d : Device) (k : Nat) : Device :=
  let d := d.convert (.seq k)
  let d := { d with mon := { d.mon with queue := d.mon.queue.filter (· != k) } }
  match d.seqRun? k with
  | some r =>
    (d.putSeq k { r with discard := stepN ((d.seqSteps k).getD r.step 0) + 1 }).set (Reg.monSeqState k) 2
  | none => d

/-- A queued self-calibration starts. The work it interrupts is held, a step's sequence suspended. -/
def Device.startSelfCal (d : Device) (held : Conv) : Device :=
  let d := { d with mon := { d.mon with work := .selfCal, held := held, calQueued := false, calTemp := some (d.getI Reg.calDieTemp), calConv := [] } }
  let d := d.set Reg.monCalState 2
  match held with
  | .seq k => d.set (Reg.monSeqState k) 3
  | _ => d

/-- The next work when none is held: within a yield the waiting step, else the bias visit, else the waiting step. -/
def Device.chooseWork (d : Device) : Device :=
  let yield := match d.mon.yieldEnd with
    | some t => decide (d.now < t) && !d.mon.queue.isEmpty
    | none => false
  let d := if yield then d else { d with mon := { d.mon with yieldEnd := none } }
  match d.mon.queue with
  | k :: _ => if yield ∨ d.bias.visited.isNone then d.convertSeq k else d.convert .visit
  | [] => if d.bias.visited.isSome then d.convert .visit else d.convert .idle

/-- The converter chooses its next work at a result boundary, with the work in progress `held` (idle: none); nothing starts before the reference is ready
(R389, R391). -/
def Device.choose (d : Device) (held : Conv) : Device :=
  if d.get Reg.monRefState ≠ 2 then d.convert .idle
  else if d.mon.calQueued then d.startSelfCal held
  else
    match held with
    | .visit => if d.bias.visited.isSome then d.convert .visit else d.chooseWork
    | .seq k =>
      match d.seqRun? k with
      | some r => (d.putSeq k { r with resumed := true }).convertSeq k
      | none => d.chooseWork
    | _ => d.chooseWork

/-- Work has come to wait: an idle converter takes it up at once. -/
def Device.workWaits (d : Device) : Device :=
  match d.mon.work with
  | .idle => d.choose .idle
  | _ => d

/-- A self-calibration is requested (R395): one run at most is queued. -/
def Device.requestSelfCal (d : Device) : Device :=
  if d.mon.calQueued then d
  else
    let d := { d with mon := { d.mon with calQueued := true } }
    let d := match d.mon.work with
      | .selfCal => d
      | _ => d.set Reg.monCalState 1
    d.workWaits

/-- Closed loops whose carrier's loops run, ascending. -/
def Device.closedLoops (d : Device) : List Nat :=
  (List.range 12).filter (fun n => d.get (Reg.lineBiasMode n) == 1 && d.biasRuns (n / 6))

/-- The loop visited after n: the next closed one, ascending, then from the first (R57). -/
def Device.loopAfter (d : Device) (n : Nat) : Option Nat :=
  match d.closedLoops.find? (fun m => decide (n < m)) with
  | some m => some m
  | none => d.closedLoops.head?

/-- The loop to visit follows the closed loops: the first of them where none is visited, the next where the visited one has opened or stopped. -/
def Device.biasFollow (d : Device) : Device :=
  match d.bias.visited with
  | some n =>
    if d.closedLoops.contains n then d
    else
      let e := { d with bias := { d.bias with visited := d.loopAfter n, conv := [], ds := [] } }
      (match e.mon.work with
      | .visit => e.choose .idle
      | _ => e).driveBias d (n :: e.visitedLoop)
  | none =>
    match d.closedLoops.head? with
    | none => d
    | some n => ({ d with bias := { d.bias with visited := some n, conv := [], ds := [] } }.workWaits).driveBias d [n]

/-- The end of a bias visit: a yield begins if work waits, and the converter chooses (R391). -/
def Device.visitEnds (d : Device) : Device :=
  let d := if d.mon.queue.isEmpty then d else { d with mon := { d.mon with yieldEnd := some (d.now + d.get Reg.monYield * fuMs) } }
  match d.mon.work with
  | .visit => d.choose .idle
  | _ => d.workWaits

/-! ### Line-path terms and ramps (R396, R398) -/

/-- The terms of a direction of a carrier: four skews, two IQ gains, two IQ phases. -/
def rxTerm (c k : Nat) : Obj := if k < 4 then Reg.lineRxSkew c k else if k < 6 then Reg.lineRxIqGain c (k - 4) else Reg.lineRxIqPhase c (k - 6)
def txTerm (c k : Nat) : Obj := if k < 4 then Reg.lineTxSkew c k else if k < 6 then Reg.lineTxIqGain c (k - 4) else Reg.lineTxIqPhase c (k - 6)

/-- The transmit term an object is: its carrier and number. -/
def txTermOf (ref : Nat) : Option (Nat × Nat) :=
  match (List.range 16).find? (fun n => (txTerm (n / 8) (n % 8)).ref == ref) with
  | some n => some (n / 8, n % 8)
  | none => none

/-- The largest magnitude of a term: ±25.0 ps, ±1.0 dB, ±10.00° (R46, R75). -/
def termLimit (k : Nat) : Int := if k < 4 then 250 else 1000

/-- Terms held within their ranges. -/
def clampTerms (l : List Int) : List Int := l.zipIdx.map (fun e => clampInt (-(termLimit e.2)) (termLimit e.2) e.1)

/-- A ramp with nothing to do. -/
def rampIdle (l : List Int) : Ramp := ⟨l, l, l, 64⟩

/-- A new target: a ramp of 64 steps from the values reached (R398). -/
def Ramp.aim (r : Ramp) (target : List Int) : Ramp := ⟨r.now, r.now, target, 0⟩

/-- One of 64 equal steps. -/
def Ramp.advance (r : Ramp) : Ramp :=
  if 64 ≤ r.step then r
  else
    let n := r.step + 1
    { r with step := n, now := List.zipWith (fun a b => roundInt (a * (64 - n : Nat) + b * n) 64) r.start r.target }

def Device.calAt (d : Device) (c : Nat) : CalSide := d.cal.at c
def Device.putCal (d : Device) (c : Nat) (x : CalSide) : Device := { d with cal := d.cal.put c x }

/-- The receive corrections take their values at once, as a run at acquisition applies them (R397). -/
def Device.applyRxTerms (d : Device) (c : Nat) (l : List Int) : Device :=
  (d.putCal c { d.calAt c with rxRamp := rampIdle l }).each (l.take 8).zipIdx (fun e x => x.setI (rxTerm c e.2) e.1)

/-- Targets of a receive run: the differential part of the skews changes, their mean stays (R396). -/
def rxTargets (now new : List Int) : List Int :=
  let mean (l : List Int) : Int := roundInt ((l.take 4).foldl (· + ·) 0) 4
  clampTerms ((new.take 4).map (fun t => t - mean new + mean now) ++ (new.drop 4).take 4)

/-! ### What the receive chain's ADCs measure (R73, R74) -/

/-- Levels and clipped samples are reported. -/
def Device.adcLevels (d : Device) (c : Nat) (rms : List Nat) (clips : Nat) : Device :=
  (d.each (rms.take 4).zipIdx (fun e x => x.set (Reg.lineRxAdcRms c e.2) e.1)).count (Reg.lineRxAdcClips c) clips

/-- Every level lies between 6 and 20 dB below full scale. -/
def Device.levelsGood (d : Device) (c : Nat) : Bool :=
  (List.range 4).all (fun k => decide (60 ≤ d.get (Reg.lineRxAdcRms c k) ∧ d.get (Reg.lineRxAdcRms c k) ≤ 200))

/-! ### Time-path corrections (R402) -/

/-- A measurement of the time-path delays has ended: it waits for its PPS boundary. -/
def Device.measured (d : Device) (l : List Int) : Device := { d with mon := { d.mon with measured := some (d.now, l) } }

/-- The value of a correction: from, target, parts, parts taken. -/
def trimValue (t : Int × Int × Nat × Nat) : Int :=
  if t.2.2.1 = 0 then t.2.1 else roundInt (t.1 * (t.2.2.1 - t.2.2.2 : Nat) + t.2.1 * t.2.2.2) t.2.2.1

/-- A correction that moves to a target in equal parts of at most 50 ps. -/
def trimTo (now target : Int) : Int × Int × Nat × Nat := (now, target, ceilDiv (target - now).natAbs 50, 0)

/-- One part more. -/
def trimNext (t : Int × Int × Nat × Nat) : Int × Int × Nat × Nat := (t.1, t.2.1, t.2.2.1, min (t.2.2.2 + 1) t.2.2.1)

/-- The corrections at a PPS boundary: a measurement whose end its arming point follows sets new targets, and each correction moves by one part. -/
def Device.ppsTrims (d : Device) : Device :=
  let due := match d.mon.measured with
    | some (t, _) => decide (t + fuArm < d.now)
    | none => false
  let trims := match d.mon.measured with
    | some (_, l) => if due then l.zipIdx.map (fun e => trimTo ((d.mon.trims[e.2]?.map trimValue).getD 0) e.1) else d.mon.trims
    | none => d.mon.trims
  let new := trims.map trimNext
  let moved := new.zip trims |>.any (fun e => trimValue e.1 != trimValue e.2)
  let d := { d with mon := { d.mon with trims := new, measured := if due then none else d.mon.measured } }
  if moved then
    (d.setDom Reg.calTimeTrim.ref (new.flatMap (fun t => beBytes 4 (ofSigned 32 (trimValue t))))).set Reg.calTimeApplied (fuToTime96 d.now)
  else d

/-! ### Runs (R397, R399) -/

/-- A run starts: CAL_TEMP_LAST takes the die temperature. A receive run waits for level; a transmit run, which needs CAL_TX_ENABLE and an Active
carrier, iterates. -/
def Device.startRun (d : Device) (c dir : Nat) : Device :=
  if dir = 2 ∧ (!d.on (Reg.calTxEnable c) ∨ d.get (Reg.lineTxState c) ≠ 3) then d
  else
    let x := d.calAt c
    let d := (d.putCal c { x with run := dir, iter := 1, averaging := false, reports := [] }).set (Reg.calTempLast c) (d.get Reg.calDieTemp)
    d.set (Reg.calState c) (if dir = 1 then 1 else 4)

/-- The next queued run of a carrier starts: receive before transmit. -/
def Device.nextRun (d : Device) (c : Nat) : Device :=
  let x := d.calAt c
  if x.rxQueued then (d.putCal c { x with rxQueued := false }).startRun c 1
  else if x.txQueued then (d.putCal c { x with txQueued := false }).startRun c 2
  else d

/-- A run is requested: it starts, or one more of its direction follows the run in progress (R395, R399). -/
def Device.requestRun (d : Device) (c dir : Nat) : Device :=
  let x := d.calAt c
  let d := d.putCal c (if dir = 1 then { x with rxQueued := true } else { x with txQueued := true })
  if x.run = 0 then d.nextRun c else d

/-- A run ends: counted, its end time kept; the next queued one starts. -/
def Device.endRun (d : Device) (c : Nat) : Device :=
  let d := d.putCal c { d.calAt c with run := 0, averaging := false, reports := [] }
  let d := ((d.set (Reg.calState c) 0).bump (Reg.calRuns c)).set (Reg.calLast c) (fuToTime96 d.now)
  d.nextRun c

/-- A transmit run ends keeping the corrections reached (R401). -/
def Device.endTxRun (d : Device) (c : Nat) : Device :=
  let x := d.calAt c
  if x.run = 2 then (d.putCal c { x with txRamp := rampIdle x.txRamp.now }).endRun c else d

/-- A run follows its carrier: a receive run waits for Tracking and for level (R397); a transmit run ends when the carrier leaves Active (R401), and the
first entry into Active since power-up asks for one (R399). -/
def Device.calFollow (d : Device) (c : Nat) : Device :=
  let x := d.calAt c
  let d := if x.run = 1 ∧ d.get (Reg.calState c) ≤ 2 then
      let runs := d.get (Reg.lineRxState c) == 3 && d.levelsGood c
      let d := d.set (Reg.calState c) (if runs then 2 else 1)
      if d.get (Reg.lineRxState c) = 3 then d.set (Reg.lineRxAdcState c) (if runs then 1 else 2) else d
    else d
  if d.get (Reg.lineTxState c) = 3 then
    if x.activeSeen then d
    else
      let d := d.putCal c { x with activeSeen := true }
      if d.on (Reg.calTxEnable c) then d.requestRun c 2 else d
  else d.endTxRun c

end Sys2Proof.Machine
end

