-- ==== Sys2Proof/Machine/Flags.lean ====
section
/-! DEFINITION. Status objects that follow from the rest of the state: places in use, open sessions, the decoder pool's load,
the bring-up stages. They are brought up to date after every command. -/

namespace Sys2Proof.Machine

/-! ### Decoder pool load (R117) -/

/-- Codeword rate of Table 5.1 at code 96, in units of 10^4 codewords per second. -/
def poolRate (code : Nat) : Nat := [8381, 8042, 7621].getD code 0

/-- Time per iteration of Table 5.1 in units of 1/8 ns (40.625, 56.25, 76.875 ns). -/
def iterTime8 (code : Nat) : Nat := [325, 450, 615].getD code 0

/-- The load of one carrier in units of 10^-6 slot / 0.8: Rmax * (40 ns + FEC_MIN_ITER * T) as rate (10^4/s) times time
(1/8 ns), that is units of 1.25 * 10^-6 slot. -/
def carrierLoad (code minIter : Nat) : Nat := poolRate code * (320 + minIter * iterTime8 code)

/-- The pool load L in units of 1.25 * 10^-6 slot, for given receive enables, codes and FEC_MIN_ITER (R117). -/
def poolLoadOf (en0 en1 : Bool) (code0 code1 minIter : Nat) : Nat :=
  (if en0 then carrierLoad code0 minIter else 0) + (if en1 then carrierLoad code1 minIter else 0)

/-- The code in force on C1: C0's while bonded (R104). -/
def Device.overhead1 (d : Device) : Nat := d.get (Reg.fecOverhead (if d.on Reg.frmBondMode then 0 else 1))

/-- The pool load of the present configuration. -/
def Device.poolLoad (d : Device) : Nat :=
  poolLoadOf (d.on (Reg.lineRxEnable 0)) (d.on (Reg.lineRxEnable 1)) (d.get (Reg.fecOverhead 0)) d.overhead1
    (d.get Reg.fecMinIter)

/-- A load exceeds the limit of n slots. -/
def overLoad (l slots : Nat) : Bool := decide (slots * 800000 < l)

/-- The limit in slots: 72, or 4 × PWR_FEC_ACTIVE − 8 with fewer engines awake (R117, R479). -/
def Device.poolLimit (d : Device) : Nat := 4 * d.get Reg.pwrFecActive - 8

/-- A write is refused with "invalid combination" where the load it would give exceeds the limit (R117). -/
def Device.loadCheck (d : Device) (l : Nat) : Option Err :=
  if overLoad l d.poolLimit then some (err stInvalidCombination) else none

/-! ### Bring-up stages (R471, Table 20.2) -/

/-- Stage [1]: every client port with LANE_PORT_ENABLE non-zero is up. -/
def Device.stageLanes (d : Device) : Bool :=
  (List.range 32).all (fun p => d.get (Reg.lanePortEnable p) == 0 || d.get (Reg.lanePortState p) == 2)

/-- Every group of a carrier is in Sync with no LOF. -/
def Device.groupsUp (d : Device) (c : Nat) : Bool :=
  (List.range 16).all (fun g => !bitAt (d.get (Reg.frmGroups c)) g ||
    (d.get (Reg.frmAlignState c g) == 4 && !bitAt (d.get (Reg.frmDefects c g)) 2))

/-- Stage [2]: every enabled receiver has its groups up, every enabled transmitter is Active. -/
def Device.stageLine (d : Device) : Bool :=
  [0, 1].all (fun c => (!d.on (Reg.lineRxEnable c) || d.groupsUp c) && (!d.on (Reg.lineTxEnable c) || d.get (Reg.lineTxState c) == 3))

/-- Stage [3]: TIME_LOCK reads Locked (2) or Holdover (4), or no candidate has a source. -/
def Device.stageTime (d : Device) : Bool :=
  d.get Reg.timeLock == 2 || d.get Reg.timeLock == 4 || (List.range 16).all (fun k => d.get (Reg.timeCandSource k) == 0)

/-- Stage [4]: TWIN_ENABLE is 0 since power-up (R343), or Paired (3) with the mirror Current (2). -/
def Device.stageTwin (d : Device) : Bool :=
  !d.twin.enabled || (d.get Reg.twinState == 3 && d.get Reg.twinMirrorState == 2)

/-- The stages reached: each needs every lower one (R471). -/
def stageBits : List Bool → Nat → Nat
  | [], _ => 0
  | b :: r, w => if b then w + stageBits r (2 * w) else 0

/-- PWR_BRINGUP for the present state. -/
def Device.bringup (d : Device) : Nat :=
  stageBits [d.on Reg.idDictReady, d.stageLanes, d.stageLine, d.stageTime, d.stageTwin] 1

/-- PWR_STAGE_TIME of stage k: the device time at which it was first reached (R471). -/
def Device.stageTimes (d : Device) : Device :=
  d.each (List.range 5) (fun k x =>
    if bitAt (x.get Reg.pwrBringup) k ∧ x.get (Reg.pwrStageTime k) = 0 then x.set (Reg.pwrStageTime k) (fuToTime96 x.now) else x)

/-! ### Timing (R277, R291) -/

/-- What is left of a pull of `x` ps after `t` fu at a slope of `s` units of 0.1 ns/s. -/
def pullAfter (x : Int) (t s : Nat) : Int :=
  let moved : Int := (t * s * 100 / fuSec : Nat)
  if 0 ≤ x then max 0 (x - moved) else min 0 (x + moved)

/-- The remainder of the running pull now. -/
def Device.pullLeft (d : Device) : Int :=
  match d.tim.pull with
  | some (x, t, s) => pullAfter x (d.now - t) s
  | none => 0

/-- TIME_OUT_DRIVING: the outputs this device drives (R291): in the states TIME_OUT_STATES names, a shared output only as R352 lets it. -/
def Device.driving (d : Device) : Nat :=
  let f (k : Nat) : Nat := b2n (tblGetD d.tim.outForce (2 + k) 10000000 != 0)
  if bitAt (d.get Reg.timeOutStates) (d.get Reg.schedTimeState) && (!d.twin.enabled || d.twin.drives) then
    3 + 4 * f 0 + 8 * f 1 + 16 * d.get Reg.timeTodEnable
  else 0

/-- TEL_SWEEP_STATE of a set that does not run: 1 while an action will start it, else 0 (Table 19.6). -/
def Device.sweepFollow (d : Device) (k : Nat) : Device :=
  if d.get (Reg.telSweepState k) ≤ 1 then
    d.set (Reg.telSweepState k) (b2n (d.sched.actions.any (fun a => a.target == (Reg.telSweepStart k).ref || a.members.any (fun m => m.ref == (Reg.telSweepStart k).ref))))
  else d

/-- The untagged installer session of R424 ends as soon as the pair EOP_AUTH_PAIR:01 names has a Current half, with its subscriptions. -/
def Device.endLimited (d : Device) : Device :=
  if (tblGet d.sec.pairs (d.get (Reg.eopAuthPair 0))).any (fun p => p.cur.state == 2) then d.keepSessions (fun s => !s.limited) else d

/-- What follows the rest of the state beside plain values: the untagged session of R424, bias visits, line-path runs, TEL_SWEEP_STATE. -/
def Device.follow (d : Device) : Device :=
  ((d.endLimited.biasFollow.calFollow 0).calFollow 1).each [0, 1, 2] (fun k x => x.sweepFollow k)

/-- The status objects: PWR_BRINGUP with the first time of each stage, FEC_POOL_LOAD (units of 0.01 slot), SCHED_PENDING, EOP_SESSIONS, TIME_PULL_LEFT,
TIME_OUT_DRIVING. -/
def Device.status (d : Device) : Device :=
  let b := d.bringup
  let d := (d.set Reg.pwrBringup b).stageTimes
  let d := d.set Reg.fecPoolLoad (roundDiv d.poolLoad 8000)
  let d := d.set Reg.schedPending d.sched.actions.length
  let d := d.set Reg.eopSessions d.eop.sessions.length
  let d := (d.setI Reg.timePullLeft d.pullLeft).set Reg.timeOutDriving d.driving
  d.set Reg.pwrBringup b

end Sys2Proof.Machine
end

