-- ==== Sys2Proof/Machine/FabricOps.lean ====
section
/-! DEFINITION. Shared operations of the slice fabric: the map's accessors and layouts, group defects and their masking, the
sources under a failing port, protection requests and selection (chapter 08). -/

namespace Sys2Proof.Machine

/-! ### Layouts (Tables 8.3 to 8.5, 8.7) -/

/-- The entry a 96-bit word spells (Table 8.3). -/
def entryOf (w : Nat) : MapEntry :=
  ⟨bits w 95 94, bits w 79 64, bits w 63 56, bits w 55 32, bits w 31 24, bits w 23 0⟩

/-- The 96-bit word of an entry (Table 8.3). -/
def entryWord (e : MapEntry) : Nat :=
  e.kind * 2 ^ 94 + e.group * 2 ^ 64 + e.aPort * 2 ^ 56 + e.aSlice * 2 ^ 32 + e.bPort * 2 ^ 24 + e.bSlice

/-- The Default group record (Table 8.4). -/
def groupRecDefault : GroupRec := ⟨0, true, false, 0, 0, 5, 50, 0, 0⟩

/-- The record a 96-bit word spells (Table 8.4); its GROUP field is bits [95:80]. -/
def groupRecOf (w : Nat) : GroupRec :=
  ⟨bits w 79 78, bitAt w 77, bitAt w 76, bits w 75 74, bits w 71 64, bits w 63 56, bits w 55 48, bits w 47 24, bits w 23 0⟩

/-- The 96-bit word of group g's record (Table 8.4). -/
def groupRecWord (g : Nat) (r : GroupRec) : Nat :=
  g * 2 ^ 80 + r.prot * 2 ^ 78 + b2n r.revert * 2 ^ 77 + b2n r.monitor * 2 ^ 76 + r.tim * 2 ^ 74 + r.holdOff * 2 ^ 64 +
    r.wtr * 2 ^ 56 + r.allow * 2 ^ 48 + r.traceExp * 2 ^ 24 + r.traceTx

/-- Fields of an edit record (Table 8.5). -/
def editOp (w : Nat) : Nat := bits w 191 184
def editPort (w : Nat) : Nat := bits w 183 176
def editSlot (w : Nat) : Nat := bits w 175 152
def editCount (w : Nat) : Nat := bits w 151 128
def editBody (w : Nat) : Nat := bits w 95 0

/-- Fields of a group block header (Table 8.7). -/
def ghSeq (w : Nat) : Nat := bits w 127 96
def ghAis (w : Nat) : Bool := bitAt w 95
def ghTrace (w : Nat) : Nat := bits w 87 64

/-- A 128-bit header passes its CRC-16 (R129). -/
def hcrcOk (w : Nat) : Bool := crc16 112 (w / 2 ^ 16) == bits w 15 0

/-! ### Banks -/

/-- The key of an output slot. -/
def slotKey (port slot : Nat) : Nat := port * 2 ^ 24 + slot

/-- Sizes of a port in a bank (R177). -/
def Bank.inOf (b : Bank) (p : Nat) : Nat := tblGetD b.inSize p 0
def Bank.outOf (b : Bank) (p : Nat) : Nat := tblGetD b.outSize p 0

/-- The entry of an output slot; one not listed is unassigned. -/
def Bank.entry (b : Bank) (port slot : Nat) : MapEntry := tblGetD b.entries (slotKey port slot) ⟨0, 0, 0, 0, 0, 0⟩

/-- The record of a group. -/
def Bank.group (b : Bank) (g : Nat) : GroupRec := tblGetD b.groups g groupRecDefault

/-- The entries of a group with their keys, in ascending output slot (R181). -/
def Bank.members (b : Bank) (g : Nat) : List (Nat × MapEntry) := b.entries.filter (fun e => e.2.kind != 0 && e.2.group == g)

/-- The groups that have an entry, each once, in order of their lowest slot. -/
def groupsOf : List Nat → List (Nat × MapEntry) → List Nat
  | _, [] => []
  | seen, e :: r =>
    if e.2.kind = 0 ∨ seen.contains e.2.group then groupsOf seen r else e.2.group :: groupsOf (e.2.group :: seen) r

/-- The groups of a bank. -/
def Bank.groupList (b : Bank) : List Nat := groupsOf [] b.entries

/-- The run of entries at the front of a list that one record OP 2 makes: each the next slot of the port with the next A_SLICE and B_SLICE. -/
def runLength (k : Nat) (e : MapEntry) : List (Nat × MapEntry) → Nat
  | [] => 0
  | (k', e') :: r =>
    if k' = k + 1 ∧ e' = { e with aSlice := e.aSlice + 1, bSlice := e.bSlice + 1 } then runLength k' e' r + 1 else 0

/-- The runs of a list of entries: key of the first slot, its entry, how many. -/
def runsOf : Nat → List (Nat × MapEntry) → List (Nat × MapEntry × Nat)
  | 0, _ => []
  | _, [] => []
  | f + 1, (k, e) :: r =>
    let n := runLength k e r
    (k, e, n + 1) :: runsOf f (r.drop n)

/-- An edit record of 24 bytes (Table 8.5). -/
def editBytes (op port slot count body : Nat) : List Nat :=
  beBytes 24 (op * 2 ^ 184 + port * 2 ^ 176 + slot * 2 ^ 152 + count * 2 ^ 128 + body)

/-- The stored form of a bank (Table 18.6): generation, OP 4 per port of non-zero size, OP 2 per run, OP 5 per record off its Default. -/
def Bank.stored (b : Bank) (gen : Nat) : List Nat :=
  beBytes 2 gen ++
    ((List.range 66).filter (fun p => b.outOf p != 0 || b.inOf p != 0)).flatMap (fun p => editBytes 4 p 0 0 (b.outOf p * 2 ^ 72 + b.inOf p * 2 ^ 48)) ++
    (runsOf b.entries.length b.entries).flatMap (fun r => editBytes 2 (r.1 / 2 ^ 24) (r.1 % 2 ^ 24) r.2.2 (entryWord r.2.1)) ++
    b.groups.flatMap (fun g => editBytes 5 0 0 0 (groupRecWord g.1 g.2))

/-- A bank as FAB_MAP_ACTIVE and FAB_MAP_NEXT read (R211): port table, number of entries, entries, the records of all groups. -/
def Bank.shown (b : Bank) : List Nat :=
  (List.range 66).flatMap (fun p => beBytes 3 (b.outOf p) ++ beBytes 3 (b.inOf p)) ++ beBytes 4 b.entries.length ++
    b.entries.flatMap (fun e => beBytes 4 e.1 ++ beBytes 12 (entryWord e.2)) ++
    (List.range 65536).flatMap (fun g => beBytes 12 (groupRecWord g (b.group g)))

/-- The input address of a port's slot: IN_BASE plus the slot (R177). -/
def inAddr (sizes : List (Nat × Nat)) (port slot : Nat) : Nat :=
  ((sizes.filter (fun e => e.1 < port)).map (·.2)).foldl (· + ·) 0 + slot

/-- A group block header with its HCRC (Table 8.7). -/
def groupHeader (seq : Nat) (ais : Bool) (trace : Nat) : Nat :=
  let w := seq % 2 ^ 32 * 2 ^ 80 + b2n ais * 2 ^ 79 + trace * 2 ^ 48
  w * 2 ^ 16 + crc16 112 w

/-- n runs of 28 bits of the generator of R133 from the register r, after the bits acc. -/
def scramblerRuns : Nat → Nat → Nat → Nat
  | 0, _, acc => acc
  | n + 1, r, acc =>
    let f := (r / 8 ^^^ r) % 2 ^ 28
    scramblerRuns n ((r * 2 ^ 28 + f) % 2 ^ 31) (acc * 2 ^ 28 + f)

/-- What the scrambler of R194 adds to payload unit k of a group block, 1 to 255. -/
def scramblerUnit (k : Nat) : Nat :=
  let n := ceilDiv (128 * k) 28
  scramblerRuns n (2 ^ 31 - 1) 0 / 2 ^ (28 * n - 128 * k) % 2 ^ 128

/-- The next slice block of slice-group AIS on an output and the grid after it: the payload units of the block in progress, then blocks whose SEQ continues (R197). -/
def gridAis (g : Option OutGrid) : OutGrid × Nat :=
  match g with
  | none => (⟨0, 0, 0⟩, groupHeader 0 true 0)
  | some x =>
    let k := (x.pos + 1) % 256
    if k = 0 then (⟨(x.seq + 1) % 2 ^ 32, 0, 0⟩, groupHeader (x.seq + 1) true 0) else ({ x with pos := k }, (2 ^ 128 - 1) ^^^ scramblerUnit k)

/-- The grid of an output that carries a slice block of its source (R197): a valid header where one is due continues it, and after `bad` headers that were
invalid, or before any, the next valid header begins it anew. -/
def gridCarried (bad : Nat) (b : SliceBlock) (g : Option OutGrid) : Option OutGrid :=
  match g with
  | none => if hcrcOk b.data && !b.poison then some ⟨ghSeq b.data, 0, 0⟩ else none
  | some x =>
    let k := (x.pos + 1) % 256
    if k = 0 ∨ bad ≤ x.bad then
      if hcrcOk b.data && !b.poison then some ⟨ghSeq b.data, 0, 0⟩ else some { x with pos := k, bad := if k = 0 then x.bad + 1 else x.bad }
    else some { x with pos := k }

/-- Swaps that waited for the next bank may be armed from now on; one that is now late fails as its policy says (R25, R189). -/
def Device.releaseSwaps (d : Device) : Device :=
  d.each (d.sched.actions.filter (·.held)) (fun a x =>
    let a := { a with held := false, notBefore := max a.notBefore x.now }
    if x.isLate a && !a.late1 then x.failAction a (err stBakePast) else x.putAction a)

/-! ### Group state -/

/-- A monitoring point before any header: Hunt, nothing seen. -/
def pointNew : MonPoint := ⟨1, 0, 0, 0, 0, 0, 0, 0, 1, 0, none⟩

/-- A monitoring point that is off. -/
def pointOff : MonPoint := ⟨0, 0, 0, 0, 0, 0, 0, 0, 0, 0, none⟩

/-- A group not seen yet. -/
def groupNew : GroupState :=
  ⟨pointOff, pointOff, 0, 0, 0, false, false, false, 0, 0, [], 0, 0, 0, 0, false, false, none, none, 0, false, none, none, [], [], none⟩

/-- The state of a group. -/
def Device.grp (d : Device) (g : Nat) : GroupState := tblGetD d.fab.states g groupNew

/-- Writes the state of a group. -/
def Device.putGrp (d : Device) (g : Nat) (s : GroupState) : Device :=
  { d with fab := { d.fab with states := tblPut d.fab.states g s } }

/-- The defects of a monitoring point as reported: SSF masks every other, GLOF masks GAIS and GTIM, GAIS masks GTIM (R196). -/
def pointDefects (p : MonPoint) : Nat :=
  if p.align = 0 then 0
  else if bitAt p.raw 4 then 16
  else if bitAt p.raw 1 then withBit (withBit p.raw 2 false) 3 false
  else if bitAt p.raw 2 then withBit p.raw 3 false
  else p.raw

/-- The point gives SF: GLOF, GAIS, SSF, or GTIM when TIM is 2 (Table 8.8). -/
def pointSf (tim : Nat) (p : MonPoint) : Bool :=
  let x := pointDefects p
  bitAt x 1 || bitAt x 2 || bitAt x 4 || (bitAt x 3 && tim == 2)

/-- The point gives SD: SSD (Table 8.8). -/
def pointSd (p : MonPoint) : Bool := bitAt (pointDefects p) 5

/-- The group is monitored at its output: a client port, the packet port, MONITOR, or a protected group's legs; a group of KIND 3 has no source (R196). -/
def Bank.monitored (b : Bank) (g : Nat) : Bool :=
  let r := b.group g
  (b.members g).all (fun e => e.2.kind != 3) && (r.monitor || r.prot != 0 || (b.members g).any (fun e => e.1 / 2 ^ 24 ≤ 0x1F || e.1 / 2 ^ 24 = 0x41))

/-- The k-th lane (from 0, ascending) of a lane mask. -/
def laneAt (mask k : Nat) : Option Nat := ((List.range 8).filter (bitAt mask ·))[k]?

/-- Lanes in a mask. -/
def laneCount (mask : Nat) : Nat := ((List.range 8).filter (bitAt mask ·)).length

/-- U for a lane set: usable mate port slots (R378, R380). -/
def mateSlots (mask ctrl : Nat) : Nat := 10541 * laneCount mask - ctrl

/-- An input slot of the mate port is failed: no twin is paired (R11), at or beyond U, or dealt to a lane that has left lock (R378, R379). -/
def Device.mateFails (d : Device) (slot : Nat) : Bool :=
  d.get Reg.twinState != 3 || decide (mateSlots d.lane.rxDeal d.lane.mateCtrl ≤ slot) ||
    (match laneAt d.lane.rxDeal ((slot + d.lane.mateCtrl) % laneCount d.lane.rxDeal) with
     | some k => !bitAt (d.get Reg.laneMateRxLanes) k
     | none => true)

/-- The flags of the conditions that hold on an input slot: [0] SF, [1] SD, [2] slice-group AIS, [3] fill. -/
def Device.slotFlags (d : Device) (port slot : Nat) : Nat :=
  if port = 0x40 then (if d.mateFails slot then 5 else 0) else
  (d.fab.affected.filter (fun a => a.1 == port && decide (a.2.1 ≤ slot ∧ slot < a.2.1 + a.2.2.1))).foldl (fun x a => x ||| a.2.2.2.1) 0

/-- A group with slices on both members of a bonded port under BSK ([4] and [5]) has SF and slice-group AIS (Table 6.8). -/
def bothMembers (f : Nat) : Nat := if bitAt f 4 && bitAt f 5 then f ||| 5 else f

/-- The flags on any source slot of a leg (0 working, 1 protection) of a group: the group is affected as a whole (R142). -/
def Device.legFlags (d : Device) (g leg : Nat) : Nat :=
  bothMembers <| (d.fab.active.members g).foldl (fun x e =>
    x ||| (if leg = 0 then d.slotFlags e.2.aPort e.2.aSlice else d.slotFlags e.2.bPort e.2.bSlice)) 0

/-! ### Protection requests (R199 to R203) -/

/-- The request in force: the highest present (Table 8.9). -/
def requestInForce (s : GroupState) : Nat :=
  if s.cmd = 1 then 1
  else if bitAt s.reqs 2 then 2
  else if s.cmd = 2 then 3
  else if bitAt s.reqs 0 then 4
  else if bitAt s.reqs 3 then 5
  else if bitAt s.reqs 1 then 6
  else if s.cmd = 3 then 7
  else if s.cmd = 4 then 8
  else if s.wtr then 9
  else if s.dnr then 10
  else 0

/-- The leg a request selects: 1 protection (Table 8.9). -/
def requestLeg (r : Nat) : Nat := if [3, 4, 6, 7, 9, 10].contains r then 1 else 0

/-- The slice blocks that SEQ numbers before it wraps. -/
def seqSpan : Nat := 2 ^ 40

/-- A difference of two times of SEQ 0, in 1/n fu: of those that the wrap of SEQ allows, the one nearest to 0. -/
def seqDiff (a b : Int) : Int := (a - b + (seqSpan / 2 * fuCycle : Nat)) % ((seqSpan * fuCycle : Nat) : Int) - (seqSpan / 2 * fuCycle : Nat)

/-- The slack of a leg of a hitless group of n slots, in 1/n fu: the output time of a block less its arrival on the leg (R206). -/
def slackOf (s : GroupState) (p : MonPoint) : Option Int :=
  match s.outBase, p.norm with
  | some o, some a => some (seqDiff o a)
  | _, _ => none

/-- The state of a leg of a hitless group of n slots (R207): 0 Absent, 1 Aligned, 2 Unaligned. ALLOW is in units of 0.1 ms. -/
def legState (allow n : Nat) (s : GroupState) (p : MonPoint) : Nat :=
  match slackOf s p with
  | none => 0
  | some x => if 0 ≤ x ∧ x ≤ ((allow * 100 * fuUs + fuArm) * n : Nat) then 1 else 2

/-- The working leg of a hitless group is Unaligned (R207). -/
def workingUnaligned (r : GroupRec) (n : Nat) (s : GroupState) : Bool := r.prot == 2 && legState r.allow n s s.w == 2

/-- Evaluates a group's requests: an MS command is cancelled by one of priority 1 to 6 (R202); SF-W or SD-W ends WTR (R201), and so does its expiry once
the working leg is no longer Unaligned (R208); a request that selects working ends DNR. A change of the leg given is noted with its time for the selector; a
return to an Unaligned working leg without a defect waits (R208). -/
def evaluate (now : Nat) (r : GroupRec) (n : Nat) (s : GroupState) : GroupState :=
  let high := s.cmd == 1 || s.cmd == 2 || s.reqs != 0
  let s := if high && 3 ≤ s.cmd then { s with cmd := 0 } else s
  let waits := workingUnaligned r n s
  let s := if s.wtr && (bitAt s.reqs 0 || bitAt s.reqs 1 || (s.wtrExpired && !waits)) then { s with wtr := false, wtrExpired := false } else s
  let f := requestInForce { s with dnr := false }
  let s := if s.dnr && f != 0 && requestLeg f == 0 then { s with dnr := false } else s
  let f := requestInForce s
  let leg := if waits && s.selected == 1 && (f == 0 || f == 8) then 1 else requestLeg f
  let given := (s.pend.getLast?.map (·.2)).getD s.selected
  { s with inForce := f, pend := if leg = given then s.pend else s.pend ++ [(now, leg)] }

/-- What one SF or SD of a leg does to the requests: bit k of reqs (R200). With a hold-off it waits first; its end acts at
once. -/
def stepRequest (holdOff : Nat) (k : Nat) (on : Bool) (s : GroupState) : GroupState :=
  if on then
    if bitAt s.reqs k ∨ bitAt s.holding k then s
    else if holdOff = 0 then { s with reqs := withBit s.reqs k true } else { s with holding := withBit s.holding k true }
  else { s with reqs := withBit s.reqs k false, holding := withBit s.holding k false }

/-- The end of SF-W and SD-W with no request higher than WTR present: WTR for its minutes when revertive, else DNR (R201). -/
def endOfWorking (now : Nat) (r : GroupRec) (before : Nat) (s : GroupState) : GroupState :=
  if (bitAt before 0 || bitAt before 1) && !(bitAt s.reqs 0 || bitAt s.reqs 1) &&
      [0, 9, 10].contains (requestInForce { s with wtr := false, dnr := false }) then
    if r.revert then { s with wtr := true, wtrExpired := false, wtrEnd := now + r.wtr * 60 * fuSec } else { s with dnr := true }
  else s

/-- Takes the SF and SD of both legs into the requests of a protected group and evaluates them. -/
def Device.requests (d : Device) (g : Nat) (s : GroupState) : GroupState :=
  let r := d.fab.active.group g
  if r.prot = 0 then s
  else
    let before := s.reqs
    let s := stepRequest r.holdOff 0 (pointSf r.tim s.w) s
    let s := stepRequest r.holdOff 1 (pointSd s.w) s
    let s := stepRequest r.holdOff 2 (pointSf r.tim s.p) s
    let s := stepRequest r.holdOff 3 (pointSd s.p) s
    evaluate d.now r (d.fab.active.members g).length (endOfWorking d.now r before s)

/-- The output of a group sends slice-group AIS (R197): KIND 3; the leg it takes has SF or a source slot whose action is
slice-group AIS; a protected group with SF on both legs. -/
def Device.sendsAis (d : Device) (g : Nat) (s : GroupState) : Bool :=
  let r := d.fab.active.group g
  let leg := if r.prot = 0 then 0 else s.selected
  let pt := if leg = 0 then s.w else s.p
  (d.fab.active.members g).any (fun e => e.2.kind == 3) ||
    pointSf r.tim pt || bitAt (d.legFlags g leg) 2 || (r.prot != 0 && pointSf r.tim s.w && pointSf r.tim s.p)

/-- A notice of a group's defects changing at a point. -/
def Device.groupDefectNotice (d : Device) (g leg old new : Nat) : Device :=
  if old = new then d else d.notice (Reg.fabGrpDefects leg) [g, leg, old, new]

/-- The point of the leg that a group's output takes is in Sync without SF (R238). -/
def groupRuns (tim : Nat) (s : GroupState) : Bool :=
  let p := if s.selected = 0 then s.w else s.p
  p.align == 3 && !pointSf tim p

/-- Notes that the output's point has ceased to be in Sync without SF. -/
def noteBreak (tim : Nat) (old s : GroupState) : GroupState :=
  if groupRuns tim old && !groupRuns tim s then { s with breaks := s.breaks + 1 } else s

/-- Writes a group's state after a change at its points: requests, AIS, and the notices of changed defects. -/
def Device.settleGroup (d : Device) (g : Nat) (s : GroupState) : Device :=
  let old := d.grp g
  let s := d.requests g s
  let s := noteBreak (d.fab.active.group g).tim old { s with ais := d.sendsAis g s }
  let d := d.putGrp g s
  let d := d.groupDefectNotice g 0 (pointDefects old.w) (pointDefects s.w)
  d.groupDefectNotice g 1 (pointDefects old.p) (pointDefects s.p)

/-- Sets SSF and SSD of a point from its source flags (Table 8.8). -/
def pointSources (flags : Nat) (p : MonPoint) : MonPoint :=
  { p with raw := withBit (withBit p.raw 4 (bitAt flags 0)) 5 (bitAt flags 1) }

/-- Evaluates every group of the active bank after its sources' conditions changed; a declaration or clearing there is an event of its own (R196). -/
def Device.refreshGroups (d : Device) : Device :=
  d.each d.fab.active.groupList (fun g x =>
    let s := x.grp g
    let w := pointSources (x.legFlags g 0) s.w
    let p := pointSources (x.legFlags g 1) s.p
    let changed := pointDefects w != pointDefects s.w || pointDefects p != pointDefects s.p
    (if changed then x.takeSeq else x).settleGroup g { s with w := w, p := p })

/-- Replaces the conditions that a cause has set on input slots, and evaluates every group (R142). -/
def Device.affect (d : Device) (cause : Nat) (l : List (Nat × Nat × Nat × Nat)) : Device :=
  let l := l.map (fun a => (a.1, a.2.1, a.2.2.1, a.2.2.2, cause))
  let keep := d.fab.affected.filter (fun a => a.2.2.2.2 != cause)
  if keep ++ l = d.fab.affected then d
  else ({ d with fab := { d.fab with affected := keep ++ l } }).refreshGroups

/-- Causes of conditions on input slots: the defects of a carrier's line groups, the shed slots of a carrier, a hub leaf, a
client port, the mate port. -/
def causeLine (c : Nat) : Nat := c
def causeShed (c : Nat) : Nat := 2 + c
def causeLeaf (c leaf : Nat) : Nat := 16 + c * 128 + leaf
def causePort (p : Nat) : Nat := 512 + p

/-! ### Client ports (R369, R374) -/

/-- The port is a member of a FlexE group in force. -/
def Device.flexMember (d : Device) (p : Nat) : Bool := d.lane.flexActive.any (fun g => g.members.any (fun m => m.port == p))

/-- Slots of a stream of R Gb/s (R371). -/
def slotsOfRate (r : Nat) : Nat := ceilDiv (r * 51200 * 10002) 5080000

/-- Calendar slots of a client in a group. -/
def clientSlots (g : FlexeGroup) (id : Nat) : Nat := sumOf (g.members.map (fun m => (m.slots.filter (· == id)).length))

/-- The input slots of each client of a group on its lowest member's port: (identity, first, count), one after the other from slot 0 in the order of the
configuration (R373 states no places; assumption 34). -/
def clientRanges (g : FlexeGroup) : List (Nat × Nat × Nat) :=
  (g.clients.foldl (fun (x : Nat × List (Nat × Nat × Nat)) c =>
    let n := slotsOfRate (5 * clientSlots g c.1)
    (x.1 + n, x.2 ++ [(c.1, x.1, n)])) (0, [])).2

/-- The lowest member of a group. -/
def lowestMember (g : FlexeGroup) : Nat := g.members.foldl (fun a m => min a m.port) 255

/-- The member's PHY is removed (LANE_FLEXE_REMOVED). -/
def Device.flexRemoved (d : Device) (p : Nat) : Bool := bitAt (d.get Reg.laneFlexeRemoved) p

/-- Slots of clients with a calendar slot on a removed PHY, by group whose lowest member is p (R374). -/
def Device.flexFailed (d : Device) (p : Nat) : List (Nat × Nat × Nat × Nat) :=
  (d.lane.flexActive.filter (fun g => lowestMember g == p)).flatMap (fun g =>
    ((clientRanges g).filter (fun c => g.members.any (fun m => d.flexRemoved m.port && m.slots.contains c.1))).map (fun c => (p, c.2.1, c.2.2, 5)))

/-- The input slots of port p under a failure: all of them for a failed port in slice mode, those of the failed clients for a FlexE group (R369, R374). -/
def Device.refreshPort (d : Device) (p : Nat) : Device :=
  d.affect (causePort p)
    (if d.flexMember p then d.flexFailed p
     else if d.get (Reg.pktPortMode p) = 0 ∧ d.get (Reg.lanePortState p) ≠ 2 then [(p, 0, 2 ^ 24, 5)] else [])

end Sys2Proof.Machine
end

