-- ==== Sys2Proof/Machine/PacketOps.lean ====
section
/-! DEFINITION. Queues, capacities and bounds of packet adaptation, and what its objects show of the selected queue, port and flow (chapter 09). -/

namespace Sys2Proof.Machine

/-! ### Layouts (Tables 9.2, 9.3, 9.8, 9.9) and accessors -/

def qcQueue (w : Nat) : Nat := bits w 127 110
def qcEnable (w : Nat) : Bool := bitAt w 109
def qcDir (w : Nat) : Nat := bits w 108 108
def qcPort (w : Nat) : Nat := bits w 107 103
def qcGroup (w : Nat) : Nat := bits w 95 80
def qcRate (w : Nat) : Nat := bits w 79 48
def qcDelay (w : Nat) : Nat := bits w 47 32
def qcWm (w : Nat) : Nat := bits w 31 8
def qcHyst (w : Nat) : Nat := bits w 7 0

/-- The Default record of a queue: DELAY 50, WM_HYST 32. -/
def qcDefault (q : Nat) : Nat := q * 2 ^ 110 + 50 * 2 ^ 32 + 32

/-- A queue at its defaults. -/
def queueNew (q : Nat) : PktQueue := ⟨qcDefault q, 0, [], false, 0, false, false, false, 0, 0, 0, 0, 0, 0, 0, 0, 0, 0, [], [], []⟩

def Device.queue (d : Device) (q : Nat) : PktQueue := tblGetD d.pkt.queues q (queueNew q)
def Device.putQueue (d : Device) (q : Nat) (x : PktQueue) : Device :=
  { d with pkt := { d.pkt with queues := tblSet d.pkt.queues q x (queueNew q) } }

/-- A counter of a port: 0 received, 1 accepted, 2 refused, 3 policed, 4 errored, 5 dropped, 6 poison misses, 7 transmitted, 8 dropped at
egress, 9 PKT_PORT_POISON_MISS. -/
def Device.countPort (d : Device) (p k : Nat) : Device :=
  { d with pkt := { d.pkt with counts := tblPut d.pkt.counts (16 * p + k) (tblGetD d.pkt.counts (16 * p + k) 0 + 1) } }

/-- Charge of an item: 8 * (1 + ceil(L / 8)) (R228). -/
def chargeOf (l : Nat) : Nat := 8 * (1 + ceilDiv l 8)

/-- Depth of a queue in charge bytes (R228). -/
def queueDepth (x : PktQueue) : Nat := sumOf (x.items.map (fun i => chargeOf i.length)) - (if x.begun then x.taken else 0)

/-! ### Words, granules and staging (R224, R225, R234) -/

/-- The words of an item of a frame's bytes: 8 bytes each, the last filled with 0x00; EOI is tag bit 3, the valid count less one bits [2:0]. -/
def frameWords : Nat → List Nat → List PktWord
  | 0, _ => []
  | n + 1, bs =>
    let b := bs.take 8
    let data := ofBytes (b ++ List.replicate (8 - b.length) 0)
    if n = 0 then [⟨data, 8 + (b.length - 1)⟩] else ⟨data, 7⟩ :: frameWords n (bs.drop 8)

/-- The words of a frame. -/
def itemWords (bs : List Nat) : List PktWord := frameWords (ceilDiv bs.length 8) bs

/-- The bytes of an item's words, as many as their tags say. -/
def wordBytes (l : List PktWord) : List Nat := l.flatMap (fun w => (beBytes 8 w.data).take (w.tag % 8 + 1))

/-- Eight words as a granule (R234). -/
def packGranule (l : List PktWord) : Granule :=
  ⟨l.foldl (fun x w => x * 2 ^ 64 + w.data % 2 ^ 64) 0, l.foldl (fun x w => x * 16 + w.tag % 16) 0⟩

/-- The words of a granule. -/
def Granule.unpack (g : Granule) : List PktWord :=
  (List.range 8).map (fun k => ⟨g.data / 2 ^ (64 * (7 - k)) % 2 ^ 64, g.tags / 16 ^ (7 - k) % 16⟩)

/-- What a queue holds, head first. -/
def PktQueue.content (x : PktQueue) : List PktWord := x.head ++ x.mid.flatMap Granule.unpack ++ x.tail

/-- With an empty middle, tail staging moves straight to head staging as far as there is room (R225). -/
def PktQueue.settle (x : PktQueue) : PktQueue :=
  if x.mid.isEmpty then { x with head := x.head ++ x.tail.take (8 - x.head.length), tail := x.tail.drop (8 - x.head.length) } else x

/-- The producer writes a word; a full tail staging goes to the middle as a whole granule (R225). -/
def PktQueue.push (x : PktQueue) (w : PktWord) : PktQueue :=
  let y := ({ x with tail := x.tail ++ [w] } : PktQueue).settle
  if y.tail.length = 8 then { y with mid := y.mid ++ [packGranule y.tail], tail := [] } else y

/-- The consumer takes a word; an empty head staging is filled with the next granule, or from tail staging. -/
def PktQueue.pop (x : PktQueue) : Option (PktWord × PktQueue) :=
  match x.head with
  | [] => none
  | w :: r =>
    let y : PktQueue := { x with head := r }
    some (w, match r, y.mid with
      | [], g :: m => { y with head := g.unpack, mid := m }
      | _, _ => y.settle)

/-- The last word is taken back: a granule already written is read back into tail staging (R225). -/
def PktQueue.rewindWord (x : PktQueue) : PktQueue :=
  if x.tail ≠ [] then { x with tail := x.tail.dropLast }
  else
    match x.mid.getLast? with
    | some g => { x with mid := x.mid.dropLast, tail := g.unpack.dropLast }
    | none => { x with head := x.head.dropLast }

/-- The last n words are taken back. -/
def PktQueue.rewind (x : PktQueue) : Nat → PktQueue
  | 0 => x
  | n + 1 => (x.rewindWord).rewind n

/-- The words of the begun item that the consumer has taken, of its charge taken. -/
def wordsOf (taken : Nat) : Nat := taken / 8 - 1

/-- The words of the begun item that the consumer has still to take. -/
def PktQueue.left (x : PktQueue) : Nat :=
  match x.begun, x.items with
  | true, i :: _ => ceilDiv i.length 8 - wordsOf x.taken
  | _, _ => 0

/-! ### Capacities (R212, R229, R230, R232) -/

/-- MAC rate of a port type in Mb/s (Table 15.2). -/
def macRate (ty : Nat) : Nat :=
  [0, 25000, 50000, 100000, 100000, 100000, 200000, 200000, 200000, 400000, 400000, 400000, 800000, 800000].getD ty 0

/-- C_port: floor(1.6 * m * 72 / 84) (R230). -/
def Device.portCapacity (d : Device) (p : Nat) : Nat := 16 * macRate (d.get (Reg.lanePortType p)) * 72 / 840

/-- The input slots of port 0x41 that a bank's entries name, with their groups. -/
def Bank.channelUses (b : Bank) : List (Nat × Nat) :=
  b.entries.flatMap (fun e =>
    (if (e.2.kind = 1 ∨ e.2.kind = 2) ∧ e.2.aPort = 0x41 then [(e.2.aSlice, e.2.group)] else []) ++
    (if e.2.kind = 2 ∧ e.2.bPort = 0x41 then [(e.2.bSlice, e.2.group)] else []))

/-- The owner of each channel slot: the lowest-numbered group that names it (R229). -/
def channelOwners : List (Nat × Nat) → List (Nat × Nat)
  | [] => []
  | (s, g) :: r =>
    let t := channelOwners r
    match tblGet t s with
    | none => tblPut t s g
    | some g' => tblPut t s (min g g')

/-- n_g, and c_g = floor(127 * n_g / 8) (R229). -/
def Bank.channelSize (b : Bank) (g : Nat) : Nat := ((channelOwners b.channelUses).filter (fun e => e.2 == g)).length
def Bank.channelCap (b : Bank) (g : Nat) : Nat := 127 * b.channelSize g / 8

/-- Slots that two groups name (R229). -/
def Bank.channelConflicts (b : Bank) : Nat :=
  let uses := b.channelUses
  ((channelOwners uses).filter (fun e => uses.any (fun u => u.1 == e.1 && u.2 != e.2))).length

/-- Output slots of a group on port 0x41. -/
def Bank.egressSlots (b : Bank) (g : Nat) : Nat := ((b.members g).filter (fun e => e.1 / 2 ^ 24 == 0x41)).length

/-- M: the largest charge PKT_MTU allows (R232). -/
def Device.maxCharge (d : Device) : Nat := chargeOf (d.get Reg.pktMtu)

/-- What drains a queue: its channel or its port, in bytes per cycle. -/
def Device.drainCap (d : Device) (cfg : Nat) : Nat :=
  if qcDir cfg = 0 then d.fab.active.channelCap (qcGroup cfg) else d.portCapacity (qcPort cfg)

/-- J in units of 1/1000 ns less its fixed part: fixed part in ns (Table 9.6). -/
def fixedJ (dir : Nat) : Nat := if dir = 0 then 27600 else 14800

/-- J in fu, rounded up; nothing drains a queue without capacity (none). -/
def Device.jitterFu (d : Device) (cfg : Nat) : Option Nat :=
  let c := d.drainCap cfg
  if c = 0 then none else some (ceilDiv (fuCycle * d.maxCharge) c + fixedJ (qcDir cfg) * fuNs)

/-- PKT_Q_BOUND in ns: d + J, rounded up (assumption 25); its Default 0 for a queue that is not enabled (R3). Without capacity the formula has no value:
not stated (assumption 22). -/
def Device.queueBound (d : Device) (q : Nat) : Nat :=
  let cfg := (d.queue q).cfg
  let c := d.drainCap cfg
  if !qcEnable cfg then 0
  else if c = 0 then Config.unstated q
  else qcDelay cfg * 10000 + fixedJ (qcDir cfg) + ceilDiv (12800 * d.maxCharge) c

/-! ### Watermarks and the consumer's reads (R228, R240) -/

/-- Watermark crossings after a change of depth (R240): live status, latch, first crossing with its notice. -/
def Device.watermark (d : Device) (q : Nat) : Device :=
  let x := d.queue q
  let wm := qcWm x.cfg * 64
  let dep := queueDepth x
  let up := !x.live && wm != 0 && decide (wm ≤ dep)
  let down := x.live && (wm == 0 || decide (dep * 256 < wm * (256 - qcHyst x.cfg)))
  if !(up || down) then d
  else if wm = 0 then d.putQueue q { x with live := false }
  else if bitAt x.latch 31 then
    d.putQueue q { x with live := up, latch := withBit x.latch 29 down / 2 ^ 24 * 2 ^ 24 + min (bits x.latch 23 16 + 1) 255 * 2 ^ 16 }
  else
    let d := d.putQueue q { x with live := up, latch := 2 ^ 31 + b2n down * (2 ^ 30 + 2 ^ 29) + 2 ^ 16, wmFirst := fuToTime96 d.now }
    ({ d with pkt := { d.pkt with wmList := d.pkt.wmList ++ [q] } }).notice Reg.pktWmList [q, b2n down]

def Device.chanOf (d : Device) (g : Nat) : Channel := tblGetD d.pkt.chan g ⟨0, 0, [], false⟩
def Device.putChan (d : Device) (g : Nat) (x : Channel) : Device := { d with pkt := { d.pkt with chan := tblPut d.pkt.chan g x } }

/-- Words that the consumer of a queue has taken wait for their slots, or join the frame that the port's transmitter sends. -/
def Device.consumerTakes (d : Device) (cfg : Nat) (l : List PktWord) : Device :=
  if qcDir cfg = 0 then
    let c := d.chanOf (qcGroup cfg)
    d.putChan (qcGroup cfg) { c with words := c.words ++ l.map (fun w => ⟨w.data, false, c.bad⟩) }
  else { d with pkt := { d.pkt with tx := tblPut d.pkt.tx (qcPort cfg) (tblGetD d.pkt.tx (qcPort cfg) [] ++ l) } }

/-- The consumer takes n words of the item it has begun. -/
def Device.takeWords (d : Device) (q : Nat) : Nat → Device
  | 0 => d
  | n + 1 =>
    let x := d.queue q
    if x.left = 0 then d
    else
      match x.pop with
      | none => d
      | some (w, y) => ((d.putQueue q { y with taken := max y.taken (8 * (wordsOf y.taken + 2)) }).consumerTakes x.cfg [w]).takeWords q n

/-- The charge of the begun item that n bytes taken of it come to: never less than was taken, never more than all of it. -/
def takenUpTo (x : PktQueue) (n : Nat) : Nat :=
  match x.begun, x.items with
  | true, i :: _ => max x.taken (min n (chargeOf i.length))
  | _, _ => x.taken

/-- The consumer's reads up to now: the depth follows, and with it the watermark (R228, R240). -/
def Device.reads (d : Device) (q n : Nat) : Device :=
  let x := d.queue q
  let t := takenUpTo x n
  if t = x.taken then d
  else
    let d := d.takeWords q (wordsOf t - wordsOf x.taken)
    (d.putQueue q { d.queue q with taken := t }).watermark q

/-! ### The channels (R229, R237) -/

/-- The bank whose channels the packet port fills: the next one from the input cycle that takes its port table (R229; Table 8.6, step 2). -/
def Device.channelBank (d : Device) : Bank := if d.fab.passed then d.fab.next else d.fab.active

/-- The queues of a channel. -/
def Device.channelQueues (d : Device) (g : Nat) : List (Nat × PktQueue) :=
  d.pkt.queues.filter (fun e => qcDir e.2.cfg == 0 && qcGroup e.2.cfg == g)

/-- An item header for a frame of l bytes; 0: an idle item (Table 9.9). -/
def itemHeader (l : Nat) : Nat := l % 2 ^ 14 * 2 ^ 50 + crc16 48 (l % 2 ^ 14 * 2 ^ 34)

/-- The pointer word for FIRST (Table 9.8). -/
def pointerWord (first : Nat) : Nat := first * 2 ^ 52 + crc16 48 (first * 2 ^ 36)

/-- Words until the next item header of a channel: those that wait, then those left of the item begun. -/
def Device.untilHeader (d : Device) (g : Nat) : Nat :=
  let c := d.chanOf g
  match c.words.findIdx? (·.start) with
  | some k => k
  | none => c.words.length + sumOf ((d.channelQueues g).map (fun e => e.2.left))

/-- The next word that a channel sends: one that waits, one of the item begun, or an idle item (R231). -/
def Device.nextChanWord (d : Device) (g : Nat) : Device × ChanWord :=
  let d := if (d.chanOf g).words.isEmpty then
      match (d.channelQueues g).find? (fun e => e.2.left != 0) with
      | some e => d.takeWords e.1 1
      | none => d
    else d
  let c := d.chanOf g
  match c.words with
  | [] => (d, ⟨itemHeader 0, true, false⟩)
  | w :: r => (d.putChan g { c with words := r }, w)

/-- One payload unit of two words, the first of which is given on unit 1, scrambled (R194, R237). -/
def channelUnit (k : Nat) (a b : ChanWord) : SliceBlock := ⟨(a.data * 2 ^ 64 + b.data) ^^^ scramblerUnit k, a.poison || b.poison⟩

/-- The next slice block of a channel: the header of a group block with the TRACE_TX of the active bank, the pointer word and the first word of its item area, or two
words (R193, R237). -/
def Device.channelBlock (d : Device) (g : Nat) : Device × SliceBlock :=
  let c := d.chanOf g
  let step (x : Device) : Device :=
    let c := x.chanOf g
    x.putChan g { c with pos := (c.pos + 1) % 256, seq := if c.pos = 255 then (c.seq + 1) % 2 ^ 32 else c.seq }
  if c.pos = 0 then (step d, ⟨groupHeader c.seq false (d.fab.active.group g).traceTx, false⟩)
  else if c.pos = 1 then
    let first := if 8 * d.untilHeader g < 4072 then 8 * d.untilHeader g else 0xFFF
    let b := d.nextChanWord g
    (step b.1, channelUnit 1 ⟨pointerWord first, false, false⟩ b.2)
  else
    let a := d.nextChanWord g
    let b := a.1.nextChanWord g
    (step b.1, channelUnit c.pos a.2 b.2)

/-- The slots of a channel, ascending, take its next slice blocks; its queue's depth follows. -/
def Device.fillChannel (slots : List Nat) (g : Nat) (x : Device × List (Nat × SliceBlock)) : Device × List (Nat × SliceBlock) :=
  let y := slots.foldl (fun (a : Device × List (Nat × SliceBlock)) s =>
    let b := a.1.channelBlock g
    (b.1, tblPut a.2 s b.2)) x
  (y.1.each ((y.1.channelQueues g).filter (·.2.begun)) (fun e z => z.watermark e.1), y.2)

/-- What the packet port places in its input slots in a cycle, channel by channel. -/
def Device.fillChannels (d : Device) : Device × List (Nat × SliceBlock) :=
  let owners := channelOwners d.channelBank.channelUses
  (sortBy (fun a b => decide (a < b)) (owners.map (·.2)).eraseDups).foldl
    (fun x g => Device.fillChannel ((owners.filter (fun e => e.2 == g)).map (·.1)) g x) (d, [])

/-! ### Extractors (R227, R237, R238) -/

/-- The enabled queues of a direction. -/
def Device.enabledQueues (d : Device) (dir : Nat) : List (Nat × PktQueue) :=
  d.pkt.queues.filter (fun e => qcEnable e.2.cfg && qcDir e.2.cfg == dir)

def Device.extOf (d : Device) (g : Nat) : Extractor := tblGetD d.pkt.ext g ⟨true, none, false, 0, 0xFFF, []⟩
def Device.putExt (d : Device) (g : Nat) (x : Extractor) : Device := { d with pkt := { d.pkt with ext := tblPut d.pkt.ext g x } }

/-- The enabled egress queue of a group. -/
def Device.egressQueue (d : Device) (g : Nat) : Option Nat := ((d.enabledQueues 1).find? (fun e => qcGroup e.2.cfg == g)).map (·.1)

/-- The extractor of a group works: the selected leg's monitoring point is in Sync without SF (R238). -/
def Device.extractorRuns (d : Device) (g : Nat) : Bool := groupRuns (d.fab.active.group g).tim (d.grp g)

/-- The extractor stands where it last looked: the group has not stopped running since. -/
def Device.extractorFollows (d : Device) (g : Nat) : Bool := (d.extOf g).epoch == (d.grp g).breaks

/-- An open egress item is rewound and counted; one a fence met is only discarded. -/
def Device.rewindEgress (d : Device) (g : Nat) : Device :=
  let x := d.extOf g
  match x.item, d.egressQueue g with
  | some l, some q =>
    let d := d.putExt g { x with item := none, fenced := false }
    let y := d.queue q
    if x.fenced then d.putQueue q { y with fenceWords := y.fenceWords + ceilDiv l 8 }
    else (d.putQueue q { y with rewound := y.rewound + 1 }).bump Reg.pktEgErrors
  | _, _ => d.putExt g { x with item := none, fenced := false }

/-- After SF or GOOF the item then open has been rewound, and the stream is to be found again at FIRST (R238). -/
def Device.catchUp (d : Device) (g : Nat) : Device :=
  if d.extractorFollows g then d
  else
    let d := d.rewindEgress g
    d.putExt g { d.extOf g with lost := true, epoch := (d.grp g).breaks, words := [], ptr := 0xFFF }

/-- FIRST of a pointer word; 0xFFF where it fails PCRC, or its slice is marked (Table 9.8). -/
def firstOf (w : Nat) (poison : Bool) : Nat := if crc16 48 (w / 2 ^ 16) = w % 2 ^ 16 ∧ !poison then bits w 63 52 else 0xFFF

/-- A slice block that port 0x41 puts out for a group goes to its extractor: of unit 1 the pointer word and one word, of every other payload unit two words
(R237, R238). -/
def Device.extract (d : Device) (g : Nat) (b : SliceBlock) : Device :=
  let d := d.catchUp g
  match (d.grp g).grid with
  | none => d
  | some t =>
    if !d.extractorRuns g ∨ t.pos = 0 then d
    else
      let x := d.extOf g
      let w := b.data ^^^ scramblerUnit t.pos
      let ptr := if t.pos = 1 then firstOf (w / 2 ^ 64) b.poison else x.ptr
      let at_ := 16 * (t.pos - 1)
      let word (v at_ : Nat) : AreaWord := ⟨v, b.poison, at_ == ptr⟩
      let l := if t.pos = 1 then [word (w % 2 ^ 64) 0] else [word (w / 2 ^ 64) (at_ - 8), word (w % 2 ^ 64) at_]
      d.putExt g { x with ptr := ptr, words := x.words ++ l }

/-! ### Objects of the selected queue, port and flow -/

/-- Short counts are folded into the counter record before they reach half their range (R226). -/
def foldFlow (f : Flow) : Flow :=
  { f with accBytes := 0, accPkts := 0, polPkts := 0, refPkts := 0, recPkts := (f.recPkts + f.accPkts) % 2 ^ 64,
           recBytes := (f.recBytes + f.accBytes) % 2 ^ 64, recPoliced := (f.recPoliced + f.polPkts) % 2 ^ 64,
           recRefused := (f.recRefused + f.refPkts) % 2 ^ 64 }

/-- The entry word of a flow. -/
def flowWord (k : Nat) (f : Flow) : Nat :=
  k * 2 ^ 192 + b2n f.valid * 2 ^ 191 + f.action * 2 ^ 188 + f.queue * 2 ^ 170 + f.cir * 2 ^ 144 + f.cbs * 2 ^ 124 + f.tokens % 2 ^ 28 * 2 ^ 96 +
    f.last % 2 ^ 32 * 2 ^ 64 + f.accBytes % 2 ^ 28 * 2 ^ 36 + f.accPkts % 2 ^ 16 * 2 ^ 20 + f.polPkts % 2 ^ 8 * 2 ^ 12 + f.refPkts % 2 ^ 8 * 2 ^ 4

/-- The value of an object that PKT_Q_SELECT, PKT_PORT_SELECT or PKT_FLOW_LOOKUP chooses. -/
def Device.packetShown (d : Device) (ref : Nat) : Option Nat :=
  let x := d.queue (d.get Reg.pktQSelect)
  let k := ref % 256
  if ref / 256 = 0x4022 then
    some (match k with
      | 1 => x.state | 2 => queueDepth x | 3 => x.items.length | 4 => d.queueBound (d.get Reg.pktQSelect) | 5 => b2n x.live
      | 6 => x.latch | 7 => x.wmFirst | 8 => x.accepted | 9 => x.refused | 10 => x.policed | 11 => x.rewound
      | 12 => x.flushedItems | 13 => x.flushedBytes | 14 => x.fenceWords
      | 15 => x.mid.length
      | _ => x.peak)
  else if ref / 256 = 0x4016 then some (tblGetD d.pkt.counts (16 * d.get Reg.pktPortSelect + (k - 1)) 0)
  else if ref = Reg.pktFlowResult.ref then
    some (((tblGet d.pkt.flows (d.get Reg.pktFlowLookup)).map (flowWord (d.get Reg.pktFlowLookup))).getD 0)
  else if ref = Reg.pktFlowCounters.ref then
    some (((tblGet d.pkt.flows (d.get Reg.pktFlowLookup)).map (fun f =>
      let g := foldFlow f
      g.recPkts * 2 ^ 192 + g.recBytes * 2 ^ 128 + g.recPoliced * 2 ^ 64 + g.recRefused)).getD 0)
  else none

end Sys2Proof.Machine
end

