-- ==== Sys2Proof/Machine/FrameOps.lean ====
section
/-! DEFINITION. Shared operations of the framer: loading codes and capacity, header layouts, defects with their masking and
consequent actions, alignment changes (chapters 03 and 06). -/

namespace Sys2Proof.Machine

/-! ### Loading codes (Table 3.2) and capacity (R134) -/

/-- A code outside the reserved ones of Table 3.2. -/
def codeOk (c : Nat) : Bool := decide (c ≤ 3 ∨ (24 ≤ c ∧ c ≤ 96))

/-- The effective code c of Table 3.2; a reserved code carries nothing. -/
def effCode (c : Nat) : Nat :=
  if c = 1 then 32 else if c = 2 then 64 else if c = 3 then 96 else if 24 ≤ c ∧ c ≤ 96 then c else 0

/-- Bits a subcarrier takes in one mapping period of 256 symbols (R41, R43). -/
def mappingBits (c : Nat) : Nat := 32 * effCode c

/-- Coded bits per line frame (Table 5.1). -/
def frameBits (overhead : Nat) : Nat := [595648, 620768, 655040].getD overhead 620768

/-- Decoder deadline D in ns (Table 5.1). -/
def deadlineNs (overhead : Nat) : Nat := [900, 1200, 1600].getD overhead 1200

/-- N = floor(25 974 * sum(c_k) * 4 016 / F) (R134). -/
def lineSlots (codes : List Nat) (overhead : Nat) : Nat :=
  25974 * (codes.map effCode).foldl (· + ·) 0 * 4016 / frameBits overhead

/-- The overhead in force on a carrier; C0's governs both while bonded (R104). -/
def Device.overhead (d : Device) (c : Nat) : Nat :=
  d.get (Reg.fecOverhead (if d.on Reg.frmBondMode then 0 else c))

/-- The group a subcarrier belongs to: the last group that begins at or below it. -/
def Device.groupOfSc (d : Device) (c k : Nat) : Nat :=
  ((List.range (k + 1)).reverse.find? (fun g => bitAt (d.groupMask c) g)).getD 0

/-- The subcarriers of a group. -/
def Device.groupScs (d : Device) (c g : Nat) : List Nat := (List.range 16).filter (fun k => d.groupOfSc c k == g)

/-- Codes in force on transmit and receive. -/
def Device.txCodes (d : Device) (c : Nat) : List Nat := (List.range 16).map (fun k => d.get (Reg.lineTxLoad c k))
def Device.rxCodes (d : Device) (c : Nat) : List Nat := (List.range 16).map (fun k => d.get (Reg.lineRxLoad c k))

/-- Transmit and receive N of a group (R134). -/
def Device.txSlots (d : Device) (c g : Nat) : Nat :=
  lineSlots ((d.groupScs c g).map (fun k => d.get (Reg.lineTxLoad c k))) (d.overhead c)
def Device.rxSlots (d : Device) (c g : Nat) : Nat :=
  lineSlots ((d.groupScs c g).map (fun k => d.get (Reg.lineRxLoad c k))) (d.overhead c)

/-- Reports FRM_CAPACITY and FRM_RX_CAPACITY of every group; 0 where no group begins (Table 6.9). -/
def Device.reportCapacity (d : Device) (c : Nat) : Device :=
  d.each (List.range 16) (fun g x =>
    if bitAt (x.groupMask c) g then (x.set (Reg.frmCapacity c g) (x.txSlots c g)).set (Reg.frmRxCapacity c g) (x.rxSlots c g)
    else (x.set (Reg.frmCapacity c g) 0).set (Reg.frmRxCapacity c g) 0)

/-- Grant records of a hub carrier's table in force (Table 7.1). -/
def Device.grantsActive (d : Device) (c : Nat) : List Nat := recordsOf 8 (d.dom (Reg.hubGrantActive c).ref)

/-- The receive codes of a hub carrier: a subcarrier that a continuous leaf holds has that leaf's code, every other 0 (R157, R164). -/
def Device.hubRxCodes (d : Device) (c : Nat) : List Nat :=
  (List.range 16).map (fun k =>
    (((d.grantsActive c).find? (fun r => bits r 55 52 == k && bitAt r 23)).map (bits · 31 24)).getD 0)

/-- The start table of a carrier: code 32 where LINE_LOAD_START_MASK is set, else 0 (R100). -/
def Device.startCodes (d : Device) (c : Nat) : List Nat :=
  (List.range 16).map (fun k => if bitAt (d.get (Reg.lineLoadStartMask (d.loadCarrier c))) k then 32 else 0)

/-- The codes a transmitter starts with: the start table, or HUB_DS_CODE on a hub carrier (R100, R151). -/
def Device.txStart (d : Device) (c : Nat) : List Nat :=
  if d.on (Reg.hubEnable c) then (List.range 16).map (fun k => d.get (Reg.hubDsCode c k)) else d.startCodes c

/-- The codes a receiver starts with. -/
def Device.rxStart (d : Device) (c : Nat) : List Nat :=
  if d.on (Reg.hubEnable c) then d.hubRxCodes c else d.startCodes c

/-! ### Block header layouts (Tables 6.2, 6.3) -/

def bhBlock (w : Nat) : Nat := bits w 127 124
def bhRdi (w : Nat) : Bool := bitAt w 123
def bhAis (w : Nat) : Bool := bitAt w 122
def bhStuff (w : Nat) : Nat := bits w 121 120
def bhCycPos (w : Nat) : Nat := bits w 119 112
def bhFrameCount (w : Nat) : Nat := bits w 111 64
def bhTable (w : Nat) : Nat := bits w 63 56
def bhStamp (w : Nat) : Nat := bits w 55 24
def bhSec (w : Nat) : Nat := bits w 23 16
def bhNextTable (w : Nat) : Nat := bits w 111 104
def bhNextValid (w : Nat) : Bool := bitAt w 103
def bhSwitchFrame (w : Nat) : Nat := bits w 95 48
def bhCarrier (w : Nat) : Bool := bitAt w 47
def bhBonded (w : Nat) : Bool := bitAt w 46
def bhFirstSc (w : Nat) : Nat := bits w 45 42
def bhTrace (w : Nat) : Nat := bits w 39 16
def bhRei (w : Nat) : Nat := bits w 111 96

/-- A crypt group is in force (SEC_CG_ACTIVE holds an enabled record of the carrier). -/
def Device.secRuns (d : Device) (c : Nat) : Bool :=
  (recordsOf 16 (d.dom Reg.secCgActive.ref)).any (fun w => bitAt w 120 && bits w 115 115 == d.loadCarrier c)

/-- A header word with its HCRC (R129) from bits [127:16]. -/
def withHcrc (w : Nat) : Nat := w / 2 ^ 16 * 2 ^ 16 + crc16 112 (w / 2 ^ 16)

/-- The header of block b of a frame of group g (Tables 6.2, 6.3): STUFF and CYC_POS of its payload, the frame's AIS and RDI, and the fields of its block. A hub
group's table is its downstream code (assumption 164). -/
def Device.blockHeader (d : Device) (c g : Nat) (x : TxGroup) (f : TxFrame) (b stuff cycPos : Nat) : Nat :=
  let body :=
    match b with
    | 0 =>
      let sec := if d.secRuns c then Config.secField c g f.count % 256 else 0
      f.count * 2 ^ 64 + (if d.on (Reg.hubEnable c) then d.get (Reg.lineTxLoad c g) else x.table) * 2 ^ 56 + f.stamp * 2 ^ 24 + sec * 2 ^ 16
    | 1 =>
      (match x.announce with
        | some a => a.1 * 2 ^ 104 + 2 ^ 103 + a.2 * 2 ^ 48
        | none => 0) + c * 2 ^ 47 + b2n (d.on Reg.frmBondMode) * 2 ^ 46 + g * 2 ^ 42 + d.get (Reg.frmTxTrace c) % 2 ^ 24 * 2 ^ 16
    | 2 => x.rei * 2 ^ 96
    | _ => 0
  withHcrc (b * 2 ^ 124 + b2n f.rdi * 2 ^ 123 + b2n f.ais * 2 ^ 122 + stuff * 2 ^ 120 + cycPos * 2 ^ 112 + body)

/-! ### Overhead slots (R132) -/

/-- The message for the slot of block b of group g at device time `now`: the first of its class that is still sent and still to go on g. One that stays goes
behind the others of the list; one that does not leaves the group's turn. -/
def takeSlot (b g now : Nat) : List SlotMsg → Nat × List SlotMsg
  | [] => (0, [])
  | m :: r =>
    if m.till ≠ 0 ∧ m.till ≤ now then takeSlot b g now r
    else if (m.cls = b % 4 ∨ m.cls = 16 + b) ∧ m.groups.contains g = true then
      (m.word, if m.stays then r ++ [m] else
        (if m.groups.all (· == g) then r else { m with groups := m.groups.filter (· != g) } :: r))
    else
      let x := takeSlot b g now r
      (x.1, m :: x.2)

/-- The sixteen slots of a frame of group g from block b on; a message for block b alone goes before the others; security slots are the caller's. -/
def takeSlots (g now : Nat) : Nat → Nat → List SlotMsg → List Nat × List SlotMsg
  | 0, _, l => ([], l)
  | n + 1, b, l =>
    let x := if b % 4 = 2 then (0, l) else takeSlot b g now (l.filter (fun m => m.cls == 16 + b) ++ l.filter (fun m => m.cls != 16 + b))
    let y := takeSlots g now n (b + 1) x.2
    (x.1 :: y.1, y.2)

/-! ### Groups -/

/-- The receive side of a group before anything is seen. -/
def rxGroupNew : RxGroup :=
  { okRun := 0, badRun := 0, expect := 0, hunted := 0, testTable := 0, fromSync := false, slotCount := none, aisOn := 0, aisOff := 0, rdiOn := 0,
    rdiOff := 0, timOn := 0, timOff := 0, bmmOn := 0, bmmOff := 0, raw := 0, announced := none, frame := 0, stamp := 0xFFFFFFFF, shed := none, table := 0, settled := false,
    bskOk := 0, sdOn := 0, sdOff := 0, ratios := [], blocks := [], badTable := false, held := [], cycle := [], mark := none, pairedAt := 0,
    whole := none, faults := [] }

/-- The transmit side of a group at its first frame. -/
def txGroupNew : TxGroup :=
  { frameCount := 0, announce := none, rdi := false, rei := 0, table := 0, due := none, sending := none, queue := [], rest := [], seg := none, faults := [] }

def Device.rxg (d : Device) (c g : Nat) : RxGroup := tblGetD (d.frm.at c).rx g rxGroupNew
def Device.txg (d : Device) (c g : Nat) : TxGroup := tblGetD (d.frm.at c).tx g txGroupNew
def Device.putRxg (d : Device) (c g : Nat) (x : RxGroup) : Device :=
  { d with frm := d.frm.put c { d.frm.at c with rx := tblPut (d.frm.at c).rx g x } }
def Device.putTxg (d : Device) (c g : Nat) (x : TxGroup) : Device :=
  { d with frm := d.frm.put c { d.frm.at c with tx := tblPut (d.frm.at c).tx g x } }

/-- Every code of the group is 0 in the receive table in force: it carries no frames (Table 6.5). -/
def Device.rxEmpty (d : Device) (c g : Nat) : Bool := (d.groupScs c g).all (fun k => d.get (Reg.lineRxLoad c k) == 0)

/-! ### Defects (R140 to R143) -/

/-- The defects of a group as reported (R141): LOS masks every other, LOF masks AIS, RDI, SD, TIM, BSK and BMM, AIS masks TIM. -/
def maskDefects (raw : Nat) : Nat :=
  if bitAt raw 0 then 1
  else if bitAt raw 2 then raw &&& 0b110
  else if bitAt raw 3 then withBit raw 6 false
  else raw

/-- The flags a group's defects put on its received slices: [0] SF, [1] SD, [2] slice-group AIS, [3] fill, [4], [5] BSK on the
C0 or C1 member (Table 6.8). -/
def defectFlags (c traceCheck eff : Nat) : Nat :=
  (if bitAt eff 0 || bitAt eff 2 || bitAt eff 3 || bitAt eff 8 || (bitAt eff 6 && traceCheck == 2) then 5 else 0) |||
  (if bitAt eff 1 && !bitAt eff 2 then 8 else 0) |||
  (if bitAt eff 5 then 2 else 0) |||
  (if bitAt eff 7 then 16 * 2 ^ c else 0)

/-- The defects return RDI (Table 6.8). -/
def defectRdi (traceCheck eff : Nat) : Bool :=
  bitAt eff 0 || bitAt eff 2 || bitAt eff 3 || bitAt eff 7 || bitAt eff 8 || (bitAt eff 6 && traceCheck == 2)

/-- The slots of leaf L under a grant record: port, first slot, count (R157). A continuous leaf's upper slots lie above every window. -/
def leafSlots (c n rec : Nat) : List (Nat × Nat × Nat) :=
  let l := bits rec 63 56
  let p := 0x20 + 16 * c + l % 16
  if bitAt rec 23 then
    (p, l / 16 * 4016, min n 4016) :: (if 4016 < n then [(p, 32128, n - 4016)] else [])
  else [(p, l / 16 * 4016, 251 * (bits rec 51 48 + 1))]

/-- The fabric ports, first line slots and counts of a group: a bonded port is its C0 member's, C1's slots following; a hub carrier's
group is the continuous leaf that holds its subcarrier (R134, R157, R164, R176). -/
def Device.lineRanges (d : Device) (c g : Nat) : List (Nat × Nat × Nat) :=
  if d.on Reg.frmBondMode then [(0x20 + g, if c = 0 then 0 else d.rxSlots 0 g, max (d.rxSlots c g) 1)]
  else if d.on (Reg.hubEnable c) then
    match (d.grantsActive c).find? (fun r => bits r 55 52 == g && bitAt r 23) with
    | some r => leafSlots c (d.rxSlots c g) r
    | none => []
  else [(0x20 + 16 * c + g, 0, max (d.rxSlots c g) 1)]

/-- The fabric port and first line slot of a group. -/
def Device.linePort (d : Device) (c g : Nat) : Nat × Nat :=
  if d.on Reg.frmBondMode then (0x20 + g, if c = 0 then 0 else d.rxSlots 0 g) else (0x20 + 16 * c + g, 0)

/-- Puts the consequent actions of a carrier's defects on its input slots (R142). -/
def Device.actOnDefects (d : Device) (c : Nat) : Device :=
  let l := (d.groups c).flatMap (fun g =>
    let f := defectFlags c (d.get (Reg.frmTraceCheck c)) (d.get (Reg.frmDefects c g))
    if f = 0 then [] else (d.lineRanges c g).map (fun r => (r.1, r.2.1, r.2.2, f)))
  d.affect (causeLine c) l

/-- Every count of a group towards a defect starts again. -/
def RxGroup.countsRestart (x : RxGroup) : RxGroup :=
  { x with aisOn := 0, aisOff := 0, rdiOn := 0, rdiOff := 0, timOn := 0, timOff := 0, bmmOn := 0, bmmOff := 0, bskOk := 0, sdOn := 0, sdOff := 0 }

/-- A masked defect is reported absent and its counts restart (R141); OOF, which has none, stays. -/
def RxGroup.restartMasked (x : RxGroup) : RxGroup :=
  let eff := maskDefects x.raw
  let y := if bitAt x.raw 0 ∨ bitAt eff 2 then x.countsRestart else if bitAt eff 3 then { x with timOn := 0, timOff := 0 } else x
  { y with raw := eff ||| (x.raw &&& 2) }

/-- One group's defects become what its raw defects give: each declaration and each clearing is an event of its own, lowest
defect bit first (R140), with the RDI it returns (R143). -/
def Device.publishGroup (d : Device) (c g : Nat) : Device :=
  let old := d.get (Reg.frmDefects c g)
  let d := d.putRxg c g (d.rxg c g).restartMasked
  let new := maskDefects (d.rxg c g).raw
  let d := d.each ((List.range 9).filter (fun k => bitAt old k != bitAt new k)) (fun k x =>
    (x.takeSeq).notice (Reg.frmDefects c g) [k, b2n (bitAt new k), new])
  let d := d.set (Reg.frmDefects c g) new
  d.putTxg c g { d.txg c g with rdi := defectRdi (d.get (Reg.frmTraceCheck c)) new }

/-- Publishes the defects of a carrier, lowest group first, and their actions. -/
def Device.publish (d : Device) (c : Nat) : Device :=
  (d.each (d.groups c) (fun g x => x.publishGroup c g)).actOnDefects c

/-- Sets or clears a raw defect of a group; declarations of OOF and LOF are counted. -/
def Device.rawDefect (d : Device) (c g k : Nat) (b : Bool) : Device :=
  let x := d.rxg c g
  if bitAt x.raw k = b then d
  else
    let d := d.putRxg c g { x with raw := withBit x.raw k b }
    if b && k == 1 then d.bump (Reg.frmOofCount c) else if b && k == 2 then d.bump (Reg.frmLofCount c) else d

/-- Sets or clears a raw defect of every group of a carrier (LOS, SD). -/
def Device.rawAll (d : Device) (c k : Nat) (b : Bool) : Device := d.each (d.groups c) (fun g x => x.rawDefect c g k b)

/-! ### Alignment (Table 6.5) -/

/-- The group's bit stream stops: nothing of it waits any more. -/
def RxGroup.streamStops (x : RxGroup) : RxGroup :=
  { x with ratios := [], blocks := [], badTable := false, held := [], cycle := [], mark := none, whole := none, faults := [] }

/-- A group with every code 0 has none of the defects other than LOS (R138, R140). -/
def Device.emptyGroup (d : Device) (c g : Nat) : Device :=
  let x := d.rxg c g
  (d.putRxg c g { x.countsRestart.streamStops with raw := x.raw &&& 1, okRun := 0, badRun := 0, slotCount := none }).set (Reg.frmAlignState c g) 0

/-- A group out of Sync gives the fabric nothing: its port's re-timing buffer starts anew, a bonded port's once neither member is in Sync (R136, R146). -/
def Device.clearRetime (d : Device) (c g : Nat) : Device :=
  if d.on (Reg.hubEnable c) ∨ (d.on Reg.frmBondMode ∧ d.get (Reg.frmAlignState (1 - c) g) = 4) then d
  else { d with fab := { d.fab with retime := tblDel d.fab.retime (d.linePort c g).1 } }

/-- Alignment of a group changes. Leaving Sync declares OOF and ends AIS, RDI and BMM; entering it clears OOF (Table 6.7). -/
def Device.align (d : Device) (c g st : Nat) : Device :=
  let old := d.get (Reg.frmAlignState c g)
  let d := d.set (Reg.frmAlignState c g) st
  if old = 4 ∧ st ≠ 4 then
    let d := ((d.rawDefect c g 1 true).rawDefect c g 3 false).rawDefect c g 4 false
    let d := (d.rawDefect c g 8 false).clearRetime c g
    let x := d.rxg c g
    d.putRxg c g { x with badRun := 0, okRun := 0, hunted := 0, fromSync := true, slotCount := none, held := [], cycle := [], mark := none,
                          whole := none, faults := [], badTable := false, aisOn := 0, aisOff := 0, rdiOn := 0, rdiOff := 0, timOn := 0, timOff := 0, bmmOn := 0, bmmOff := 0 }
  else if st = 4 then
    let d := d.putRxg c g { d.rxg c g with settled := false, badTable := false, pairedAt := d.now }
    d.rawDefect c g 1 false
  else d

/-- Soft decisions of a carrier begin: every Idle group with a non-zero code goes to Delineate, under the table in force. -/
def Device.softStart (d : Device) (c : Nat) : Device :=
  d.each (d.groups c) (fun g x =>
    if x.rxEmpty c g then x.emptyGroup c g
    else if x.get (Reg.frmAlignState c g) = 0 then
      (x.align c g 1).putRxg c g { (x.rxg c g).streamStops with testTable := 0, hunted := 0 }
    else x)

/-- Every active subcarrier of a group is in Decision-directed or DFE: soft decisions of the group are there (R137). -/
def Device.groupDecides (d : Device) (c g : Nat) : Bool :=
  !d.rxEmpty c g && (d.groupScs c g).all (fun k =>
    d.get (Reg.lineRxLoad c k) == 0 || bitAt (d.get (Reg.frmScLost c)) k || [2, 3].contains (d.get (Reg.lineRxEqState c k)))

/-- The chain passes soft decisions: from the end of stage 5, and in Tracking; never while Lost (R79). -/
def Device.passesSoft (d : Device) (c : Nat) : Bool :=
  d.get (Reg.lineRxState c) == 3 || (d.get (Reg.lineRxState c) == 2 && (d.rx.at c).stage == 6)

/-- A group that a table gave codes while the chain runs goes to Delineate once its subcarriers decide (Table 6.5). -/
def Device.groupStart (d : Device) (c g : Nat) : Device :=
  if d.passesSoft c && d.get (Reg.frmAlignState c g) == 0 && d.groupDecides c g then
    let d := d.align c g 1
    d.putRxg c g { (d.rxg c g).streamStops with testTable := 0, hunted := 0 }
  else d

/-- Soft decisions of a carrier stop: every group goes to Idle. -/
def Device.softStop (d : Device) (c : Nat) : Device :=
  (d.each (d.groups c) (fun g x => let y := x.align c g 0; y.putRxg c g (y.rxg c g).streamStops)).publish c

/-- Slots shed by a receive table that lowers N (R148): the groups with slices there take the actions of the LOF row. A table
that raises N again brings its slots back as fill. -/
def Device.actOnShed (d : Device) (c : Nat) : Device :=
  d.affect (causeShed c) ((d.groups c).filterMap (fun g =>
    (d.rxg c g).shed.map (fun s => ((d.linePort c g).1, (d.linePort c g).2 + s.1, s.2 - s.1, 5))))

/-- What is shed after N goes from old to new, given what was shed before. -/
def shedAfter (old new : Nat) (before : Option (Nat × Nat)) : Option (Nat × Nat) :=
  let top := (before.map (·.2)).getD old
  let top := max top old
  if new < top ∧ (new < old ∨ before.isSome) then some (new, top) else none

/-! ### Hub mode: leaves, paths, grant records (R174, Table 7.1) -/

/-- A leaf before it is known. -/
def leafNew : HubLeaf := ⟨[], 0, 0, 0, 0, 0, 0, 0, 0, 0, none, 0, [], 0, 0, 0, 0, 0, 0, none, 0, none, none, 0⟩

/-- A path in Idle. -/
def pathNew : HubPath := ⟨128, false, 0, none, 128, 0, 0, none, [], 0⟩

def Device.leafOf (d : Device) (c l : Nat) : HubLeaf := tblGetD (d.hub.at c).leaves l leafNew
def Device.putLeaf (d : Device) (c l : Nat) (x : HubLeaf) : Device :=
  { d with hub := d.hub.put c { d.hub.at c with leaves := tblPut (d.hub.at c).leaves l x } }
def Device.pathOf (d : Device) (c sc : Nat) : HubPath := tblGetD (d.hub.at c).paths sc pathNew
def Device.putPath (d : Device) (c sc : Nat) (x : HubPath) : Device :=
  { d with hub := d.hub.put c { d.hub.at c with paths := tblPut (d.hub.at c).paths sc x } }

/-- The instance number of leaf l of carrier c (R174). -/
def leafIx (c l : Nat) : Nat := 128 * c + l

def grLeaf (w : Nat) : Nat := bits w 63 56
def grSc (w : Nat) : Nat := bits w 55 52
def grBlocks (w : Nat) : Nat := bits w 51 48 + 1
def grStart (w : Nat) : Nat := bits w 47 32
def grCode (w : Nat) : Nat := bits w 31 24
def grCont (w : Nat) : Bool := bitAt w 23

/-- The subcarrier clock of a carrier is recovered: Locked, and on a hub carrier, whose paths recover their own, while it tracks (R160). -/
def Device.clockRuns (d : Device) (c : Nat) : Bool :=
  d.get (Reg.lineRxClockState c) == 1 || (d.on (Reg.hubEnable c) && d.get (Reg.lineRxState c) == 3)

end Sys2Proof.Machine
end

