-- ==== Sys2Proof/Machine/RxOps.lean ====
section
/-! DEFINITION. Shared operations of the receive chain and of the loading negotiation (chapter 04): entries to Searching and
Lost, causes, the choice rule, proposals, table changes. -/

namespace Sys2Proof.Machine

/-! ### Laser ports (R504) -/

/-- The ITLA ports whose use includes transmit (bit 0) or local oscillator (bit 1) on a carrier. -/
def Device.itlaPorts (d : Device) (c useBit : Nat) : List Nat :=
  (List.range 4).filter (fun n => d.get (Reg.lineItlaCarrier n) == c && bitAt (d.get (Reg.lineItlaUse n)) useBit)

/-- Every local-oscillator laser of the carrier reports ready (cause [2] of Table 4.4). -/
def Device.loReady (d : Device) (c : Nat) : Bool := (d.itlaPorts c 1).all (fun n => d.get (Reg.lineItlaState n) == 2)

/-! ### Equalisers -/

/-- Sets the equaliser state of a subcarrier. Leaving Decision-directed and DFE ends the SNR run: LINE_RX_SNR reads 0xFFFF
(R90). -/
def Device.setEq (d : Device) (c k st : Nat) : Device :=
  let d' := d.set (Reg.lineRxEqState c k) st
  if st = 2 ∨ st = 3 then d' else (d'.putCal c { d'.calAt c with unsteady := true }).set (Reg.lineRxSnr c k) 0xFFFF

/-- Freezes an equaliser, remembering the state it leaves; a subcarrier with code 0 stays in Idle (Table 4.7). -/
def Device.freezeEq (d : Device) (c k : Nat) : Device :=
  let st := d.get (Reg.lineRxEqState c k)
  if st = 4 ∨ d.get (Reg.lineRxLoad c k) = 0 then d
  else
    let r := d.rx.at c
    ({ d with rx := d.rx.put c { r with frozenFrom := tblPut r.frozenFrom k st } }).setEq c k 4

/-- Active subcarriers: non-zero code, not lost (R79). -/
def Device.activeScs (d : Device) (c : Nat) : List Nat :=
  (List.range 16).filter (fun k => d.get (Reg.lineRxLoad c k) != 0 && !bitAt (d.get (Reg.frmScLost c)) k)

/-- The equaliser of every active subcarrier is in Decision-directed or DFE. -/
def Device.allDecision (d : Device) (c : Nat) : Bool :=
  (d.activeScs c).all (fun k => [2, 3].contains (d.get (Reg.lineRxEqState c k)))

/-! ### Receive table (R98, R148) -/

/-- Puts receive codes into force on a carrier: LINE_RX_LOAD, N, shed slots, groups left without a code, SNR windows of the
subcarriers that change (R90, R98, R138, R148). On a hub carrier leaves shed slots, not subcarriers (R157). -/
def Device.setRxCodes (d : Device) (c : Nat) (codes : List Nat) : Device :=
  let old := d.rxCodes c
  let oldN := (d.groups c).map (fun g => (g, d.rxSlots c g))
  let d := d.each (List.range 16) (fun k x =>
    let n := codes.getD k 0
    if n = old.getD k 0 then x
    else
      let x := x.set (Reg.lineRxLoad c k) n
      if n = 0 then x.setEq c k 0
      else if old.getD k 0 = 0 ∧ x.clockRuns c = true then
        (if x.on (Reg.lineEqFreeze c) then (x.setEq c k 1).freezeEq c k else x.setEq c k 1)
      else x)
  let d := d.each oldN (fun e x =>
    let n := x.rxSlots c e.1
    let g := x.rxg c e.1
    let shed := shedAfter e.2 n g.shed
    if x.on (Reg.hubEnable c) then x else
    let x := x.putRxg c e.1 { g with shed := shed }
    if n < e.2 then (x.bump (Reg.frmShedCount c)).notice (Reg.frmShedCount c) [c, e.1, n] else x)
  let d := d.each (d.groups c) (fun g x => if x.rxEmpty c g then x.emptyGroup c g else x)
  ((d.reportCapacity c).publish c).actOnShed c

/-- Shed marks of a carrier are dropped: an acquisition from Off starts with the start table's own slots (R100). -/
def Device.clearShed (d : Device) (c : Nat) : Device :=
  (d.each (d.groups c) (fun g x => x.putRxg c g { x.rxg c g with shed := none })).actOnShed c

/-- LINE_LOAD_STATE with nothing outstanding: 0 under the start table, 1 under another (Table 4.11). -/
def Device.loadIdle (d : Device) (c : Nat) : Device :=
  d.set (Reg.lineLoadState c) (if d.get (Reg.lineLoadTableId c) = 0 then 0 else 1)

/-- Subcarriers that a table with their bit in FRM_SC_LOST takes to code 0 are excluded, and no longer lost (R147). -/
def Device.exclude (d : Device) (lc : Nat) (t : LoadTable) : Device :=
  let cOf (k : Nat) : Nat := if d.on Reg.frmBondMode then k / 16 else lc
  let gone := (List.range t.codes.length).filter (fun k => t.codes.getD k 0 == 0 && bitAt (d.get (Reg.frmScLost (cOf k))) (k % 16))
  let r := d.rx.at lc
  let keep := r.excluded.filter (fun k => t.codes.getD k 0 == 0)
  let d := { d with rx := d.rx.put lc { r with excluded := keep ++ gone.filter (fun k => !keep.contains k) } }
  d.each gone (fun k x => x.setBit (Reg.frmScLost (cOf k)) (k % 16) false)

/-- A table is in force at the receiver: its number, the switch count, its candidacy and the proposal that asked for it are over
(R98, R99). -/
def Device.tableSettled (d : Device) (lc : Nat) (t : LoadTable) : Device :=
  let d := ((d.set (Reg.lineLoadTableId lc) t.table).bump (Reg.lineLoadSwitches lc)).exclude lc t
  let r := d.rx.at lc
  let mine := match r.outstanding with
    | some o => o.table == t.table
    | none => false
  let r := { r with
    inForce := t, candidates := r.candidates.filter (fun x => x.table != t.table),
    outstanding := if mine then none else r.outstanding,
    acked := if mine then none else r.acked }
  let d := { d with rx := d.rx.put lc r }
  let d := if mine then d.endLoad lc 1 else d
  if r.outstanding.isNone then d.loadIdle lc else d

/-- The table of a number, where the receiver knows it: the start table, the one in force, or a candidate (R99). -/
def Device.tableOf (d : Device) (lc n : Nat) : Option LoadTable :=
  let r := d.rx.at lc
  if n = 0 then some ⟨0, if d.on Reg.frmBondMode then d.startCodes 0 ++ d.startCodes 1 else d.startCodes lc⟩
  else if r.inForce.table = n then some r.inForce
  else r.candidates.find? (fun t => t.table == n)

/-! ### Entries to states (R76, R77) -/

/-- The acquisition starts at stage 1 (Table 4.5); with `fromOff` under the start table (R100). -/
def Device.enterSearching (d : Device) (c : Nat) (fromOff : Bool) : Device :=
  let d := (((d.set (Reg.lineRxState c) 1).set (Reg.lineRxAdcState c) 1).set (Reg.lineRxCdState c) 0).set (Reg.lineRxClockState c) 0
  let d := d.set (Reg.calTempLast c) (d.get Reg.calDieTemp)
  let r := d.rx.at c
  let d := { d with rx := d.rx.put c { r with stage := 1, acqAt := d.now, resolved := [], suspect := [], frozenFrom := [] } }
  let d := d.each (List.range 16) (fun k x =>
    if x.get (Reg.lineRxEqState c k) = 4 ∧ !x.on (Reg.lineEqFreeze c) then x.setEq c k (if x.get (Reg.lineRxLoad c k) = 0 then 0 else 1)
    else x)
  if fromOff then
    let d := d.each (List.range 16) (fun k x => if x.on (Reg.lineEqFreeze c) then (x.setEq c k 0).freezeEq c k else x.setEq c k 0)
    let d := (d.set (Reg.lineLoadTableId c) 0)
    let d := d.each (d.groups c) (fun g x => x.putRxg c g { x.rxg c g with table := 0, announced := none })
    let r := d.rx.at c
    let d := { d with rx := d.rx.put c { r with outstanding := none, acked := none, candidates := [], startHunt := false, restarting := false, excluded := [], probes := [], inForce := ⟨0, d.rxStart c⟩, dueDown := [], dueUp := [] } }
    ((((d.endLoad c 1).endLoad c 4).setRxCodes c (d.rxStart c)).clearShed c).loadIdle c
  else d

/-- The chain enters Lost: counted, an event, every estimator frozen, no soft decisions (R77 to R79). -/
def Device.enterLost (d : Device) (c : Nat) : Device :=
  let d := (d.set (Reg.lineRxState c) 4).bump (Reg.lineRxLossCount c)
  let d := d.each (List.range 16) (fun k x => x.freezeEq c k)
  let d := d.notice (Reg.lineRxState c) [4, d.get (Reg.lineRxCauses c)]
  d.softStop c

/-- The causes whose effect is Lost: [0], [2] and [4] (Table 4.4). -/
def lostCauses (w : Nat) : Nat := w &&& 0b10101

/-- A cause of Table 4.4 is set. In Off the chain is powered down and shows none. The search restarts each time [3], [5] or [6] occurs, shown already or not. -/
def Device.setRxCause (d : Device) (c k : Nat) : Device :=
  let st := d.get (Reg.lineRxState c)
  if st = 0 then d
  else if bitAt (d.get (Reg.lineRxCauses c)) k then
    (if (k = 3 ∨ k = 5 ∨ k = 6) ∧ st ≠ 4 then (d.softStop c).enterSearching c false else d)
  else
    let d := d.setBit (Reg.lineRxCauses c) k true
    let d := if k = 0 then (d.rawAll c 0 true).publish c else d
    let d := d.notice (Reg.lineRxCauses c) [k, 1]
    if k = 0 ∨ k = 2 ∨ k = 4 then (if st ≠ 4 then d.enterLost c else d)
    else if k = 1 then d
    else if st = 4 then d
    else (d.softStop c).enterSearching c false

/-- A cause of Table 4.4 clears; with the last Lost cause the chain enters Searching from the values it froze (R77). -/
def Device.clearRxCause (d : Device) (c k : Nat) : Device :=
  if bitAt (d.get (Reg.lineRxCauses c)) k then
    let d := d.setBit (Reg.lineRxCauses c) k false
    let d := if k = 0 then (d.rawAll c 0 false).publish c else d
    let d := d.notice (Reg.lineRxCauses c) [k, 0]
    if d.get (Reg.lineRxState c) = 4 ∧ lostCauses (d.get (Reg.lineRxCauses c)) = 0 then d.enterSearching c false else d
  else d

/-- Cause [2] follows the local-oscillator lasers of both carriers; an entry to Lost by it is an event of its own (R78). -/
def Device.followLo (d : Device) : Device :=
  d.each [0, 1] (fun c x =>
    if x.loReady c then x.clearRxCause c 2
    else if bitAt (x.get (Reg.lineRxCauses c)) 2 || x.get (Reg.lineRxState c) == 0 then x
    else x.takeSeq.setRxCause c 2)

/-! ### The choice rule (R93) -/

/-- 10^(a/10), 10^(b/100) and 10^(k/1000) for one digit, in units of 2^-64, rounded down. -/
def pow10Tenths : List Nat :=
  [18446744073709551616, 23223074879256410845, 29236119105494656992, 36806093284148180565, 46336126144280780433,
   58333726687135158848, 73437810891090031262, 92452726317327695260, 116391086550535208933, 146527696564803094700]
def pow10Hundredths : List Nat :=
  [18446744073709551616, 18876423941023515213, 19316112338170018424, 19766042393757192291, 20226452666656037476,
   20697587272487495365, 21179696013055781542, 21673034508796608905, 22177864334310526215, 22694453157053233656]
def pow10Thousandths : List Nat :=
  [18446744073709551616, 18489268210561536986, 18531890375673023370, 18574610795022487279, 18617429695109339415,
   18660347302955125543, 18703363846104730144, 18746479552627582827, 18789694651118867537, 18833009370700734542]

/-- 2^(k/16) in units of 2^-64, rounded down. -/
def pow2Sixteenths : List Nat :=
  [18446744073709551616, 19263451207323153961, 20116317054877281741, 21006942499405792876, 21936999301089678046,
   22908233235256451931, 23922467369310646740, 24981605484746413452, 26087635650665564424, 27242633955508776317,
   28448768404004648378, 29708302986651435463, 31023601929370129896, 32397134131305759266, 33831477799106933341,
   35329325286382475352]

/-- 10^(n/1000) in units of 2^-64, n in 0 to 999. -/
def pow10Frac (n : Nat) : Nat :=
  pow10Tenths.getD (n / 100) 0 * pow10Hundredths.getD (n / 10 % 10) 0 / 2 ^ 64 * pow10Thousandths.getD (n % 10) 0 / 2 ^ 64

/-- 10^(x/1000) in units of 2^-64, x any integer. -/
def pow10Milli (x : Int) : Nat :=
  let q := x / 1000
  let r := (x % 1000).toNat
  if 0 ≤ q then pow10Frac r * 10 ^ q.toNat else pow10Frac r / 10 ^ (-q).toNat

/-- 2^(c/16) in units of 2^-64. -/
def pow2Code (c : Nat) : Nat := pow2Sixteenths.getD (c % 16) 0 * 2 ^ (c / 16)

/-- floor(16 * log2(1 + 10^(x/10))) for x in units of 0.01 dB, at most 96 (R93). -/
def ruleRaw (x : Int) : Nat :=
  ((List.range 97).filter (fun c => decide (pow2Code c ≤ 2 ^ 64 + pow10Milli x))).foldl max 0

/-- The code the rule gives for an SNR and a margin, both in units of 0.01 dB (R93). -/
def ruleCode (snr margin gap : Int) (maxCode : Nat) (masked uniform : Bool) : Nat :=
  let c := ruleRaw (snr - margin - gap)
  let c := if maxCode < c then maxCode else c
  let c := if c < 24 ∨ masked then 0 else c
  if uniform then (if c = 96 then 3 else if 64 ≤ c then 2 else if 32 ≤ c then 1 else 0) else c

/-- The gap G of the overhead in force, in units of 0.01 dB. -/
def Device.gap (d : Device) (lc : Nat) : Int := d.getI (Reg.lineLoadGap lc (d.overhead lc)) * 10

/-- The code the rule gives for subcarrier k of carrier c from its SNR now, with margin M plus `extra` (units of 0.1 dB). -/
def Device.rule (d : Device) (c k extra : Nat) : Nat :=
  let lc := d.loadCarrier c
  ruleCode (d.get (Reg.lineRxSnr c k)) ((d.get (Reg.lineLoadMargin lc) + extra) * 10 : Nat) (d.gap lc) (d.get (Reg.lineLoadMaxcode lc))
    (!bitAt (d.get (Reg.lineLoadMask lc)) k) (d.on (Reg.lineLoadUniform lc))

/-- A subcarrier's last SNR window is Valid. -/
def Device.snrValid (d : Device) (c k : Nat) : Bool := d.get (Reg.lineRxSnr c k) != 0xFFFF

/-- Due for a downgrade: S < T(c_cur) + G + M on the effective code (R94), that is 1 + 10^((S - G - M)/10) < 2^(c/16). -/
def Device.dueDown (d : Device) (c k : Nat) : Bool :=
  let lc := d.loadCarrier c
  let cur := effCode (d.get (Reg.lineRxLoad c k))
  let x : Int := (d.get (Reg.lineRxSnr c k) : Int) - d.gap lc - (d.get (Reg.lineLoadMargin lc) * 10 : Nat)
  d.snrValid c k && cur != 0 && decide (2 ^ 64 + pow10Milli x < pow2Code cur)

/-- Due for an upgrade: the rule with margin M + LINE_LOAD_HYST gives a code above the current one (R94). -/
def Device.dueUp (d : Device) (c k : Nat) : Bool :=
  let cur := effCode (d.get (Reg.lineRxLoad c k))
  d.snrValid c k && cur != 0 && decide (cur < effCode (d.rule c k (d.get (Reg.lineLoadHyst (d.loadCarrier c)))))

/-! ### Proposals (R96, R99) -/

/-- The subcarriers one negotiation covers, as 16 * carrier + subcarrier: both carriers' while bonded (R92). -/
def Device.loadScs (d : Device) (lc : Nat) : List Nat :=
  if d.on Reg.frmBondMode then List.range 32 else (List.range 16).map (· + 16 * lc)

/-- The next table number: 1 to 255 and back to 1 (R96). -/
def nextTableNo (n : Nat) : Nat := if n < 255 then n + 1 else 1

/-- Sends a REQ for given codes, in every control slot until an answer ends it: outstanding, a candidate of the hunt, LINE_LOAD_STATE Proposing (R96, R99). -/
def Device.sendReq (d : Device) (lc : Nat) (codes : List Nat) : Device :=
  let r := d.rx.at lc
  let n := nextTableNo r.nextTable
  let t : LoadTable := ⟨n, codes⟩
  let r := { r with nextTable := n, outstanding := some t, acked := none, candidates := r.candidates ++ [t], dueDown := [], dueUp := [], probes := [] }
  let w := loadWord 1 n 0 (d.on Reg.frmBondMode) (d.get (Reg.lineLoadLead lc)) 0 0 codes
  ((({ d with rx := d.rx.put lc r }).set (Reg.lineLoadState lc) 2).sendLoad lc true w).send (.loadReq lc n (d.get (Reg.lineLoadLead lc)) codes)

/-- Makes a proposal from the subcarriers due, if any and none is outstanding (R94, R96): downgrades with margin M, upgrades
with M + LINE_LOAD_HYST, a lost subcarrier to code 0 (R147), a probe to code 24. `extra` lists probes and lost ones as
(subcarrier, code). -/
def Device.propose (d : Device) (lc : Nat) (extra : List (Nat × Nat)) : Device :=
  let r := d.rx.at lc
  if r.outstanding.isSome ∨ d.get (Reg.lineLoadMode lc) ≠ 1 ∨ (r.dueDown.isEmpty ∧ r.dueUp.isEmpty ∧ extra.isEmpty) then d
  else
    let hyst := d.get (Reg.lineLoadHyst lc)
    let codes := (d.loadScs lc).map (fun i =>
      match tblGet extra i with
      | some x => x
      | none =>
        if r.dueDown.contains i then d.rule (i / 16) (i % 16) 0
        else if r.dueUp.contains i then d.rule (i / 16) (i % 16) hyst
        else d.get (Reg.lineRxLoad (i / 16) (i % 16)))
    d.sendReq lc codes

/-- Lost subcarriers whose code is non-zero are due for code 0 in automatic mode (R147). -/
def Device.lostDue (d : Device) (lc : Nat) : List (Nat × Nat) :=
  ((d.loadScs lc).filter (fun i => bitAt (d.get (Reg.frmScLost (i / 16))) (i % 16) && d.get (Reg.lineRxLoad (i / 16) (i % 16)) != 0)).map (·, 0)

/-- What is due beside the codes the rule gives: lost subcarriers for code 0, probes for code 24 (R147). -/
def Device.extraDue (d : Device) (lc : Nat) : List (Nat × Nat) := d.lostDue lc ++ (d.rx.at lc).probes.map (·, 24)

/-- As soon as a proposal ends, every subcarrier is evaluated again, and those that became due for an upgrade meanwhile (R96). -/
def Device.reevaluate (d : Device) (lc : Nat) : Device :=
  let down := (d.loadScs lc).filter (fun i => d.dueDown (i / 16) (i % 16))
  let r := d.rx.at lc
  let up := r.dueUp.filter (fun i => d.dueUp (i / 16) (i % 16) && !down.contains i)
  ({ d with rx := d.rx.put lc { r with dueDown := down, dueUp := up } }).propose lc (d.extraDue lc)

/-- A proposal ends without its table: counted, its candidacy over, LINE_LOAD_STATE back, the rest evaluated again (R99). -/
def Device.proposalFailed (d : Device) (lc : Nat) : Device :=
  let r := d.rx.at lc
  match r.outstanding with
  | none => d
  | some t =>
    let d := d.bump (Reg.lineLoadRejects lc)
    let d := { d with rx := d.rx.put lc { r with outstanding := none, acked := none, candidates := r.candidates.filter (fun x => x.table != t.table) } }
    ((d.endLoad lc 1).loadIdle lc).reevaluate lc

/-- A group takes a table's codes and its number. -/
def Device.groupTakes (d : Device) (c g : Nat) (t : LoadTable) : Device :=
  let base := if d.on Reg.frmBondMode then 16 * c else 0
  let scs := d.groupScs c g
  let codes := (List.range 16).map (fun k => if scs.contains k then t.codes.getD (base + k) 0 else d.get (Reg.lineRxLoad c k))
  (d.putRxg c g { d.rxg c g with table := t.table, announced := none }).setRxCodes c codes

/-- The carriers that one negotiation covers (R92). -/
def Device.loadCarriers (d : Device) (lc : Nat) : List Nat := if d.on Reg.frmBondMode then [0, 1] else [lc]

/-- Group g of carrier c is demapped under a table from now on (R98, R131). With the first group under it the table is in force, and groups
that carry no frames, which announce nothing, take it too. With the last the proposal's switch is complete, and what became due
meanwhile is evaluated again (R96). -/
def Device.applyGroupTable (d : Device) (c g : Nat) (t : LoadTable) : Device :=
  let lc := d.loadCarrier c
  let silent := (d.loadCarriers lc).flatMap (fun m => ((d.groups m).filter (d.rxEmpty m ·)).map (m, ·))
  let d := d.groupTakes c g t
  let d := if d.get (Reg.lineLoadTableId lc) = t.table then d
    else (d.tableSettled lc t).each silent (fun e x => x.groupTakes e.1 e.2 t)
  let ended := (d.rx.at lc).outstanding.isNone && (d.loadCarriers lc).all (fun m =>
    (d.groups m).all (fun h => d.rxEmpty m h || (d.rxg m h).table == t.table))
  if ended then d.reevaluate lc else d

/-! ### Transmit table (R44, R100, R148) -/

/-- Puts transmit codes into force: LINE_TX_LOAD, N; a switch that lowers N sheds slots, counted and noticed (R148). -/
def Device.setTxCodes (d : Device) (c : Nat) (codes : List Nat) : Device :=
  let oldN := (d.groups c).map (fun g => (g, d.txSlots c g))
  let d := d.each (List.range 16) (fun k x => x.set (Reg.lineTxLoad c k) (codes.getD k 0))
  let d := d.each oldN (fun e x =>
    if x.txSlots c e.1 < e.2 then (x.bump (Reg.frmShedCount c)).notice (Reg.frmShedCount c) [c, e.1, x.txSlots c e.1] else x)
  d.reportCapacity c

/-- Frames of a group are mapped under a table's codes from now on (R44, R131): its subcarriers take them, and the announcement is over. A group left without
a code sends no frames. -/
def Device.txGroupTakes (d : Device) (c g table : Nat) (codes : List Nat) : Device :=
  let scs := d.groupScs c g
  let d := d.setTxCodes c ((List.range 16).map (fun k => if scs.contains k then codes.getD k 0 else d.get (Reg.lineTxLoad c k)))
  let x : TxGroup := { d.txg c g with table := table, due := none, announce := none }
  d.putTxg c g (if scs.all (fun k => d.get (Reg.lineTxLoad c k) == 0) then { x with sending := none, queue := [], rest := [], seg := none } else x)

/-- The transmit reference group of a carrier: it holds the lowest-numbered subcarrier with a non-zero code (R130). -/
def Device.txReference (d : Device) (c : Nat) : Option Nat :=
  ((List.range 16).find? (fun k => d.get (Reg.lineTxLoad c k) != 0)).map (d.groupOfSc c ·)

/-- A group takes a table's codes at a tick of the frame clock: the reference group, and a group that sends no frames, at once; any other with its first frame
that begins at or after the tick (R131). While bonded the reference group is C0's. -/
def Device.txSwitch (d : Device) (c g table : Nat) (codes : List Nat) (ref : Option Nat) : Device :=
  if (c = d.loadCarrier c ∧ ref = some g) ∨ d.tickIsCalendar c = true ∨ (d.groupScs c g).all (fun k => d.get (Reg.lineTxLoad c k) == 0) = true then
    d.txGroupTakes c g table codes
  else d.putTxg c g { d.txg c g with due := some (table, codes) }

/-- A pending or armed loading switch of a carrier (class 0x0002): negotiated (origin line) or a reversion (origin device). -/
def Device.switchActions (d : Device) (c : Nat) : List Action :=
  d.sched.actions.filter (fun a => a.cls == 0x0002 && a.args.head? == some c && a.target == 0)

/-- The transmitter reverts to the start table (R100): nothing if it is in force with no switch pending, or if a reversion
already is; else it cancels a negotiated switch not yet armed, creates the reversion and counts it. -/
def Device.revertToStart (d : Device) (c : Nat) : Device :=
  let sw := d.switchActions c
  if sw.any (fun a => a.origin == .device) then d
  else if (d.frm.at c).txTable = 0 ∧ sw.isEmpty then d
  else
    let d := d.each (sw.filter (fun a => a.origin == .line && a.armed.isNone)) (fun a x => (x.dropAction a.handle).outcome a 3 none)
    let d := d.scheduleOwn { newAction (d.lineKind c) .device 0x0002 0 0 0 with args := [c, 0] ++ d.startCodes c }
    d.bump (Reg.lineLoadRestarts c)

end Sys2Proof.Machine
end

