-- ==== Sys2Proof/Machine/TxOps.lean ====
section
/-! DEFINITION. Shared operations of the transmit path and its optics: ITLA transactions, the ASPI master, squelch entry and
end, and ownership of monitor channels (chapter 03, R390). -/

namespace Sys2Proof.Machine

/-! ### Monitor channel owners (R390) -/

/-- MON_CH_OWNER of an owner: [15:8] 1 sequence, 2 bias loop, 3 starter; [7:0] its number. -/
def ownerSeq (k : Nat) : Nat := 0x100 + k
def ownerLoop (n : Nat) : Nat := 0x200 + n
def ownerStarter : Nat := 0x300

/-- The object whose value makes an owner the owner (R426). -/
def ownerRef (w : Nat) : Nat :=
  if w / 256 = 1 then (Reg.monSeqSteps (w % 256)).ref
  else if w / 256 = 2 then (Reg.lineBiasMode (w % 256)).ref
  else Reg.timeHoThermChan.ref

/-- A channel is free for an owner, or the error naming who holds it. -/
def Device.claimCheck (d : Device) (ch owner : Nat) : Option Err :=
  let w := d.get (Reg.monChOwner ch)
  if w = 0 ∨ w = owner then none else some (errObj stInUse (ownerRef w))

/-- Every channel that an owner holds is released. -/
def Device.releaseOwner (d : Device) (owner : Nat) : Device :=
  d.each (List.range 32) (fun ch x => if x.get (Reg.monChOwner ch) = owner then x.set (Reg.monChOwner ch) 0 else x)

/-! ### ITLA ports (R49 to R52) -/

/-- A port at reset. -/
def itlaNew : ItlaPort := ⟨[], none, 0, false, 9600, false, false, false⟩

def Device.port (d : Device) (n : Nat) : ItlaPort := tblGetD d.itla n itlaNew
def Device.putPort (d : Device) (n : Nat) (p : ItlaPort) : Device := { d with itla := tblPut d.itla n p }

/-- A command that changes frequency, power or the enable of a laser. -/
def itlaChanges : ItlaCmd → Bool
  | .setFreq _ => true
  | .setPower _ => true
  | .setFtf _ => true
  | .enable => true
  | _ => false

/-- Sends the next queued transaction of a port when none is outstanding (R50). An enabled laser told to change is tuning until it
reports ready; a local oscillator then has cause [2] (Table 4.4). -/
def Device.itlaNext (d : Device) (n : Nat) : Device :=
  let p := d.port n
  match p.out, p.queue with
  | none, c :: r =>
    let d := (d.putPort n { p with out := some c, queue := r, retries := 0 }).send (.itla n c)
    if itlaChanges c ∧ p.disHigh ∧ d.get (Reg.lineItlaState n) ≠ 3 then (d.set (Reg.lineItlaState n) 1).followLo else d
  | _, _ => d

/-- Queues a transaction, in event order (R50). -/
def Device.itlaPush (d : Device) (n : Nat) (c : ItlaCmd) : Device :=
  let p := d.port n
  (d.putPort n { p with queue := p.queue ++ [c] }).itlaNext n

/-- Enables a laser: ITLAn_DIS_N high, the configured rate, frequency and power, then the enable (R62 worked example). A Faulted port
leaves Faulted only by a write of LINE_ITLA_USE (R50). -/
def Device.enableLaser (d : Device) (n : Nat) : Device :=
  if d.get (Reg.lineItlaState n) = 3 then d
  else
    let d := d.putPort n { d.port n with disHigh := true }
    let d := if (d.port n).baud = d.get (Reg.lineItlaBaud n) then d else d.itlaPush n .readBaud
    let d := d.itlaPush n (.setFreq (d.get (Reg.lineItlaFreq n)))
    let d := if d.get (Reg.lineItlaFtf n) = 0 then d else d.itlaPush n (.setFtf (d.get (Reg.lineItlaFtf n)))
    ((d.itlaPush n (.setPower (d.get (Reg.lineItlaPower n)))).itlaPush n .enable).set (Reg.lineItlaState n) 1

/-- Disables a laser: ITLAn_DIS_N low at once, the serial disable as soon as the port is free (R62). A Faulted port stays Faulted (R50). -/
def Device.disableLaser (d : Device) (n : Nat) : Device :=
  let d := d.putPort n { d.port n with disHigh := false, settled := false, pendingOp := false }
  let d := d.itlaPush n .disable
  if d.get (Reg.lineItlaState n) = 3 then d else d.set (Reg.lineItlaState n) 4

/-- A port becomes Faulted: an event; its queue is dropped (R50, R51). -/
def Device.faultPort (d : Device) (n : Nat) : Device :=
  let d := d.putPort n { d.port n with queue := [], out := none, pendingOp := false, settled := false }
  (d.set (Reg.lineItlaState n) 3).notice (Reg.lineItlaState n) [3]

/-- The local-oscillator lasers of a carrier are enabled while the host has enabled the carrier, to send or to receive (R66). -/
def Device.followLoLasers (d : Device) (c : Nat) : Device :=
  let wanted := d.get (Reg.lineTxState c) != 0 || d.get (Reg.lineRxEnable c) == 1
  d.each (d.itlaPorts c 1) (fun n x =>
    if bitAt (x.get (Reg.lineItlaUse n)) 0 ∨ (x.port n).disHigh = wanted then x
    else if wanted then x.enableLaser n
    else x.disableLaser n)

/-! ### ASPI master (R54 to R56) -/

/-- A transfer as the chip select's mode and word length make it (R54): mode [1:0], word length less 1 [6:2]. -/
def Device.aspiOut (d : Device) (x : Nat) : Out :=
  let cs := d.get (Reg.lineAspiCs (bits x 58 56))
  let len := bits cs 6 2 + 1
  .aspi (bits x 58 56) (bits cs 1 0) len (bits x 31 0 % 2 ^ len) (bitAt x 48) (bits x 47 32)

/-- Starts a list on the idle master. An empty list is done at once. -/
def Device.aspiStart (d : Device) (r : AspiRun) : Device :=
  match r.todo with
  | [] => d
  | x :: _ => ({ d with aspi := { d.aspi with running := some r, len := bits (d.get (Reg.lineAspiCs (bits x 58 56))) 6 2 + 1 } }).send (d.aspiOut x)

/-- Runs a list: at once on an idle master, else behind the lists that wait; a host list is the last of them (R56). An empty list is done
at once. -/
def Device.aspiRun (d : Device) (r : AspiRun) : Device :=
  match d.aspi.running, r.todo with
  | none, _ => d.aspiStart r
  | some _, [] => d
  | some _, _ :: _ =>
    { d with aspi := { d.aspi with
        waiting := d.aspi.waiting.filter (fun x => x.kind != 0) ++ [r] ++ d.aspi.waiting.filter (fun x => x.kind == 0) } }

/-- The records of a stored list (R55, R56): 8 bytes each, at most 64. -/
def Device.aspiList (d : Device) (o : Obj) : List Nat := (recordsOf 8 (d.dom o.ref)).take 64

/-! ### Transmit conditions (R62) -/

/-- Every transmit laser of the carrier is Ready with its power settled. -/
def Device.txLasersReady (d : Device) (c : Nat) : Bool :=
  (d.itlaPorts c 0).all (fun n => d.get (Reg.lineItlaState n) == 2 && (d.port n).settled)

/-- Bias loops of a carrier: 0 to 5 for C0, 6 to 11 for C1. -/
def biasLoops (c : Nat) : List Nat := (List.range 6).map (· + 6 * c)

/-- Every closed loop of the carrier is Locked. -/
def Device.biasLocked (d : Device) (c : Nat) : Bool :=
  (biasLoops c).all (fun n => d.get (Reg.lineBiasMode n) != 1 || d.get (Reg.lineBiasStatus n) == 2)

/-- The conditions of R62 for Active, squelch causes apart. -/
def Device.txConditions (d : Device) (c : Nat) : Bool := d.txLasersReady c && d.biasLocked c

/-! ### Squelch (R63, R64) -/

/-- Laser off: every transmit laser of the carrier disabled, the safe-state list run; a laser that is also local oscillator
gives cause [2] (R56, R63). -/
def Device.laserOff (d : Device) (c : Nat) : Device :=
  let d := { d with tx := d.tx.put c { d.tx.at c with laserOff := true } }
  let d := d.each (d.itlaPorts c 0) (fun n x => x.disableLaser n)
  (d.aspiRun ⟨1, 2, d.aspiList Reg.lineAspiSafe, []⟩).followLo

/-- Entry to Squelched from Starting or Active. A security alarm forces laser off whatever the mode. -/
def Device.enterSquelch (d : Device) (c : Nat) : Device :=
  let was := d.get (Reg.lineTxState c) == 3
  let d := { d with tx := d.tx.put c ⟨was, false⟩ }
  let d := (d.set (Reg.lineTxState c) 2).notice (Reg.lineTxState c) [2, d.get (Reg.lineTxCauses c)]
  if d.get (Reg.lineTxSquelchMode c) = 1 ∨ bitAt (d.get (Reg.lineTxCauses c)) 2 then d.laserOff c else d

/-- A squelch cause is set. In Off it is only shown (R63). -/
def Device.setTxCause (d : Device) (c k : Nat) : Device :=
  let d := d.setBit (Reg.lineTxCauses c) k true
  let st := d.get (Reg.lineTxState c)
  if st = 1 ∨ st = 3 then d.enterSquelch c
  else if st = 2 ∧ k = 2 ∧ !(d.tx.at c).laserOff then d.laserOff c
  else d

/-- The carrier enters Starting from Squelched: after laser off, the resume list runs before the lasers are enabled (R56); the
table in force, key state and FRAME_COUNT stay (R64). -/
def Device.restartTx (d : Device) (c : Nat) : Device :=
  let off := (d.tx.at c).laserOff
  let d := { d with tx := d.tx.put c ⟨false, false⟩ }
  let d := (d.set (Reg.lineTxState c) 1).notice (Reg.lineTxState c) [1]
  if off then
    match d.aspiList Reg.lineAspiResume with
    | [] => d.each (d.itlaPorts c 0) (fun n x => x.enableLaser n)
    | l => d.aspiRun ⟨2, c, l, []⟩
  else d

/-- The last cause has cleared: Active when the mode was zero drive, the carrier was Active before, and every condition of R62
holds; else Starting (R64). -/
def Device.squelchEnd (d : Device) (c : Nat) : Device :=
  let t := d.tx.at c
  if t.wasActive && !t.laserOff && d.txConditions c then
    ({ d with tx := d.tx.put c ⟨false, false⟩ }.set (Reg.lineTxState c) 3).notice (Reg.lineTxState c) [3]
  else d.restartTx c

/-- A squelch cause clears; with the last one the squelch ends. -/
def Device.clearTxCause (d : Device) (c k : Nat) : Device :=
  if bitAt (d.get (Reg.lineTxCauses c)) k then
    let d := d.setBit (Reg.lineTxCauses c) k false
    if d.get (Reg.lineTxState c) = 2 ∧ d.get (Reg.lineTxCauses c) = 0 then d.squelchEnd c else d
  else d

/-- Cause [4] follows the transmit lasers of a carrier: a Faulted port or an alarm (Table 3.5). -/
def Device.followLasers (d : Device) : Device :=
  d.each [0, 1] (fun c x =>
    let bad := (x.itlaPorts c 0).any (fun n => x.get (Reg.lineItlaState n) == 3 || (x.port n).alarm)
    if bad then (if bitAt (x.get (Reg.lineTxCauses c)) 4 then x else x.setTxCause c 4) else x.clearTxCause c 4)

/-- Cause [2] of Table 3.5 follows the security alarm on both carriers. -/
def Device.alarmSquelch (d : Device) (on : Bool) : Device :=
  d.each [0, 1] (fun c x => if on then x.setTxCause c 2 else x.clearTxCause c 2)

/-! ### Output views (Table 3.4, R66) -/

/-- The carrier's DAC outputs carry line frames: 0 safe state, 1 fill, 2 traffic (Table 3.4). -/
def Device.dacOut (d : Device) (c : Nat) : Nat :=
  if d.get (Reg.lineTxState c) = 3 then 2
  else if d.get (Reg.lineTxState c) = 1 ∧ (d.itlaPorts c 0).all (fun n => d.get (Reg.lineItlaState n) == 2) then 1
  else 0

/-- Enters Starting from Off: the start table, FRAME_COUNT 0, fill frames with the RDI that stands (R143), lasers enabled, the resume list run (R62, R64,
R100). A cause that is present squelches it at once. -/
def Device.startTx (d : Device) (c : Nat) : Device :=
  let before := d
  let f := d.frm.at c
  let d := { d with frm := d.frm.put c { f with tx := [], txTable := 0, tickAt := d.now }, tx := d.tx.put c ⟨false, false⟩ }
  let d := (d.set (Reg.lineTxState c) 1).notice (Reg.lineTxState c) [1]
  let d := d.setTxCodes c (d.txStart c)
  let d := d.each (d.groups c) (fun g x => x.publishGroup c g)
  let d := d.each (d.itlaPorts c 0) (fun n x => x.enableLaser n)
  let d := (d.aspiRun ⟨2, 2, d.aspiList Reg.lineAspiResume, []⟩).followLoLasers c
  let d := d.driveBias before (biasLoops c)
  if d.get (Reg.lineTxCauses c) = 0 then d else d.enterSquelch c

/-- Returns to Off from any state: lasers disabled at once, bias outputs at their safe codes (R62, Table 3.4). -/
def Device.stopTx (d : Device) (c : Nat) : Device :=
  if d.get (Reg.lineTxState c) = 0 then d
  else
    let before := d
    let d := { d with tx := d.tx.put c ⟨false, false⟩ }
    let d := (d.set (Reg.lineTxState c) 0).notice (Reg.lineTxState c) [0]
    let d := d.each (d.itlaPorts c 0) (fun n x => x.disableLaser n)
    (d.followLoLasers c).followLo.driveBias before (biasLoops c)

end Sys2Proof.Machine
end

