-- ==== Sys2Proof/Machine/SecOps.lean ====
section
/-! DEFINITION. Operations of line encryption (chapter 13): crypt-group records and their states, key pairs, segments, the alarm and the erase. -/

namespace Sys2Proof.Machine

def Device.onSec (d : Device) (f : Sec → Sec) : Device := { d with sec := f d.sec }

/-! ### Crypt-group records (Table 13.1) -/

def cgNum (w : Nat) : Nat := bits w 127 121
def cgEnable (w : Nat) : Bool := bitAt w 120
def cgScope (w : Nat) : Nat := bits w 119 118
def cgMode (w : Nat) : Nat := bits w 117 116
def cgCarrier (w : Nat) : Nat := bits w 115 115
def cgRx (w : Nat) : Bool := bitAt w 114
def cgTx (w : Nat) : Bool := bitAt w 113
def cgPort (w : Nat) : Nat := bits w 111 104
def cgId (w : Nat) : Nat := bits w 103 92
def cgTxGroup (w : Nat) : Nat := bits w 87 72
def cgRxGroup (w : Nat) : Nat := bits w 71 56
def cgPair (w : Nat) : Nat := bits w 55 48

/-- The enabled records of the table in force. -/
def Device.cgTable (d : Device) : List Nat := (recordsOf 16 (d.dom Reg.secCgActive.ref)).filter cgEnable

/-- The record covers a line port of a carrier; bonded, records of C0 cover both members (R319). -/
def Device.cgCovers (d : Device) (w c g : Nat) : Bool :=
  let k := d.loadCarrier c
  cgCarrier w == k && (cgScope w == 0 || cgPort w == 0x20 + 16 * k + g)

/-! ### Key pairs (R326) -/

/-- Changes a pair in the key store and its wrapped copy in MRAM. -/
def Device.putPair (d : Device) (p : Nat) (x : KeyPair) : Device :=
  d.onSec (fun s => { s with pairs := tblSet s.pairs p x pairNew, wrapped := tblSet s.wrapped p x pairNew })

/-- SEC_PAIR_STATUS (Table 13.4). -/
def pairStatus (x : KeyPair) : Nat :=
  x.cur.state * 2 ^ 126 + x.next.state * 2 ^ 124 + x.cur.epoch * 2 ^ 116 + x.next.epoch * 2 ^ 108 + b2n x.shared * 2 ^ 107 +
    (if x.cur.state = 0 then 0 else checkValue x.cur.key) * 2 ^ 80 + (if x.next.state = 0 then 0 else checkValue x.next.key) * 2 ^ 56 +
    x.uses % 2 ^ 56

/-- The carrier that uses a pair: a record of the table in force, or a hub leaf's key; none: C0 (R327). -/
def Device.pairCarrier (d : Device) (p : Nat) : Nat :=
  match d.cgTable.find? (fun w => cgPair w == p) with
  | some w => cgCarrier w
  | none => if (List.range 128).any (fun l => d.get (Reg.hubLeafKey (128 + l)) == p) then 1 else 0

/-! ### Capacity of the engines (R321) -/

/-- The slots of a port that lie on its member of carrier c: all of them, but for a bonded port (R134). -/
def Device.onMember (d : Device) (c : Nat) (tx : Bool) (port slot : Nat) : Bool :=
  if d.on Reg.frmBondMode then
    let n := if tx then d.txSlots 0 (port % 16) else d.rxSlots 0 (port % 16)
    if c = 0 then decide (slot < n) else decide (n ≤ slot)
  else true

/-- The protected slots of a carrier in a direction as (position, crypt group); counted only where slice groups are named. -/
def Device.protectedSlots (d : Device) (c : Nat) (tx : Bool) : List (Nat × Nat) :=
  let l := (d.cgTable.filter (fun w => cgCarrier w == d.loadCarrier c && cgScope w == 1 && (if tx then cgTx w else cgRx w))).flatMap (fun w =>
    if tx then
      ((d.fab.active.members (cgTxGroup w)).filter (fun e => e.1 / 2 ^ 24 == cgPort w)).map (fun e => (e.1, cgNum w))
    else
      (d.fab.active.members (cgRxGroup w)).flatMap (fun e =>
        (if e.2.aPort = cgPort w then [(slotKey e.2.aPort e.2.aSlice, cgNum w)] else []) ++
        (if e.2.kind = 2 ∧ e.2.bPort = cgPort w then [(slotKey e.2.bPort e.2.bSlice, cgNum w)] else [])))
  l.filter (fun e => d.onMember c tx (e.1 / 2 ^ 24) (e.1 % 2 ^ 24))

/-- The whole-carrier record of a carrier in a direction. -/
def Device.wholeCarrier (d : Device) (c : Nat) (tx : Bool) : Option Nat :=
  d.cgTable.find? (fun w => cgCarrier w == d.loadCarrier c && cgScope w == 0 && (if tx then cgTx w else cgRx w))

/-- N of a group in a direction. -/
def Device.slotsOf (d : Device) (c g : Nat) (tx : Bool) : Nat := if tx then d.txSlots c g else d.rxSlots c g

/-- Slots and crypt groups beyond the 240 000th of a carrier and direction. -/
def Device.overSlots (d : Device) (c : Nat) (tx : Bool) : Nat × List Nat :=
  match d.wholeCarrier c tx with
  | some w =>
    let n := sumOf ((d.groups c).map (fun g => d.slotsOf c g tx))
    if 240000 < n then (n - 240000, [cgNum w]) else (0, [])
  | none =>
    let l := d.protectedSlots c tx
    if l.length ≤ 240000 then (0, [])
    else
      let r := (sortBy (fun a b => decide (a.1 < b.1)) l).drop 240000
      (r.length, r.map (·.2))

/-- Line slot `slot` of group g's member on carrier c lies beyond the 240 000th protected slot, counted in port order and then line-slot order: it is sent
and delivered as fill (R321). -/
def Device.beyondEngines (d : Device) (c g slot : Nat) (tx : Bool) : Bool :=
  match d.wholeCarrier c tx with
  | some _ => decide (240000 ≤ sumOf (((d.groups c).filter (· < g)).map (fun h => d.slotsOf c h tx)) + slot)
  | none =>
    let p := d.linePort c g
    let key := slotKey p.1 ((if d.on Reg.frmBondMode ∧ c = 1 then d.slotsOf 0 g tx else 0) + slot)
    let l := d.protectedSlots c tx
    l.any (fun e => e.1 == key) && decide (240000 ≤ (l.filter (fun e => e.1 < key)).length)

/-- The crypt group that covers a line slot of group g's member on carrier c (R319); 128: none. A slot named by two belongs to the lower-numbered. -/
def Device.cgOfSlot (d : Device) (c g slot : Nat) (tx : Bool) : Nat :=
  match d.wholeCarrier c tx with
  | some w => cgNum w
  | none =>
    let port := (d.linePort c g).1
    let n := (if d.on Reg.frmBondMode ∧ c = 1 then d.slotsOf 0 g tx else 0) + slot
    let names (w : Nat) : Bool :=
      if tx then
        let e := d.fab.active.entry port n
        cgTx w && e.kind != 0 && e.group == cgTxGroup w
      else
        cgRx w && (d.fab.active.members (cgRxGroup w)).any (fun e =>
          (e.2.aPort == port && e.2.aSlice == n) || (e.2.kind == 2 && e.2.bPort == port && e.2.bSlice == n))
    ((d.cgTable.filter (fun w => cgCarrier w == d.loadCarrier c && cgScope w == 1 && cgPort w == port && names w)).map cgNum).foldl min 128

/-! ### States (Table 13.7) -/

/-- SEC_CG_STATE of a record: 2 under a latched alarm or without a current key, 3 guard stop, 4 over capacity, 5 a shared pair in the standby,
else 1 (R321, R328, R329, R332, Table 13.5). -/
def Device.cgState (d : Device) (beyond : List Nat) (w : Nat) : Nat :=
  let p := d.pair (cgPair w)
  if d.get Reg.secAlarm ≠ 0 ∨ p.cur.state = 0 then 2
  else if d.sec.guardStop.contains (cgNum w) then 3
  else if beyond.contains (cgNum w) then 4
  else if p.shared && d.standby then 5
  else 1

/-- States in which a crypt group sends ciphertext, at least within the engines' capacity (R321). -/
def sendsCipher (st : Nat) : Bool := st == 1 || st == 4

/-- SEC_CG_STATE of crypt group n becomes st; when a group ceases to send ciphertext is kept, for the segments then begun (R328, R329). -/
def Device.setCgState (d : Device) (n st : Nat) : Device :=
  let old := d.get (Reg.secCgState n)
  let d := d.set (Reg.secCgState n) st
  if sendsCipher st then d.onSec (fun s => { s with ended := tblDel s.ended n })
  else if sendsCipher old then d.onSec (fun s => { s with ended := tblPut s.ended n d.now })
  else d

/-- Publishes SEC_CG_STATE of every crypt group and SEC_OVER_SLOTS. -/
def Device.refreshCg (d : Device) : Device :=
  let o := [(0, true), (0, false), (1, true), (1, false)].map (fun e => d.overSlots e.1 e.2)
  let beyond := o.flatMap (·.2)
  let tab := d.cgTable
  let d := d.each (List.range 128) (fun n x =>
    x.setCgState n (match tab.find? (fun w => cgNum w == n) with
      | some w => d.cgState beyond w
      | none => 0))
  d.set Reg.secOverSlots (sumOf (o.map (·.1)))

/-! ### Segments (R322, R323, R329, R330) -/

/-- A carrier has an enabled crypt group or a hub leaf key: its ports send SEC_SEG (Table 13.3). -/
def Device.secActive (d : Device) (c : Nat) : Bool :=
  d.cgTable.any (fun w => cgCarrier w == d.loadCarrier c) ||
    (d.on (Reg.hubEnable c) && (List.range 128).any (fun l => d.get (Reg.hubLeafKey (c * 128 + l)) != 0xFFFF))

/-- Crypt groups enter guard stop: a crypt alarm for each, counted and noticed (R329). -/
def Device.stopGroups (d : Device) (groups : List Nat) : Device :=
  d.each (groups.filter (fun n => !d.sec.guardStop.contains n)) (fun n y =>
    ((y.onSec (fun s => { s with guardStop := s.guardStop ++ [n] })).bump Reg.secGuardStops).notice Reg.secGuardStops [n])

/-- A crypt group sends ciphertext. -/
def Device.protects (d : Device) (w : Nat) : Bool := sendsCipher (d.get (Reg.secCgState (cgNum w)))

/-- The transmitting records of a port in the order of their entries. -/
def Device.txGroups (d : Device) (c g : Nat) : List Nat :=
  sortBy (fun a b => decide (cgId a < cgId b)) (d.cgTable.filter (fun w => cgTx w && d.cgCovers w c g))

/-- The invocations that a port's segments begin with, as they stand at the start of a frame (R327): a group that sends ciphertext runs under its current
half. -/
def Device.frameKeys (d : Device) (c g : Nat) : List OpenCg :=
  (d.txGroups c g).map (fun w =>
    let h := (d.pair (cgPair w)).cur
    { cg := cgNum w, id := cgId w, pair := cgPair w, gmac := cgMode w == 1, live := d.protects w, key := h.key, epoch := h.epoch, units := [] })

/-- The IV of an invocation on a port. -/
def Device.segIv (d : Device) (c g seg : Nat) (o : OpenCg) : Nat := ivOf c g o.id (d.get (Reg.secEnd c)) d.unitBit o.epoch seg

/-- A payload unit of a segment on its way out: in the clear where no group covers it, as fill where its group sends no ciphertext, encrypted in GCM mode; the
invocation keeps what its tag covers (R322). -/
def Device.protectUnit (d : Device) (c g seg : Nat) (u cg : Nat) (l : List OpenCg) : Nat × List OpenCg :=
  match l.find? (fun o => o.cg == cg) with
  | none => (if cg = 128 then u else 0, l)
  | some o =>
    if !o.live then (0, l)
    else
      let x := if o.gmac then u else u ^^^ gcmStream o.key (d.segIv c g seg o) o.units.length
      (x, l.map (fun y => if y.cg = cg then { y with units := y.units ++ [x] } else y))

/-- The tag of an invocation (R322): the units are the ciphertext, or in GMAC-only mode the additional data. -/
def Device.segTag (d : Device) (c g seg : Nat) (o : OpenCg) : Nat :=
  let n := 128 * o.units.length
  let iv := d.segIv c g seg o
  (if o.gmac then gcmTag o.key iv o.units n [] 0 else gcmTag o.key iv [] 0 o.units n) / 2 ^ 64

/-- The SEC_SEG message of a segment (Table 13.3): epoch and tag of every entry, 0 where a group sent no ciphertext (R328). -/
def Device.segWord (d : Device) (c g seg : Nat) (l : List OpenCg) : Nat :=
  let l : List OpenCg := l.take 6
  let field (n : Nat) (f : OpenCg → Nat) : Nat := ((l.map (fun (o : OpenCg) => if o.live then f o else 0)) ++ List.replicate (6 - l.length) 0).foldl (fun a x => a * 2 ^ n + x) 0
  0x30 * 2 ^ 504 + seg * 2 ^ 440 + d.unitBit * 2 ^ 439 + d.get (Reg.secEnd c) * 2 ^ 438 + l.length * 2 ^ 435 +
    field 8 (fun (o : OpenCg) => o.epoch) * 2 ^ 384 + field 64 (d.segTag c g seg)

/-- RES of a port, RES + 2^28 where SEG would exceed RES − 2^27 (R330). -/
def nextRes (seg res : Nat) : Nat := if seg + 2 ^ 27 ≤ res then res else res + 2 ^ 28

/-- Begins a segment of a port at instant t: SEG rises by 1, its reservation first if that is due, every invocation under a current half counts in CUR_USES (R323, R326). A group that has ceased to
send ciphertext by then sends fill from this segment on (R328, R329). A port whose SEG would pass 2^64 − 2^28 stops its groups and its counter (R330). -/
def Device.openSegment (d : Device) (c g t : Nat) (keys : List OpenCg) (mismatched : List Nat) : Device × Nat × List OpenCg :=
  let k := 16 * c + g
  let seg := tblGetD d.sec.segs k 0
  let full := decide (2 ^ 64 - 2 ^ 28 < seg + 1)
  let stopped (n : Nat) : Bool := match tblGet d.sec.ended n with
    | some x => decide (x ≤ t)
    | none => false
  let l : List OpenCg := keys.map (fun o => { o with live := o.live && !full && !mismatched.contains o.cg && !stopped o.cg })
  let mine := keys.map (fun (o : OpenCg) => o.cg)
  let d := if full then (if mine.all (d.sec.guardStop.contains ·) then d else (d.takeSeq.stopGroups mine).refreshCg)
    else d.onSec (fun s => { s with segs := tblPut s.segs k (seg + 1), res := tblPut s.res k (nextRes (seg + 1) (tblGetD s.res k 0)) })
  let d := d.each (l.filter (fun (o : OpenCg) => o.live)) (fun o x =>
    let p := x.pair o.pair
    if p.cur.epoch = o.epoch then x.onSec (fun s => { s with pairs := tblSet s.pairs o.pair { p with uses := p.uses + 1 } pairNew }) else x)
  (d, seg, l)

/-! ### Alarm and erase (R334 to R336) -/

/-- Zeroises every key, with the erase-pending record written first; SEC_ERASES and SEC_LAST_ERASE tell of it (R335). -/
def Device.eraseAll (d : Device) : Device :=
  let d := d.onSec (fun s => { s with
    pairs := s.pairs.filterMap (fun e => if e.2.shared then some (e.1, { pairNew with shared := true }) else none)
    erasePending := true })
  ((d.bump Reg.secErases).set Reg.secLastErase (fuToTime96 d.now)).refreshCg

/-- The class of a sensor (Table 13.5). -/
def Device.sensorClass (d : Device) (k : Nat) : Nat := d.get Reg.secSensorClass / 4 ^ k % 4

/-- A sensor detects: its class's action (R334, R335). -/
def Device.tamper (d : Device) (k : Nat) : Device :=
  let d := d.setBit Reg.secSensors k true
  let d := d.onSec (fun s => { s with detections := tblPut s.detections k (tblGetD s.detections k 0 + 1) })
  let c := d.sensorClass k
  let d := d.notice Reg.secSensors [k, c]
  if c = 0 then d
  else
    let d := ((d.setBit Reg.secAlarm k true).set Reg.memDebugEnable 0).alarmSquelch true
    if c = 2 then d.eraseAll else d.refreshCg

end Sys2Proof.Machine
end

