-- ==== Sys2Proof/Machine/Shown.lean ====
section
/-! DEFINITION. Objects whose value follows from the rest of the state when they are read: the selected group, queue, port, flow and key pair, power
states, lists. -/

namespace Sys2Proof.Machine

/-- Seconds of wait-to-restore left; 0 once expired (R201, R208). -/
def Device.wtrLeft (d : Device) (s : GroupState) : Nat :=
  if s.wtr ∧ !s.wtrExpired then ceilDiv (s.wtrEnd - d.now) fuSec else 0

/-- FAB_HL_DD: the arrival on P less the arrival of the same SEQ on W of a group of n slots, in 0.1 µs (R206). -/
def hitlessDelay (n : Nat) (s : GroupState) : Int :=
  match s.w.norm, s.p.norm with
  | some a, some b => roundInt (seqDiff b a * 10) (fuUs * max n 1)
  | _, _ => 0

/-- The values of 0x3012 for a group. -/
def Device.groupShown (d : Device) (g k : Nat) : Nat :=
  let s := d.grp g
  let r := d.fab.active.group g
  let n := (d.fab.active.members g).length
  match k with
  | 1 => s.w.align | 2 => s.p.align
  | 3 => pointDefects s.w | 4 => pointDefects s.p
  | 5 => s.inForce | 6 => s.selected
  | 7 => d.wtrLeft s
  | 8 => if r.prot = 2 then legState r.allow n s s.w + 16 * legState r.allow n s s.p else 0
  | 9 => ofSigned 32 (hitlessDelay n s)
  | 10 => s.switches | 11 => s.realigns
  | 12 => s.w.trace
  | _ => s.hdrErrors

/-- A clearing write of a counter of the selected group. -/
def Device.groupClear (d : Device) (k : Nat) : Option Device :=
  let g := d.get Reg.fabGrpSelect
  let s := d.grp g
  match k with
  | 10 => some (d.putGrp g { s with switches := 0 })
  | 11 => some (d.putGrp g { s with realigns := 0 })
  | 13 => some (d.putGrp g { s with hdrErrors := 0 })
  | _ => none

/-! ### Every object whose value follows -/

/-- The device's EOP_MAC: the one written, or the factory's. -/
def macObj : Obj := ⟨Reg.eopMac.ref, 49, 2 ^ 48, false⟩

/-- The sleeping resources of a block (Table 20.4). -/
def blockResources (b : Nat) : List Nat :=
  if b = 0xFFF0 then [resHbm]
  else if b = 0x27F2 then (List.range 20).map resEngine
  else if b = 0x2FF0 then (List.range 64).map (· + 512)
  else if b = 0xAFF0 then (List.range 80).map (· + 768)
  else []

/-- _BLK_STATE: its Default Off before the image is proved (R3), Off with every sleeping resource in P3, Failed after
a power-up self-test that failed whole, Degraded under a fault of _BLK_FAULTS [0] or [3], else Running (Table 18.3). -/
def Device.blockStateOf (d : Device) (b : Nat) : Nat :=
  let l := blockResources b
  if d.dead ∨ l.isEmpty = false ∧ l.all (fun r => (d.resource r).state == 3) = true then 0
  else if d.pwr.failed.contains b then 3
  else if bitAt (d.get (blkFaults b)) 0 ∨ bitAt (d.get (blkFaults b)) 3 then 2 else 1

/-- _BLK_POWER: the deepest state of the block's resources; its Default 3 before the image is proved (R3). -/
def Device.blockPowerOf (d : Device) (b : Nat) : Nat :=
  if d.dead then 3 else ((blockResources b).map (fun r => (d.resource r).state)).foldl max 0

/-- _BLK_RANGE: first and last index of the block's range (Tables 18.1, 18.4); the four line blocks share theirs. -/
def blockRange (b : Nat) : Nat :=
  if b ≤ 0x27F3 then 0x20002700 + 0xFF
  else if b = 0x2FF0 then 0x28002FFF
  else if b = 0x57F0 then 0x500057FF
  else if b = 0x5FF0 then 0x58005FFF
  else b / 0x1000 * 0x10000000 + b / 0x1000 * 0x1000 + 0xFFF

/-- A common block object whose value follows from the state. -/
def Device.blockShown (d : Device) (ref : Nat) : Option Nat :=
  let b := ref / 256
  match ref % 256 with
  | 1 => some (Config.factory ref % 2 ^ 16)
  | 2 => some (d.blockStateOf b)
  | 6 => some (d.blockPowerOf b)
  | 8 => some (blockRange b)
  | _ => none

/-- A latency of the line path of a carrier in ps (R39, R71): fixed by mode, overhead and layout, at most 6 µs. -/
def Device.lineLatency (d : Device) (dir c : Nat) : Nat :=
  min (Config.lineLatency dir c (b2n (d.on Reg.frmBondMode) + 2 * b2n (d.on (Reg.hubEnable c))) (d.overhead c) (d.groupMask c)) 6000000

/-- LANE_POWER: receive in [3:0], transmit in [7:4]. -/
def Device.lanePowerOf (d : Device) (l : Nat) : Nat := (d.resource (resLane l 0)).state + 16 * (d.resource (resLane l 1)).state

/-- An object whose value follows from the state when it is read. -/
def Device.shown (d : Device) (ref : Nat) : Option Nat :=
  let i := ref / 256
  let k := ref % 256
  if blockIndices.contains i then d.blockShown ref
  else if ref = Reg.timeNow.ref then some (fuToTime96 d.now)
  else if ref = Reg.idUptime.ref then some (d.pwr.cycles / 78125)
  else if ref = Reg.idSerial.ref ∨ ref = Reg.idTestDate.ref then some (Config.factory ref)
  else if ref = Reg.eopMac.ref then some (if d.get macObj = 2 ^ 48 then Config.factory ref else d.get macObj)
  else if ref = Reg.fabLatencyFixed.ref then some (min (Config.factory ref) 1000)
  else if i = 0x2010 ∨ i = 0x2011 then (if k = 7 then some (d.lineLatency 0 (i - 0x2010)) else none)
  else if i = 0x2040 ∨ i = 0x2041 then (if k = 4 then some (d.lineLatency 1 (i - 0x2040)) else none)
  else if ref = (Reg.frmGroups 0).ref ∨ ref = (Reg.frmGroups 1).ref then (if d.on (Reg.hubEnable (i % 2)) then some 0xFFFF else none)
  else if i = 0xA012 then some (d.lanePowerOf (k - 1))
  else if i = 0x3012 then some (d.groupShown (d.get Reg.fabGrpSelect) k)
  else if ref = Reg.secPairStatus.ref then some (pairStatus (d.pair (d.get Reg.secKeySelect)))
  else if ref = Reg.secPairShared.ref then some (b2n (d.pair (d.get Reg.secKeySelect)).shared)
  else d.packetShown ref

end Sys2Proof.Machine
end

