-- ==== Sys2Proof/Machine/Settle.lean ====
section
/-! DEFINITION. What every command's end does: the objects that follow from the rest of the state are brought up to date, and the value changes the command
made are told to the subscriptions that cover them (R420). -/

namespace Sys2Proof.Machine

/-- SEC_CG_STATE and SEC_OVER_SLOTS follow the keys, the loading tables and the slice map while a crypt table is in force (R321, R328, R332). -/
def Device.followCg (d : Device) : Device := if d.cgTable.isEmpty then d else d.refreshCg

/-- Brings up to date what follows from the rest of the state. -/
def Device.settle (d : Device) : Device := d.follow.status.followCg

/-- The references whose value is computed when it is read and can change. -/
def shownRefs : List Nat :=
  [Reg.timeNow.ref, Reg.idUptime.ref, (Reg.lineTxLatency 0).ref, (Reg.lineTxLatency 1).ref, (Reg.lineRxLatency 0).ref, (Reg.lineRxLatency 1).ref,
   (Reg.frmGroups 0).ref, (Reg.frmGroups 1).ref, Reg.secPairStatus.ref, Reg.secPairShared.ref, Reg.pktFlowResult.ref, Reg.pktFlowCounters.ref] ++
  blockIndices.flatMap (fun b => [(blkState b).ref, (blkPower b).ref]) ++
  (List.range 40).map (0xA01201 + ·) ++ (List.range 13).map (0x301201 + ·) ++ (List.range 10).map (0x401601 + ·) ++ (List.range 16).map (0x402201 + ·)

/-- The value of an object by its reference. -/
def Device.latest (d : Device) (ref : Nat) : Nat :=
  match d.shown ref with
  | some v => v
  | none =>
    match rowIn objRows ref with
    | some r => d.get (rowObj r ref)
    | none => tblGetD d.dict ref 0

/-- The references whose value differs between two devices, with the latest value. -/
def Device.changed (a b : Device) : List (Nat × Nat) :=
  (changedRefs a.dict b.dict ++ changedRefs a.doms b.doms ++ shownRefs.filter (fun r => decide (a.shown r ≠ b.shown r))).map (fun r => (r, b.latest r))

/-- After a command: the value changes since `before` go to the subscriptions that cover them (R420). -/
def Device.changes (d before : Device) : Device := if d.eop.subs.isEmpty then d else d.tell (before.changed d)

/-- A command's meaning: its effect on the device, the derived objects after it, the value-change notices it makes. The queue
is untouched, and what the command sends out stands in `out`. -/
def onDev (s : State) (f : Device → Device) : Host.Outcome State Fault Refusal :=
  .next { s with dev := ((f { s.dev with out := [] }).settle).changes s.dev }

end Sys2Proof.Machine
end

