-- ==== Sys2Proof/Machine/Code.lean ====
section
/-! DEFINITION. The two layers of code (chapter 05): the parameters of Table 5.1, the outer BCH code, the inner quasi-cyclic LDPC code. Bit strings
are lists, first bit first; a polynomial over GF(2) is a number, its coefficient of x^k in bit k. -/

namespace Sys2Proof.Machine

/-! ### Parameters (Table 5.1), by FEC_OVERHEAD -/

/-- Outer correction t. -/
def outerT (ov : Nat) : Nat := [10, 9, 10].getD ov 9

/-- Outer parity per half block. -/
def outerParityBits (ov : Nat) : Nat := 15 * outerT ov

/-- Information bits of a half block (R106). -/
def halfBits : Nat := 16384

/-- Inner information bits: both halves with their parities. -/
def innerInfoBits (ov : Nat) : Nat := 2 * (halfBits + outerParityBits ov)

/-- Rows (layers) and columns of the base matrix, and shortened bits s. -/
def baseRows (ov : Nat) : Nat := [65, 90, 123].getD ov 90
def baseColumns (ov : Nat) : Nat := [582, 607, 640].getD ov 607
def shortenedBits (ov : Nat) : Nat := [20, 50, 20].getD ov 50

/-- Circulant size. -/
def liftSize : Nat := 64

/-- Inner parity bits: one for each row of the lifted matrix. -/
def innerParityBits (ov : Nat) : Nat := liftSize * baseRows ov

/-- Inner codeword length, the shortened bits left out. -/
def innerLength (ov : Nat) : Nat := innerInfoBits ov + innerParityBits ov

/-! ### GF(2^15) with x^15 + x + 1 (R106) -/

/-- Multiplication by x. -/
def gf15Double (a : Nat) : Nat := if bitAt a 14 then a * 2 % 2 ^ 15 ^^^ 3 else a * 2

/-- Multiplication. -/
def gf15Mul (a b : Nat) : Nat :=
  ((List.range 15).foldl (fun (s : Nat × Nat) k => (if bitAt b k then s.1 ^^^ s.2 else s.1, gf15Double s.2)) (0, a)).1

/-- The k-th power of the primitive element x. -/
def gf15Exp : Nat → Nat
  | 0 => 1
  | k + 1 => gf15Double (gf15Exp k)

/-- A polynomial over the field, lowest coefficient first, times (x + r). -/
def polyTimesRoot (p : List Nat) (r : Nat) : List Nat :=
  List.zipWith (· ^^^ ·) (0 :: p) (p.map (gf15Mul r) ++ [0])

/-- The exponents conjugate to i: i·2^j modulo 2^15 − 1, each once. -/
def conjugates (i : Nat) : List Nat := ((List.range 15).map (fun j => i * 2 ^ j % 32767)).eraseDups

/-- The minimal polynomial of x^i over GF(2). -/
def minimalPoly (i : Nat) : Nat :=
  let p := (conjugates i).foldl (fun p e => polyTimesRoot p (gf15Exp e)) [1]
  (p.zipIdx.map (fun e => e.1 % 2 * 2 ^ e.2)).foldl (· + ·) 0

/-- Product of two polynomials over GF(2), the second of degree at most n. -/
def gf2Mul (n a b : Nat) : Nat := (List.range (n + 1)).foldl (fun s k => if bitAt b k then s ^^^ a * 2 ^ k else s) 0

/-- The generator of the narrow-sense BCH code that corrects t errors: the product of the minimal polynomials of x, x^3, …, x^(2t−1). -/
def bchGenerator (t : Nat) : Nat := (List.range t).foldl (fun g k => gf2Mul 15 g (minimalPoly (2 * k + 1))) 1

/-- The remainder of a bit string, first bit highest, modulo a polynomial of degree n. -/
def gf2Rem (n g : Nat) (bs : List Bool) : Nat :=
  bs.foldl (fun r b => let s := r * 2 + b2n b; if bitAt s n then s ^^^ g else s) 0

/-! ### Bit strings -/

/-- Bytes of a unit or block as bits, in the order of R5. -/
def unitsBits (l : List Nat) : List Bool := l.flatMap (bitsDown 128 ·)

/-- The number that bits spell, first bit highest. -/
def ofBits (l : List Bool) : Nat := l.foldl (fun a b => 2 * a + b2n b) 0

/-- Bits cut into n-bit pieces, each as a number; a shorter rest is dropped. Fuel bounds the number of pieces. -/
def bitPieces (n : Nat) : Nat → List Bool → List Nat
  | 0, _ => []
  | f + 1, l => if l.length < n then [] else ofBits (l.take n) :: bitPieces n f (l.drop n)

/-- How many bits of two strings differ. -/
def differing (a b : List Bool) : Nat := ((a.zip b).filter (fun e => e.1 != e.2)).length

/-! ### Outer code (R106) -/

/-- The outer parity of a half: the remainder of its bits, shifted by 15·t, modulo the generator. -/
def outerParity (ov : Nat) (half : List Bool) : List Bool :=
  let n := outerParityBits ov
  bitsDown n (gf2Rem n (bchGenerator (outerT ov)) (half ++ List.replicate n false))

/-- The word with the bits at given positions inverted. -/
def flipAt (ps : List Nat) (w : List Bool) : List Bool := w.zipIdx.map (fun e => if ps.contains e.2 then !e.1 else e.1)

/-- The sets of at most t positions below n. -/
def errorSets : Nat → Nat → List (List Nat)
  | 0, _ => [[]]
  | _ + 1, 0 => [[]]
  | t + 1, n + 1 => errorSets (t + 1) n ++ (errorSets t n).map (n :: ·)

/-- Hard-decision decoding of a BCH code that corrects t errors with n parity bits: the codeword within t bits of the word, and how many bits that
corrects; none where the word is uncorrectable. -/
def bchDecode (t n : Nat) (w : List Bool) : Option (List Bool × Nat) :=
  ((errorSets t w.length).find? (fun e => gf2Rem n (bchGenerator t) (flipAt e w) == 0)).map (fun e => (flipAt e w, e.length))

/-- Decoding of a half with its parity. -/
def outerDecode (ov : Nat) (w : List Bool) : Option (List Bool × Nat) := bchDecode (outerT ov) (outerParityBits ov) w

/-! ### Inner code (R106, R107) -/

/-- The bits that column `col`, place j of the lifted code reads: the shortened bits, fixed at 0, go before the codeword. -/
def liftedBit (ov : Nat) (w : List Bool) (col j : Nat) : Bool :=
  let p := liftSize * col + j
  if p < shortenedBits ov then false else w.getD (p - shortenedBits ov) false

/-- Check j of base row r is satisfied: the bits its circulants name sum to 0. FEC_CODE_SPEC, which holds the base matrices and the shifts, is not in the
spec: they are free (assumption 39). -/
def checkHolds (ov : Nat) (w : List Bool) (r j : Nat) : Bool :=
  !((List.range (baseColumns ov)).foldl (fun s col =>
    match Config.baseMatrix ov r col with
    | some k => s != liftedBit ov w col ((j + k) % liftSize)
    | none => s) false)

/-- The checks of the lifted matrix: base row and place. -/
def allChecks (ov : Nat) : List (Nat × Nat) :=
  (List.range (baseRows ov)).flatMap (fun r => (List.range liftSize).map (fun j => (r, j)))

/-- Parity checks of a word not satisfied. -/
def unsatisfied (ov : Nat) (w : List Bool) : Nat := ((allChecks ov).filter (fun e => !checkHolds ov w e.1 e.2)).length

/-- The group carries a shaped code whose amplitudes hold bits: the parity equations then take labels (R107). -/
def shapedGroup (codes : List Nat) : Bool := codes.any (fun c => decide (33 ≤ c ∧ c ≤ 95))

/-- The word that the parity equations take: the codeword itself, or, in a group with shaped codes, the codeword with the amplitude labels in place of
the matcher input bits, as FEC_CODE_SPEC states it (assumption 39). -/
def equationWord (ov : Nat) (codes : List Nat) (place : Nat) (w : List Bool) : List Bool :=
  if shapedGroup codes then Config.labelWord ov codes place w else w

/-- The inner information part of a block: half 0, its parity, half 1, its parity (R106). -/
def innerInfo (ov : Nat) (block : List Bool) : List Bool :=
  let h0 := block.take halfBits
  let h1 := block.drop halfBits
  h0 ++ outerParity ov h0 ++ h1 ++ outerParity ov h1

/-- The inner parity: the one that satisfies every check of the systematic code. -/
def innerParity (ov : Nat) (codes : List Nat) (place : Nat) (info : List Bool) : List Bool :=
  let n := innerParityBits ov
  bitsDown n (((List.range (2 ^ n)).find? (fun p => unsatisfied ov (equationWord ov codes place (info ++ bitsDown n p)) == 0)).getD 0)

/-- A block encoded (R110): inner information, inner parity. `place` is its place on the group's bit stream within a mapping period. -/
def encodeBlock (ov : Nat) (codes : List Nat) (place : Nat) (block : List Bool) : List Bool :=
  let i := innerInfo ov block
  i ++ innerParity ov codes place i

/-! ### Decisions -/

/-- A log-likelihood ratio decides for 1 where it is negative (assumption 154). -/
def hardBit (l : Int) : Bool := decide (l < 0)

/-- The decisions after k completed iterations: the input hard decisions for k = 0; later the layered decoder's, whose update the spec does not state
(assumption 155). In a group with shaped codes FEC_CODE_SPEC says how ratios and codeword bits belong together (assumption 39). -/
def decisions (ov : Nat) (codes : List Nat) (place : Nat) (llrs : List Int) (k : Nat) : List Bool :=
  if k = 0 ∧ !shapedGroup codes then llrs.map hardBit else Config.decide ov codes place llrs k

/-- Unsatisfied checks after k iterations. -/
def leftAfter (ov : Nat) (codes : List Nat) (place : Nat) (llrs : List Int) (k : Nat) : Nat :=
  unsatisfied ov (equationWord ov codes place (decisions ov codes place llrs k))

/-- The first iteration, at most n, that leaves every check satisfied (R111). -/
def convergedAt (ov : Nat) (codes : List Nat) (place : Nat) (llrs : List Int) (n : Nat) : Option Nat :=
  (List.range (n + 1)).find? (fun k => leftAfter ov codes place llrs k == 0)

/-- The iteration whose decisions are kept: of those completed the one with the fewest unsatisfied checks, the later of two that tie; none completed: the
input decisions (R111). -/
def keptIteration (ov : Nat) (codes : List Nat) (place : Nat) (llrs : List Int) (n : Nat) : Nat :=
  if n = 0 then 0
  else ((List.range n).map (· + 1)).foldl (fun b k =>
    if leftAfter ov codes place llrs k ≤ leftAfter ov codes place llrs b then k else b) 1

end Sys2Proof.Machine
end

