-- ==== Sys2Proof/Machine/Symbols.lean ====
section
/-! DEFINITION. Bits and symbols of a subcarrier: mapping on transmit (R42, R43), the phase search and soft demapping on receive (R87, R89). -/

namespace Sys2Proof.Machine

/-! ### Labels (R42, R43) -/

/-- The amplitude that a Gray label names: 00, 01, 11, 10 for 1, 3, 5, 7; one bit for 1, 3; none for 1. -/
def amplitudeOf : List Bool → Nat
  | [] => 1
  | [a] => if a then 3 else 1
  | a :: b :: _ => if a then (if b then 5 else 7) else (if b then 3 else 1)

/-- The level of one dimension from its sign bit and amplitude (assumption 153). -/
def signed (s : Bool) (a : Nat) : Int := if s = Config.signNegative then -(a : Int) else (a : Int)

/-- The level a Gray label of sign and amplitude bits names. -/
def labelLevel (l : List Bool) : Int :=
  if Config.signFirst then signed (l.headD false) (amplitudeOf (l.drop 1))
  else signed (l.getLast?.getD false) (amplitudeOf l.dropLast)

/-- A code of uniform constellation: 1 to 3, and 32 and 96, which give the same symbols as 1 and 3 (R41). -/
def uniformCode (c : Nat) : Bool := decide (c ≤ 3 ∨ c = 32 ∨ c = 96)

/-- Label bits of a dimension, the sign among them. -/
def labelBits (c : Nat) : Nat := if c = 2 then 2 else if c = 1 ∨ effCode c ≤ 32 then 1 else 3

/-- Position p repeats the position before it: the first 8·(32 − c) positions with p mod 4 = 3, for codes 24 to 31 (R42). -/
def repeats (c p : Nat) : Bool := decide (24 ≤ c ∧ c ≤ 31 ∧ p % 4 = 3 ∧ p / 4 < 8 * (32 - c))

/-- Position p of a dimension carries amplitude 1 and no amplitude bits under code 95 (R42). -/
def fixedAmplitude (c p : Nat) : Bool := c == 95 && p % 64 == 63

/-! ### Mapping (R42, R43) -/

/-- A list in pieces of n; fuel bounds their number. -/
def piecesOf {α : Type} (n : Nat) : Nat → List α → List (List α)
  | 0, _ => []
  | f + 1, l => l.take n :: piecesOf n f (l.drop n)

/-- A symbol from its four levels in the order X before Y, I before Q. -/
def symOf (l : List Int) : Sym := ⟨l.getD 0 0, l.getD 1 0, l.getD 2 0, l.getD 3 0⟩

/-- Symbols of a uniform code: a Gray label per dimension, in time order, X before Y, I before Q. -/
def mapUniform (c n : Nat) (bs : List Bool) : List Sym :=
  (piecesOf 4 n ((piecesOf (labelBits c) (4 * n) bs).map labelLevel)).map symOf

/-- QPSK with repeated positions: the symbols of the others in order, each repeated position taking the symbol before it (R42). -/
def mapRepeated (c : Nat) (bs : List Bool) : List Sym :=
  let own := mapUniform 1 (bs.length / 4) bs
  ((List.range 256).foldl (fun (s : List Sym × List Sym) p =>
    if repeats c p then (s.1, s.2 ++ [s.2.getLast?.getD ⟨0, 0, 0, 0⟩])
    else (s.1.drop 1, s.2 ++ [s.1.headD ⟨0, 0, 0, 0⟩])) (own, [])).2

/-- Arrangement number i of given counts of the amplitudes 1, 3, 5, 7, in ascending order of the arrangements. -/
def arrange : Nat → Composition → Nat → List Nat
  | 0, _, _ => []
  | n + 1, p, i =>
    let whole := factorial (n + 1) / (factorial p.1 * factorial p.2.1 * factorial p.2.2.1 * factorial p.2.2.2)
    let w1 := whole * p.1 / (n + 1)
    let w3 := whole * p.2.1 / (n + 1)
    let w5 := whole * p.2.2.1 / (n + 1)
    if i < w1 then 1 :: arrange n (p.1 - 1, p.2.1, p.2.2.1, p.2.2.2) i
    else if i < w1 + w3 then 3 :: arrange n (p.1, p.2.1 - 1, p.2.2.1, p.2.2.2) (i - w1)
    else if i < w1 + w3 + w5 then 5 :: arrange n (p.1, p.2.1, p.2.2.1 - 1, p.2.2.2) (i - w1 - w3)
    else 7 :: arrange n (p.1, p.2.1, p.2.2.1, p.2.2.2 - 1) (i - w1 - w3 - w5)

/-- The 256 amplitudes of a dimension from its 8·c − 256 bits (R42): the matcher's arrangement, or for code 95 the labels filled directly. -/
def amplitudes (c : Nat) (bs : List Bool) : List Nat :=
  if c = 95 then
    ((List.range 256).foldl (fun (s : List Bool × List Nat) p =>
      if fixedAmplitude c p then (s.1, s.2 ++ [1]) else (s.1.drop 2, s.2 ++ [amplitudeOf (s.1.take 2)])) (bs, [])).2
  else arrange 256 (composition c) (Config.matcherIndex c (ofBits bs) % arrangements (composition c))

/-- Symbols of a shaped code from 33 to 95: amplitude bits of XI, XQ, YI, YQ, then the sign bits in time order, each from the stream position that the
placement table gives (R107, assumption 39). -/
def mapShaped (c : Nat) (bs : List Bool) : List Sym :=
  let placed := (List.range (32 * c)).map (fun k => bs.getD (Config.placement c k) false)
  let n := amplitudeBits c
  let amps := (piecesOf n 4 placed).map (amplitudes c)
  let signs := placed.drop (4 * n)
  (List.range 256).map (fun p => symOf ((List.range 4).map (fun k => signed (signs.getD (4 * p + k) false) ((amps.getD k []).getD p 1))))

/-- The 256 symbols of a subcarrier in one mapping period from its 32·c bits. -/
def mapSubcarrier (c : Nat) (bs : List Bool) : List Sym :=
  if uniformCode c then mapUniform c 256 bs else if effCode c ≤ 31 then mapRepeated c bs else mapShaped c bs

/-- One mapping period of a group: its bits divided among the active subcarriers, given as (subcarrier, code) in ascending number (R43). -/
def mapPeriod : List (Nat × Nat) → List Bool → List (Nat × List Sym)
  | [], _ => []
  | (k, c) :: r, bs => (k, mapSubcarrier c (bs.take (mappingBits c))) :: mapPeriod r (bs.drop (mappingBits c))

/-- Bits of a mapping period of a group. -/
def periodBits (scs : List (Nat × Nat)) : Nat := sumOf (scs.map (fun e => mappingBits e.2))

/-- The whole mapping periods that a bit stream holds, and the bits left over. Fuel bounds their number. -/
def mapStream (scs : List (Nat × Nat)) : Nat → List Bool → List (List (Nat × List Sym)) × List Bool
  | 0, bs => ([], bs)
  | f + 1, bs =>
    let n := periodBits scs
    if n = 0 ∨ bs.length < n then ([], bs)
    else
      let r := mapStream scs f (bs.drop n)
      (mapPeriod scs (bs.take n) :: r.1, r.2)

/-! ### Phase search (R87) -/

/-- Cosine and sine of m·π/64 in units of 2^-30. -/
def cosTable : List Int :=
  [1073741824, 1072448455, 1068571464, 1062120190, 1053110176, 1041563127, 1027506862, 1010975242,
   992008094, 970651112, 946955747, 920979082, 892783698, 862437520, 830013654, 795590213,
   759250125, 721080937, 681174602, 639627258, 596538995, 552013618, 506158392, 459083786,
   410903207, 361732726, 311690799, 260897982, 209476638, 157550647, 105245103, 52686014]
def sinTable : List Int :=
  [0, 52686014, 105245103, 157550647, 209476638, 260897982, 311690799, 361732726,
   410903207, 459083786, 506158392, 552013618, 596538995, 639627258, 681174602, 721080937,
   759250125, 795590213, 830013654, 862437520, 892783698, 920979082, 946955747, 970651112,
   992008094, 1010975242, 1027506862, 1041563127, 1053110176, 1062120190, 1068571464, 1072448455]

/-- A dimension pair turned back by q quarter turns and r·π/64, r from 0 to 31. -/
def turnPair (q r : Nat) (i k : Int) : Int × Int :=
  let c := cosTable.getD r 0
  let s := sinTable.getD r 0
  let i' := (i * c + k * s) / 2 ^ 30
  let k' := (k * c - i * s) / 2 ^ 30
  match q % 4 with
  | 0 => (i', k')
  | 1 => (k', -i')
  | 2 => (-i', -k')
  | _ => (-k', i')

/-- A symbol turned back by a phase in steps of π/64. -/
def turnSym (phase : Int) (y : Sym) : Sym :=
  let r := (phase % 32).toNat
  let q := (phase / 32 % 4).toNat
  let x := turnPair q r y.xi y.xq
  let z := turnPair q r y.yi y.yq
  ⟨x.1, x.2, z.1, z.2⟩

/-- The composition of amplitudes of a code: uniform ones hold each of theirs equally often. -/
def compositionOf (c : Nat) : Composition :=
  if c = 2 then (128, 128, 0, 0) else if c = 3 ∨ 95 ≤ effCode c then (64, 64, 64, 64)
  else if effCode c ≤ 32 then (256, 0, 0, 0) else composition c

/-- The amplitudes that a code uses with their counts. -/
def amplitudeCounts (c : Nat) : List (Nat × Nat) :=
  let p := compositionOf c
  [(1, p.1), (3, p.2.1), (5, p.2.2.1), (7, p.2.2.2)].filter (fun e => e.2 != 0)

/-- Squared distance of a sample to a level. -/
def distance (y level : Int) : Nat := ((y - level * 1024) * (y - level * 1024)).natAbs

/-- Squared distance of a sample to the decision on it. -/
def nearest (c : Nat) (y : Int) : Nat :=
  ((amplitudeCounts c).flatMap (fun e => [distance y e.1, distance y (-(e.1 : Int))])).foldl min (2 ^ 64)

/-- The phase metric of a symbol under test phase m. -/
def phaseMetric (c : Nat) (y : Sym) (m : Int) : Nat :=
  let t := turnSym m y
  nearest c t.xi + nearest c t.xq + nearest c t.yi + nearest c t.yq

/-- A subcarrier's part of the search: its static offset, its symbols each with its code. -/
structure PhaseIn where
  sc : Nat
  offset : Int
  ys : List (Nat × Sym)

/-- The metric of test phase m at symbol i over the window of 2L + 1 symbols, of one subcarrier. -/
def windowMetric (half : Nat) (p : PhaseIn) (i : Nat) (m : Int) : Nat :=
  sumOf (((p.ys.drop (i - half)).take (min i half + half + 1)).map (fun y => phaseMetric y.1 y.2 (m + p.offset)))

/-- The test phase of 32 with the lowest metric at symbol i, summed over the given subcarriers. -/
def bestPhase (half : Nat) (ps : List PhaseIn) (i : Nat) : Nat :=
  let total (m : Nat) : Nat := sumOf (ps.map (fun p => windowMetric half p i m))
  (List.range 32).foldl (fun b m => if total m < total b then m else b) 0

/-- The phase nearest to the last one that equals a test phase modulo π/2. -/
def unwrapPhase (last : Int) (m : Nat) : Int := last + ((m : Int) - last + 16) % 32 - 16

/-- The unwrapped phases of n symbols after the last one. -/
def phaseTrack (half : Nat) (ps : List PhaseIn) : Nat → Nat → Int → List Int
  | 0, _, _ => []
  | n + 1, i, last =>
    let x := unwrapPhase last (bestPhase half ps i)
    x :: phaseTrack half ps n (i + 1) x

/-! ### Soft demapping (R89) -/

/-- ln(n) in units of 2^-32, from n = m·2^k with 1 ≤ m < 2: k·ln 2 and the series of 2·artanh((m − 1)/(m + 1)). -/
def lnFix (n : Nat) : Int :=
  let k := Nat.log2 n
  let z := (n - 2 ^ k) * 2 ^ 64 / (n + 2 ^ k)
  let s := ((List.range 40).foldl (fun (a : Nat × Nat) i => (a.1 + a.2 / (2 * i + 1), a.2 * z / 2 ^ 64 * z / 2 ^ 64)) (0, z)).1
  (k * 2977044472 + 2 * s / 2 ^ 32 : Nat)

/-- The max-log weight of a level in units of 2^-32: squared distance over the noise variance of a polarisation, less the logarithm of the amplitude's
count. `snr` is linear in units of 2^-64; the variance is the polarisation's mean energy over it. -/
def levelWeight (c snr : Nat) (y : Int) (count : Nat) (level : Int) : Int :=
  ((distance y level * snr * 128 / energy (compositionOf c) / 2 ^ 52 : Nat) : Int) - lnFix count

/-- The levels of a dimension at position p with their labels and the counts of their amplitudes. At a fixed position only the sign is open. -/
def labelled (c p : Nat) : List (List Bool × Nat × Int) :=
  let n := if fixedAmplitude c p then 1 else labelBits c
  let amps := if fixedAmplitude c p then [(1, 256)] else amplitudeCounts c
  (List.range (2 ^ n)).filterMap (fun w =>
    let l := bitsDown n w
    (amps.find? (fun e => e.1 == (labelLevel l).natAbs)).map (fun e => (l, e.2, labelLevel l)))

/-- A 6-bit value in steps of 0.5, saturating (R89). -/
def saturate6 (x : Int) : Int := clampInt (-32) 31 x

/-- The ratios of one dimension, one for each label bit: positive where 0 is the likelier (assumption 154). -/
def dimensionRatios (c snr p : Nat) (y : Int) : List Int :=
  let ls := (labelled c p).map (fun e => (e.1, levelWeight c snr y e.2.1 e.2.2))
  let n := if fixedAmplitude c p then 1 else labelBits c
  (List.range n).map (fun k =>
    let low (b : Bool) : Int := ((ls.filter (fun e => e.1.getD k false == b)).map (·.2)).foldl min (2 ^ 80)
    saturate6 (roundInt (low true - low false) (2 ^ 31)))

/-- The ratios of a symbol: X before Y, I before Q. -/
def symbolRatios (c snr p : Nat) (y : Sym) : List Int :=
  dimensionRatios c snr p y.xi ++ dimensionRatios c snr p y.xq ++ dimensionRatios c snr p y.yi ++ dimensionRatios c snr p y.yq

/-- The ratios of a subcarrier in one mapping period: those of a repeated position are added to those before it, and one set passes (R89). -/
def demapSubcarrier (c snr : Nat) (ys : List Sym) : List Int :=
  let l := ys.zipIdx.map (fun e => (e.2, symbolRatios c snr e.2 e.1))
  (l.foldl (fun (s : List (List Int)) e =>
    if repeats c e.1 then s.dropLast ++ [List.zipWith (fun a b => saturate6 (a + b)) (s.getLast?.getD []) e.2] else s ++ [e.2]) []).flatten

/-! ### A carrier's symbols (R86 to R89, R98) -/

/-- Bits of a mapping period under given codes of a group. -/
def codeBits (codes : List Nat) : Nat := sumOf (codes.map mappingBits)

/-- Tables that delineation tests after the one in force: the candidates, then the start table once R100 added it (R137). -/
def Device.testedTables (d : Device) (c : Nat) : List LoadTable :=
  let lc := d.loadCarrier c
  (d.rx.at lc).candidates ++ (if (d.rx.at lc).startHunt then (d.tableOf lc 0).toList else [])

/-- A table's code for a subcarrier. -/
def Device.codeUnder (d : Device) (t : LoadTable) (c k : Nat) : Nat := t.codes.getD (if d.on Reg.frmBondMode then 16 * c + k else k) 0

/-- The code a subcarrier is demapped under now: that of the table under test until a block-0 header settles the group's table, else the one in force. -/
def Device.codeNow (d : Device) (c k : Nat) : Nat :=
  let g := d.groupOfSc c k
  let x := d.rxg c g
  let st := d.get (Reg.frmAlignState c g)
  match x.testTable with
  | 0 => d.get (Reg.lineRxLoad c k)
  | n + 1 =>
    if st = 0 ∨ (st = 4 ∧ x.settled = true) then d.get (Reg.lineRxLoad c k)
    else match (d.testedTables c)[n]? with
      | some t => d.codeUnder t c k
      | none => d.get (Reg.lineRxLoad c k)

/-- Codewords of a group between demapper and framer: in the pool, held, or delivered and not yet taken. -/
def Device.wordsAhead (d : Device) (c g : Nat) : Nat :=
  let mine (w : Codeword) : Bool := w.carrier == c && w.group == g
  (d.fec.slots.filter (fun e => mine e.2)).length + (d.fec.held.filter mine).length + (d.fec.stopped.filter (fun s => mine s.word)).length +
    (d.rxg c g).blocks.length

/-- The table announced to a group in Sync, and how many codewords of it come before the announced frame (R98, R131). -/
def Device.switchAhead (d : Device) (c g : Nat) : Option (LoadTable × Nat) :=
  let x := d.rxg c g
  if d.get (Reg.frmAlignState c g) ≠ 4 then none
  else
    match x.announced with
    | some (n, f) => (d.tableOf (d.loadCarrier c) n).map (fun t => (t, 16 * ((f + 2 ^ 48 - x.frame) % 2 ^ 48) - (x.expect + d.wordsAhead c g)))
    | none => none

/-- The code of subcarrier k in the i-th mapping period still to be demapped: an announced table's from the first period that holds bits of its frame
(R98). -/
def Device.codeIn (d : Device) (c k i : Nat) : Nat :=
  let g := d.groupOfSc c k
  match d.switchAhead c g with
  | none => d.codeNow c k
  | some (t, n) =>
    let p := codeBits ((d.groupScs c g).map (d.codeNow c ·))
    if p = 0 ∨ n * innerLength (d.overhead c) < (d.rxg c g).ratios.length + (i + 1) * p then d.codeUnder t c k else d.codeNow c k

/-- The unwrapped phase of each new symbol of a subcarrier: the search over it alone, or over all of them (LINE_RX_CPR_JOINT). -/
def Device.phasesOf (d : Device) (c : Nat) (ps : List PhaseIn) (p : PhaseIn) : List Int :=
  let half := d.get (Reg.lineRxCprHalf c)
  phaseTrack half (if d.on (Reg.lineRxCprJoint c) then ps else [p]) (p.ys.length - 2 * half) half (tblGetD (d.rx.at c).phase p.sc 0)

/-- The search of a carrier: `samples` holds, beside whole new mapping periods, the LINE_RX_CPR_HALF symbols on each side of them that the window of R87
takes. -/
def Device.phaseIn (d : Device) (c : Nat) (samples : List (Nat × List Sym)) : List PhaseIn :=
  let half := d.get (Reg.lineRxCprHalf c)
  (samples.filter (fun e => (d.activeScs c).contains e.1)).map (fun e =>
    ⟨e.1, tblGetD (d.rx.at c).offset e.1 0, e.2.zipIdx.map (fun y => (d.codeIn c e.1 ((y.2 - half) / 256), y.1))⟩)

/-- Carrier phase of the symbols of a carrier's subcarriers: each with its phases and its new symbols, turned back by phase, static offset and quarter turns
(R87, R88). -/
def Device.recover (d : Device) (c : Nat) (samples : List (Nat × List Sym)) : List (Nat × List Int × List Sym) :=
  let ps := d.phaseIn c samples
  ps.map (fun p =>
    let xs := d.phasesOf c ps p
    let turn : Int := p.offset + 32 * (tblGetD (d.rx.at c).turns p.sc 0 : Nat)
    (p.sc, xs, List.zipWith (fun x y => turnSym (x + turn) y.2) xs (p.ys.drop (d.get (Reg.lineRxCprHalf c)))))

/-- Linear SNR of a subcarrier in units of 2^-64: that of its last valid window (R89). -/
def Device.demapSnr (d : Device) (c k : Nat) : Nat :=
  pow10Milli (((tblGet (d.rx.at c).lastSnr k).getD (Config.firstSnr c k) : Nat) : Int)

/-- The ratios of a group over n mapping periods from the i-th on, each with its subcarrier and its place in the period: the subcarriers in ascending number
within each period (R43). -/
def Device.demapPeriods (d : Device) (c g : Nat) (samples : List (Nat × List Sym)) : Nat → Nat → List (Int × Nat × Nat)
  | 0, _ => []
  | n + 1, i =>
    let l := (d.groupScs c g).flatMap (fun k =>
      let code := d.codeIn c k i
      if effCode code = 0 then []
      else (demapSubcarrier code (d.demapSnr c k) (((tblGetD samples k []).drop (256 * i)).take 256)).map (fun x => (x, k)))
    l.zipIdx.map (fun e => (e.1.1, e.1.2, e.2)) ++ d.demapPeriods c g samples n (i + 1)

/-- Whole mapping periods that a group's symbols fill. -/
def Device.periodsIn (d : Device) (c g : Nat) (samples : List (Nat × List Sym)) : Nat :=
  ((samples.filter (fun e => d.groupOfSc c e.1 == g)).map (fun e => e.2.length / 256)).foldl min 4096

/-- The symbols of a carrier become ratios of its groups (R87, R89). -/
def Device.demap (d : Device) (c : Nat) (samples : List (Nat × List Sym)) : Device :=
  let l := d.recover c samples
  let ys : List (Nat × List Sym) := l.map (fun e => (e.1, e.2.2))
  let gs := (d.groups c).filter (fun g => ys.any (fun e => d.groupOfSc c e.1 == g))
  let new := gs.map (fun g => (g, d.demapPeriods c g ys (d.periodsIn c g ys) 0))
  let r := d.rx.at c
  let phase := l.foldl (fun t e => tblPut t e.1 ((e.2.1.getLast?).getD (tblGetD t e.1 0))) r.phase
  ({ d with rx := d.rx.put c { r with phase := phase } }).each new (fun e x => x.putRxg c e.1 { x.rxg c e.1 with ratios := (x.rxg c e.1).ratios ++ e.2 })

/-- The codes under which a codeword of a group that begins now is taken: the announced table's where it lies in the announced frame. -/
def Device.wordCodes (d : Device) (c g : Nat) : List Nat :=
  (d.groupScs c g).map (fun k =>
    match d.switchAhead c g with
    | some (t, 0) => d.codeUnder t c k
    | _ => d.codeNow c k)

/-- Ratios that belong to the next codeword of a group, which begins at a place of its mapping period. -/
def Device.ratiosNeeded (d : Device) (c g place : Nat) : Nat :=
  let ov := d.overhead c
  let codes := d.wordCodes c g
  if shapedGroup codes then Config.wordRatios ov codes place else innerLength ov

end Sys2Proof.Machine
end

