-- ==== Sys2Proof/Machine/LineRx.lean ====
section
/-! DEFINITION. Receive enable, acquisition, causes, equalisers, phase and SNR windows of a carrier (chapter 04, R69 to R90). -/

namespace Sys2Proof.Machine

/-! ### Enable (R77, R117) -/

/-- The load check of LINE_RX_ENABLE written v (R117, R479). -/
def rxEnableCheck (c v : Nat) (d : Device) : Option Err :=
  d.loadCheck (poolLoadOf (if c = 0 then v == 1 else d.on (Reg.lineRxEnable 0)) (if c = 1 then v == 1 else d.on (Reg.lineRxEnable 1))
    (d.get (Reg.fecOverhead 0)) d.overhead1 (d.get Reg.fecMinIter))

/-- The chain goes Off: soft decisions stop, the chain is powered down and shows no cause. -/
def Device.rxOff (d : Device) (c : Nat) : Device :=
  if d.get (Reg.lineRxState c) = 0 then d
  else
    let d := if bitAt (d.get (Reg.lineRxCauses c)) 0 then (d.rawAll c 0 false).publish c else d
    let d := (((d.softStop c).set (Reg.lineRxCauses c) 0).set (Reg.lineRxState c) 0).notice (Reg.lineRxState c) [0]
    let d := ((d.set (Reg.lineRxCdState c) 0).set (Reg.lineRxClockState c) 0).set (Reg.frmScLost c) 0
    let r := d.rx.at c
    let d := { d with rx := d.rx.put c { r with stage := 0, resolved := [], suspect := [], frozenFrom := [] } }
    d.each (List.range 16) (fun k x => x.setEq c k 0)

/-- Effect of a write of LINE_RX_ENABLE (R77): 1 in Off starts an acquisition under the start table; 0 goes Off. -/
def applyRxEnable (c v : Nat) (d : Device) : Device :=
  let d := (d.putValue (Reg.lineRxEnable c) v).followLoLasers c
  if v = 1 then
    (if d.get (Reg.lineRxState c) = 0 then ((d.enterSearching c true).notice (Reg.lineRxState c) [1]).followLo else d)
  else d.rxOff c

/-- The decoder engines a first receiving carrier needs (R477). -/
def Device.enginesNeeded (d : Device) : List Nat :=
  (List.range 20).filter (fun k => decide (k < d.get Reg.pwrFecActive)) |>.map resEngine

/-- LINE_RX_ENABLE written v: the load check, then its effect once the decoder engines are awake. -/
def writeRxEnable (q : Req) (c v : Nat) (d : Device) : Device × Reply :=
  match rxEnableCheck c v d with
  | some e => (d, .fail e)
  | none =>
    d.whenReady q 2 (Reg.lineRxEnable c).ref v [] (if v = 1 then d.enginesNeeded else []) (fun d =>
      d.withhold q (Reg.lineRxEnable c).ref (applyRxEnable c v d, okWrite))

/-- LINE_RX_ENABLE_ON (R77). -/
def execLineRxEnableOn (q : Req) (c : CarrierNo) (s : State) : Host.Outcome State Fault Refusal :=
  onDev s (fun d => d.serve q 2 1 true (Reg.lineRxEnable c).ref (fun _ d =>
    d.plainWriteR (Reg.lineRxEnable c) .any q ⟨1, 1⟩ (writeRxEnable q c 1)))

/-- LINE_RX_ENABLE_OFF (R77). -/
def execLineRxEnableOff (q : Req) (c : CarrierNo) (s : State) : Host.Outcome State Fault Refusal :=
  onDev s (fun d => d.serve q 2 1 true (Reg.lineRxEnable c).ref (fun _ d =>
    d.plainWriteR (Reg.lineRxEnable c) .any q ⟨1, 0⟩ (fun d =>
      d.withhold q (Reg.lineRxEnable c).ref (applyRxEnable c 0 d, okWrite))))

/-! ### Acquisition stages (Table 4.5) -/

/-- The stage of an acquisition. -/
def Device.setStage (d : Device) (c n : Nat) : Device :=
  { d with rx := d.rx.put c { d.rx.at c with stage := n } }

/-- Entry to Tracking (Tables 4.3, 4.4, 6.7): the search causes clear, the acquisition's duration is kept, every group that carries
frames and is not in Sync is declared OOF. -/
def Device.enterTracking (d : Device) (c : Nat) : Device :=
  let us := (d.now - (d.rx.at c).acqAt) / fuUs
  let d := (((d.setStage c 7).set (Reg.lineRxState c) 3).set (Reg.lineRxAcqTime c) us)
  let d := d.each [3, 5, 6] (fun k x =>
    if bitAt (x.get (Reg.lineRxCauses c)) k then (x.setBit (Reg.lineRxCauses c) k false).notice (Reg.lineRxCauses c) [k, 0] else x)
  let d := d.notice (Reg.lineRxState c) [3]
  let d := d.each (d.groups c) (fun g x =>
    if x.rxEmpty c g || x.get (Reg.frmAlignState c g) == 4 then x else x.rawDefect c g 1 true)
  d.publish c

/-- The levels of a report lie between 6 and 20 dB below full scale, as a run needs (R74). -/
def levelsOk (rms : List Nat) : Bool := (rms.take 4).all (fun r => decide (60 ≤ r ∧ r ≤ 200))

/-- The equalisers of subcarriers with a code leave Idle for Blind (Table 4.7). -/
def Device.leaveIdle (d : Device) (c : Nat) : Device :=
  d.each (List.range 16) (fun k x =>
    if x.get (Reg.lineRxEqState c k) = 0 ∧ x.get (Reg.lineRxLoad c k) ≠ 0 then x.setEq c k 1 else x)

/-- Stage 1 done, a calibration run of its own: its corrections apply at once (R74, R75, R397). On a hub carrier nothing else runs carrier-wide and the
chain tracks, its dispersion stage at HUB_US_CD; the equalisers of continuous leaves start (R160, R164). -/
def Device.stage1Done (d : Device) (c : Nat) (adc : AdcReport) : Device :=
  let d := (((d.set (Reg.lineRxAdcState c) 2).adcLevels c adc.rms adc.clips).setI (Reg.lineRxAdcSpur c) adc.spur).applyRxTerms c (clampTerms adc.terms)
  let d := ((d.measured adc.delays).bump (Reg.calRuns c)).set (Reg.calLast c) (fuToTime96 d.now)
  if d.on (Reg.hubEnable c) then ((d.enterTracking c).setI (Reg.lineRxCd c) (d.getI (Reg.hubUsCd c))).leaveIdle c
  else (d.setStage c 2).set (Reg.lineRxCdState c) 1

/-- A phase of stage 2 done with its dispersion in ps/nm: the search gives a value from LINE_RX_CD_MIN to LINE_RX_CD_MAX and Fine follows; Fine gives one within
400 ps/nm of it, and the compensation tracks (R81). -/
def Device.stage2Done (d : Device) (c : Nat) (estimate : Int) : Device :=
  let r := d.rx.at c
  if d.get (Reg.lineRxCdState c) = 1 then
    let x := clampInt (d.getI (Reg.lineRxCdMin c)) (d.getI (Reg.lineRxCdMax c)) estimate
    (({ d with rx := d.rx.put c { r with cdEstimate := x * 10 } }).setI (Reg.lineRxCd c) x).set (Reg.lineRxCdState c) 2
  else
    let x := clampInt (r.cdEstimate / 10 - 400) (r.cdEstimate / 10 + 400) estimate
    ((({ d with rx := d.rx.put c { r with cdEstimate := x * 10, estimates := [], cdAt := d.now } }).setStage c 3).setI (Reg.lineRxCd c) x).set (Reg.lineRxCdState c) 3

/-- Stage 3 done with a coarse frequency offset in MHz: beyond ±4.0 GHz it is cause [3] and the search restarts. -/
def Device.stage3Done (d : Device) (c : Nat) (mhz : Int) : Device :=
  let d := d.setI (Reg.lineRxFreqOffset c) mhz
  if mhz < -4000 ∨ 4000 < mhz then d.setRxCause c 3
  else ((d.setStage c 4).set (Reg.lineRxState c) 2).notice (Reg.lineRxState c) [2]

/-- Stage 4 done: clock recovery Locked; the equalisers of subcarriers with a code leave Idle for Blind (Table 4.7). -/
def Device.stage4Done (d : Device) (c : Nat) (offset : Int) : Device :=
  (((d.setStage c 5).set (Reg.lineRxClockState c) 1).setI (Reg.lineRxClockOffset c) offset).leaveIdle c

/-- Every active subcarrier's quadrant is resolved. -/
def Device.allResolved (d : Device) (c : Nat) : Bool := (d.activeScs c).all (fun k => (d.rx.at c).resolved.contains k)

/-- RX_STAGE_COMPLETE: the stage under way completes with its result (stage 2, which completes twice, for Search and for Fine: dispersion in ps/nm; stage 3: offset in MHz; stage 4:
clock offset in 0.001 ppm) and the chain goes on (R77, R79, Table 4.5). Stage 5 needs every active subcarrier in Decision-directed
or DFE, and soft decisions start with its end; stage 6 needs every quadrant resolved; stage 7 is not needed for Tracking. -/
def execRxStageComplete (c : CarrierNo) (result : Int) (adc : AdcReport) (s : State) : Host.Outcome State Fault Refusal :=
  onDev s (fun d =>
    let st := d.get (Reg.lineRxState c)
    if st ≠ 1 ∧ st ≠ 2 then d
    else
      match (d.rx.at c).stage with
      | 1 => if levelsOk adc.rms then d.takeSeq.stage1Done c adc else d
      | 2 => d.takeSeq.stage2Done c result
      | 3 => d.takeSeq.stage3Done c result
      | 4 => d.takeSeq.stage4Done c result
      | 5 => if d.allDecision c then (d.takeSeq.setStage c 6).softStart c else d
      | 6 => if d.allDecision c && d.allResolved c then d.takeSeq.enterTracking c else d
      | _ => d)

/-- RX_ACQ_TIMEOUT: LINE_RX_ACQ_LIMIT from Searching without Tracking: cause [6] and a full-range search (R77). Stale outside an
acquisition. -/
def execRxAcqTimeout (c : CarrierNo) (s : State) : Host.Outcome State Fault Refusal :=
  onDev s (fun d =>
    if d.dead then d
    else
      let d := d.takeSeq
      let st := d.get (Reg.lineRxState c)
      if st ≠ 1 ∧ st ≠ 2 then d.stale
      else d.setRxCause c 6)

/-! ### Causes (Table 4.4) -/

/-- A cause can be set now: no input not on a hub carrier (R160); the local oscillator while a laser of it is not ready; the offset and
dispersion causes in their stages, no peak in the search; clock only while Tracking. -/
def Device.causeMaySet (d : Device) (c k : Nat) : Bool :=
  let st := d.get (Reg.lineRxState c)
  match k with
  | 0 => !d.on (Reg.hubEnable c)
  | 1 => true
  | 2 => !d.loReady c
  | 3 => st == 1 && (d.rx.at c).stage == 3
  | 4 => st == 3
  | 5 => st == 1 && (d.rx.at c).stage == 2 && d.get (Reg.lineRxCdState c) == 1
  | _ => st == 1 || st == 2

/-- Clock recovery that has locked leaves Locked while the chain converges: shown, and no cause (R83, Table 4.4). -/
def Device.clockLost (d : Device) (c k : Nat) : Bool :=
  k == 4 && d.get (Reg.lineRxState c) == 2 && d.get (Reg.lineRxClockState c) == 1

/-- RX_CAUSE_SET (R78). -/
def execRxCauseSet (c : CarrierNo) (cause : Fin 7) (s : State) : Host.Outcome State Fault Refusal :=
  onDev s (fun d =>
    if d.get (Reg.lineRxState c) ≠ 0 && d.causeMaySet c cause then
      let d := d.takeSeq
      (if cause.val = 4 then d.set (Reg.lineRxClockState c) 0 else d).setRxCause c cause
    else if d.clockLost c cause then d.takeSeq.set (Reg.lineRxClockState c) 0
    else d)

/-- RX_CAUSE_CLEAR (R78): causes [0], [1], [4] when their condition ends, [2] when every laser is ready; [3], [5], [6] clear only at
the next entry to Tracking. A clock that was out of lock while the chain converged locks again. -/
def execRxCauseClear (c : CarrierNo) (cause : Fin 7) (s : State) : Host.Outcome State Fault Refusal :=
  onDev s (fun d =>
    let k := cause.val
    if k = 4 ∧ d.get (Reg.lineRxState c) = 2 ∧ 5 ≤ (d.rx.at c).stage ∧ d.get (Reg.lineRxClockState c) = 0 then d.takeSeq.set (Reg.lineRxClockState c) 1
    else if !bitAt (d.get (Reg.lineRxCauses c)) k then d
    else if k = 0 ∨ k = 1 then d.takeSeq.clearRxCause c k
    else if k = 2 then (if d.loReady c then d.takeSeq.clearRxCause c 2 else d)
    else if k = 4 then (d.takeSeq.set (Reg.lineRxClockState c) 1).clearRxCause c 4
    else d)

/-! ### Dispersion, frequency and clock while they track (R80, R81) -/

/-- The standard deviation of estimates in 0.1 ps/nm, in whole ps/nm, rounded down. -/
def deviationOf (l : List Int) : Nat :=
  let n : Int := l.length
  if n = 0 then 0
  else
    let s := l.foldl (· + ·) 0
    let q := l.foldl (fun a x => a + x * x) 0
    Nat.sqrt ((n * q - s * s) / (n * n * 100)).toNat

/-- The compensation moves by at most 0.5 ps/nm towards an estimate (units of 0.1 ps/nm), within the limits of the search; LINE_RX_CD_SD is the standard
deviation of the last 100 estimates (R81). -/
def Device.trackCd (d : Device) (c : Nat) (estimate : Int) : Device :=
  let r := d.rx.at c
  let x := r.cdEstimate + clampInt (-5) 5 (estimate - r.cdEstimate)
  let x := clampInt (d.getI (Reg.lineRxCdMin c) * 10) (d.getI (Reg.lineRxCdMax c) * 10) x
  let l := (estimate :: r.estimates).take 100
  let d := { d with rx := d.rx.put c { r with cdEstimate := x, estimates := l } }
  (d.setI (Reg.lineRxCd c) ((x + 5) / 10)).set (Reg.lineRxCdSd c) (min (deviationOf l) 0xFFFF)

/-- The frequency offset (MHz) follows a drift of at most 1 GHz/s, 10 MHz in 10 ms, within ±4.0 GHz, once it has been estimated (Table 4.6). -/
def Device.trackFreq (d : Device) (c : Nat) (mhz : Int) : Device :=
  let f := d.getI (Reg.lineRxFreqOffset c)
  if 4 ≤ (d.rx.at c).stage then d.setI (Reg.lineRxFreqOffset c) (clampInt (-4000) 4000 (clampInt (f - 10) (f + 10) mhz)) else d

/-- The clock offset (0.001 ppm) is followed within ±200 ppm while clock recovery is Locked (Table 4.6). -/
def Device.trackClock (d : Device) (c : Nat) (offset : Int) : Device :=
  if d.get (Reg.lineRxClockState c) = 1 then d.setI (Reg.lineRxClockOffset c) (clampInt (-200000) 200000 offset) else d

/-- CD_TRACK_UPDATE: every 10 ms the dispersion, the frequency offset and the clock offset follow their estimates (R80, R81). -/
def execCdTrackUpdate (c : CarrierNo) (estimate freq clock : Int) (s : State) : Host.Outcome State Fault Refusal :=
  onDev s (fun d =>
    if d.get (Reg.lineRxCdState c) ≠ 3 ∨ d.get (Reg.lineRxState c) = 0 ∨ d.get (Reg.lineRxState c) = 4 then d
    else ((d.trackCd c estimate).trackFreq c freq).trackClock c clock)

/-! ### Equaliser states (Table 4.7) -/

/-- The state an equaliser leaves for at the end of a window: decision SNR in 0.01 dB, SER in 10^-4, the reinit condition. -/
def eqNext (st : Nat) (snr : Int) (ser : Nat) (reinit : Bool) (dfeTaps dfeOn dfeOff : Nat) : Nat :=
  if st = 5 then 1
  else if reinit ∧ (st = 1 ∨ st = 2 ∨ st = 3) then 5
  else if st = 1 then (if 600 ≤ snr then 2 else 1)
  else if st = 2 then (if snr < 300 then 1 else if 0 < dfeTaps ∧ ser ≤ dfeOn then 3 else 2)
  else if st = 3 then (if dfeOff < ser then 2 else 3)
  else st

/-- EQ_STATE_WINDOW: a symbol window of a subcarrier's equaliser ends (R84). A subcarrier decided on again is not lost (R147); the last of its group starts
the group's soft decisions (R137). -/
def execEqStateWindow (c : CarrierNo) (sc : ScNo) (snr : Int) (ser : Nat) (reinit : Bool) (s : State) : Host.Outcome State Fault Refusal :=
  onDev s (fun d =>
    let st := d.get (Reg.lineRxEqState c sc)
    if d.get (Reg.lineRxState c) = 0 ∨ d.get (Reg.lineRxLoad c sc) = 0 then d
    else
      let n := eqNext st snr ser reinit (d.get (Reg.lineEqDfeTaps c)) (d.get (Reg.lineEqDfeOn c)) (d.get (Reg.lineEqDfeOff c))
      if n = st then d
      else
        let d := d.setEq c sc n
        if n = 2 ∨ n = 3 then (d.setBit (Reg.frmScLost c) sc false).groupStart c (d.groupOfSc c sc) else d)

/-- Effect of a write of LINE_EQ_FREEZE: set, every equaliser freezes; cleared, each returns to the state it held (Table 4.7). While
Lost they stay frozen. -/
def applyEqFreeze (c v : Nat) (d : Device) : Device :=
  let d := d.putValue (Reg.lineEqFreeze c) v
  if v = 1 then d.each (List.range 16) (fun k x => x.freezeEq c k)
  else if d.get (Reg.lineRxState c) = 4 then d
  else
    d.each (List.range 16) (fun k x =>
      if x.get (Reg.lineRxEqState c k) = 4 then
        let held := tblGetD (x.rx.at c).frozenFrom k 0
        x.setEq c k (if held = 0 ∧ x.get (Reg.lineRxLoad c k) ≠ 0 ∧ x.clockRuns c = true then 1 else held)
      else x)

/-! ### Phase slips and quadrants (R88) -/

/-- PHASE_SLIP_SUSPECT: the subcarrier's quadrant is to be resolved again on its next codeword. -/
def execPhaseSlipSuspect (c : CarrierNo) (sc : ScNo) (s : State) : Host.Outcome State Fault Refusal :=
  onDev s (fun d =>
    let r := d.rx.at c
    let st := d.get (Reg.lineRxEqState c sc)
    if r.stage < 6 ∨ (st ≠ 2 ∧ st ≠ 3) ∨ r.suspect.contains sc.val then d
    else { d with rx := d.rx.put c { r with suspect := r.suspect ++ [sc.val] } })

/-- The subcarriers whose quadrant waits for resolution, ascending: suspected slips, and at stage 6 every active one not resolved. Delineation of the group
comes first (R79). -/
def Device.quadrantsWaiting (d : Device) (c : Nat) : List Nat :=
  let r := d.rx.at c
  (List.range 16).filter (fun k => decide (2 ≤ d.get (Reg.frmAlignState c (d.groupOfSc c k))) &&
    (r.suspect.contains k || ((r.stage == 6 || d.on (Reg.hubEnable c)) && (d.activeScs c).contains k && !r.resolved.contains k)))

/-- A subcarrier's symbols are turned by q quarter turns from now on. -/
def Device.turned (d : Device) (c sc q : Nat) : Device :=
  { d with rx := d.rx.put c { d.rx.at c with turns := tblSet (d.rx.at c).turns sc q 0 } }

/-- The parity checks that a group's codeword leaves unsatisfied on its demapped decisions, after `skip` ratios; none where the word is not whole. -/
def Device.wordUnsatisfied (d : Device) (c g skip : Nat) : Option Nat :=
  let rs := (d.rxg c g).ratios.drop skip
  let place := (rs.head?.map (·.2.2)).getD 0
  let n := d.ratiosNeeded c g place
  if n = 0 ∨ rs.length < n then none else some (leftAfter (d.overhead c) (d.wordCodes c g) place ((rs.take n).map (·.1)) 0)

/-- The first of the rotations 0 to 3 that leaves the fewest unsatisfied checks on the next codeword of the subcarrier's group to begin in the samples (R88). -/
def Device.bestTurn (d : Device) (c sc : Nat) (samples : List (Nat × List Sym)) : Option Nat :=
  let g := d.groupOfSc c sc
  let old := (d.rxg c g).ratios
  let skip := if old.isEmpty then 0 else d.ratiosNeeded c g ((old.head?.map (·.2.2)).getD 0)
  let tries := (List.range 4).filterMap (fun q => (((d.turned c sc q).demap c samples).wordUnsatisfied c g skip).map (fun u => (q, u)))
  (sortBy (fun a b => decide (a.2 < b.2)) tries).head?.map (·.1)

/-- The static offset a subcarrier keeps beside the phase that all follow: its own best phase at its first new symbol, less the common one (R87). -/
def Device.staticOffset (d : Device) (c sc : Nat) (samples : List (Nat × List Sym)) : Int :=
  let half := d.get (Reg.lineRxCprHalf c)
  let own (p : PhaseIn) : PhaseIn := if p.sc = sc then { p with offset := 0 } else p
  let ps := (d.phaseIn c samples).map own
  if !d.on (Reg.lineRxCprJoint c) then 0
  else
    match ps.find? (fun p => p.sc == sc) with
    | some p => ((bestPhase half [p] half : Int) - bestPhase half ps half + 16) % 32 - 16
    | none => 0

/-- QUADRANT_RESOLVED: the lowest waiting subcarrier is resolved on the next codeword of its group, whose symbols `samples` holds with those before it that are
not yet demapped; after a suspected slip it is counted (R88). -/
def execQuadrantResolved (c : CarrierNo) (sc : ScNo) (samples : List (Nat × List Sym)) (s : State) : Host.Outcome State Fault Refusal :=
  onDev s (fun d =>
    if (d.quadrantsWaiting c).head? ≠ some sc.val then d
    else
      let r := d.rx.at c
      let d' := { d with rx := d.rx.put c { r with offset := tblSet r.offset sc (d.staticOffset c sc samples) 0 } }
      match d'.bestTurn c sc samples with
      | none => d
      | some q =>
        let slip := r.suspect.contains sc.val
        let d := (d'.turned c sc q).demap c samples
        let r := d.rx.at c
        let d := { d with rx := d.rx.put c { r with suspect := r.suspect.filter (· != sc.val), resolved := sc.val :: r.resolved.filter (· != sc.val) } }
        if slip then d.bump (Reg.lineRxSlips c sc) else d)

/-! ### SNR windows (R90, R94) -/

/-- SNR_WINDOW_END: a window that lay wholly in Decision-directed or DFE is Valid and reported; the candidate code is published, and
in automatic mode a subcarrier below its threshold is due for a downgrade (R94). On a hub carrier no negotiation runs (R151). -/
def execSnrWindowEnd (c : CarrierNo) (sc : ScNo) (snr : BitVec 16) (meas : RxMeas) (s : State) : Host.Outcome State Fault Refusal :=
  onDev s (fun d =>
    let st := d.get (Reg.lineRxEqState c sc)
    if st ≠ 2 ∧ st ≠ 3 then d
    else
      let d := (d.takeSeq.adcLevels c meas.rms meas.clips).set (Reg.lineRxSnr c sc) snr.toNat
      let d := (d.set (Reg.lineRxDgd c) meas.dgd).set (Reg.lineRxPdl c) meas.pdl
      let d := d.set (Reg.lineLoadCandidate c sc) (d.rule c sc 0)
      let d := { d with rx := d.rx.put c { d.rx.at c with lastSnr := tblPut (d.rx.at c).lastSnr sc snr.toNat } }
      let lc := d.loadCarrier c
      if d.on (Reg.hubEnable c) ∨ d.get (Reg.lineLoadMode lc) ≠ 1 then d
      else
        if d.dueDown c sc then
          let r := d.rx.at lc
          ({ d with rx := d.rx.put lc { r with dueDown := [16 * c.val + sc.val] } }).propose lc (d.extraDue lc)
        else d)

end Sys2Proof.Machine
end

