-- ==== Sys2Proof/Machine/Optics.lean ====
section
/-! DEFINITION. Lasers, the driver and TIA SPI master, the modulator bias loops (chapter 03, R49 to R60). -/

namespace Sys2Proof.Machine

/-! ### Transfer lists (R55) -/

/-- The records of a transfer list are well formed: 8 bytes each, chip select 0 to 7, flags bit [0] only, at most n records. -/
def aspiListOk (n : Nat) (bs : List Nat) : Bool :=
  bs.length % 8 == 0 && decide (bs.length / 8 ≤ n) &&
    (recordsOf 8 bs).all (fun r => decide (bits r 63 56 ≤ 7 ∧ bits r 55 48 ≤ 1))

/-- A host list has not finished: it runs, or its remainder waits. -/
def Aspi.hostBusy (a : Aspi) : Bool := (a.running.toList ++ a.waiting).any (fun r => r.kind == 0)

/-- A host transfer list: run in order, behind a safe-state or resume list that runs; refused before an earlier host list has finished, and
counted when refused (R55, LINE_ASPI_ERRORS). -/
def applyAspiXfer (bs : List Nat) (d : Device) : Device × Reply :=
  if !aspiListOk 256 bs then (d.bump Reg.lineAspiErrors, .fail (err stInvalidValue))
  else if d.aspi.hostBusy then (d.bump Reg.lineAspiErrors, .fail (errObj stInUse Reg.lineAspiXfer.ref))
  else ((d.setDom Reg.lineAspiXfer.ref bs).aspiRun ⟨0, 2, recordsOf 8 bs, []⟩, .ok [])

/-- LINE_ASPI_XFER: a host transfer list written by BLOCK (R55). -/
def execLineAspiXfer (q : Req) (crc : BitVec 32) (s : State) : Host.Outcome State Fault Refusal :=
  onDev s (fun d => d.serve q 5 1 true Reg.lineAspiXfer.ref (fun _ d => d.takeBlock q Reg.lineAspiXfer.ref crc.toNat applyAspiXfer))

/-- A list is done: a host list leaves its records with the words read as the value of LINE_ASPI_XFER; after a resume list the
carrier's lasers are enabled (R55, R56). -/
def Device.aspiDone (d : Device) (r : AspiRun) : Device :=
  if r.kind = 0 then (d.setDom Reg.lineAspiXfer.ref (r.finished.flatMap (beBytes 8))).notice Reg.lineAspiXfer [r.finished.length]
  else if r.kind = 2 ∧ r.carrier < 2 ∧ d.get (Reg.lineTxState r.carrier) ≠ 0 ∧ !(d.tx.at r.carrier).laserOff then
    d.each (d.itlaPorts r.carrier 0) (fun n x => x.enableLaser n)
  else d

/-- The master takes the next list that waits. -/
def Device.aspiNext (d : Device) : Device :=
  match d.aspi.waiting with
  | [] => { d with aspi := { d.aspi with running := none } }
  | r :: w => ({ d with aspi := { d.aspi with running := none, waiting := w } }).aspiStart r

/-- ASPI_TRANSFER_DONE: the transfer in progress and its delay end with the word read, of the chip select's word length; a waiting safe-state or resume list goes
before the rest of a host list; between transfers a gap of the core is waited for (R55, R56, R67). -/
def execAspiTransferDone (word : BitVec 32) (s : State) : Host.Outcome State Fault Refusal :=
  onDev s (fun d =>
    let d := d.afterGap
    match d.aspi.running with
    | none => d
    | some r =>
      match r.todo with
      | [] => d.aspiNext
      | x :: rest =>
        let y := if bitAt x 48 then x / 2 ^ 32 * 2 ^ 32 + word.toNat % 2 ^ d.aspi.len else x
        let r := { r with todo := rest, finished := r.finished ++ [y] }
        if rest.isEmpty then (d.aspiDone r).aspiNext
        else if r.kind = 0 ∧ d.aspi.waiting.any (fun w => w.kind != 0) then
          ({ d with aspi := { d.aspi with waiting := d.aspi.waiting ++ [r] } }).aspiNext
        else d.aspiStart r)

/-! ### Lasers (R49 to R52) -/

/-- Effect of a write of LINE_ITLA_USE (R50, R66, R504): the use; a Faulted port leaves Faulted; a laser that transmits for a carrier that is
on, or is the local oscillator of one that the host has enabled, is enabled; ITLAn_DIS_N of any other is low. -/
def applyItlaUse (n v : Nat) (d : Device) : Device :=
  let c := d.get (Reg.lineItlaCarrier n)
  let d := d.putValue (Reg.lineItlaUse n) v
  let d := d.putPort n { d.port n with queue := [], out := none, retries := 0, pendingOp := false, alarm := false, settled := false }
  let d := d.set (Reg.lineItlaState n) 0
  let txOn := d.get (Reg.lineTxState c) != 0
  let on := if bitAt v 0 then txOn && !(d.tx.at c).laserOff else v == 2 && (txOn || d.get (Reg.lineRxEnable c) == 1)
  let d := if on then d.enableLaser n
    else if (d.port n).disHigh then (d.disableLaser n).set (Reg.lineItlaState n) (if v = 0 then 0 else 4) else d
  d.followLo.followLasers

/-- LINE_ITLA_USE (R50). -/
def execLineItlaUse (q : Req) (port : Fin 4) (v : Val) (s : State) : Host.Outcome State Fault Refusal :=
  onDev s (fun d => d.serve q 2 1 true (Reg.lineItlaUse port).ref (fun _ d =>
    d.plainWriteR (Reg.lineItlaUse port) (.span 0 3) q v (fun d =>
      d.withhold q (Reg.lineItlaUse port).ref (applyItlaUse port v.raw d, okWrite))))

/-- LINE_ITLA_RAW: one raw command joins the port's queue (R49, R50). -/
def execLineItlaRaw (q : Req) (port : Fin 4) (v : Val) (s : State) : Host.Outcome State Fault Refusal :=
  onDev s (fun d => d.serve q 2 1 true (Reg.lineItlaRaw port).ref (fun _ d =>
    d.plainWriteR (Reg.lineItlaRaw port) .any q v (fun d =>
      d.withhold q (Reg.lineItlaRaw port).ref (d.itlaPush port (.raw v.raw), okWrite))))

/-- The laser's state after a response that completes a command (LINE_ITLA_STATE: 1 tuning, 2 ready): an enabled laser is ready when it says so
and no further change of it waits. -/
def Device.laserState (d : Device) (n : Nat) (a : ItlaAnswer) : Device :=
  let st := d.get (Reg.lineItlaState n)
  if st = 3 ∨ st = 4 then d
  else if a.pending then d.set (Reg.lineItlaState n) 1
  else if a.ready ∧ (d.port n).disHigh ∧ !(d.port n).queue.any itlaChanges then d.set (Reg.lineItlaState n) 2
  else d

/-- What a response means for the transaction it answers (R49 to R51). -/
def Device.itlaAnswered (d : Device) (n : Nat) (c : ItlaCmd) (a : ItlaAnswer) : Device :=
  let p := d.port n
  match c with
  | .raw _ => d.set (Reg.lineItlaRaw n) a.value.toNat
  | .readBaud => if a.baudOk then d.putPort n { p with queue := p.queue ++ [.setBaud (d.get (Reg.lineItlaBaud n))] } else d
  | .setBaud r => d.putPort n { p with baud := r }
  | .disable => d
  | .pollStatus => (d.putPort n { p with settled := a.settled, alarm := a.alarm }).laserState n a
  | .pollPending => (d.putPort n { p with pendingOp := a.pending }).laserState n a
  | .setFreq _ => (d.putPort n { p with pendingOp := a.pending }).laserState n a
  | .setPower _ => (d.putPort n { p with pendingOp := a.pending }).laserState n a
  | .setFtf _ => (d.putPort n { p with pendingOp := a.pending }).laserState n a
  | .enable => (d.putPort n { p with pendingOp := a.pending, settled := a.settled }).laserState n a

/-- The outstanding transaction c has no valid response: counted; sent again twice, then the port is Faulted (R50). -/
def Device.itlaFailed (d : Device) (n : Nat) (c : ItlaCmd) : Device :=
  let p := d.port n
  let d := d.bump (Reg.lineItlaErrors n)
  if p.retries < 2 then
    ((d.putPort n { p with retries := p.retries + 1 }).bump (Reg.lineItlaErrors n)).send (.itla n c)
  else (d.faultPort n).followLo.followLasers

/-- ITLA_RESPONSE: a valid response ends the outstanding transaction and the next one starts; one whose checksum is wrong is no valid response
(R49, R50). -/
def execItlaResponse (port : Fin 4) (answer : ItlaAnswer) (s : State) : Host.Outcome State Fault Refusal :=
  onDev s (fun d =>
    match (d.port port).out with
    | none => d
    | some c =>
      if answer.valid then
        let d := d.takeSeq.putPort port { d.port port with out := none, retries := 0 }
        ((d.itlaAnswered port c answer).itlaNext port).followLo.followLasers
      else d.takeSeq.itlaFailed port c)

/-- ITLA_RESPONSE_TIMEOUT: no response within 10 ms (R50). Stale when the response came first (R32). -/
def execItlaResponseTimeout (port : Fin 4) (s : State) : Host.Outcome State Fault Refusal :=
  onDev s (fun d =>
    if d.dead then d
    else
      match (d.port port).out with
      | none => d.takeSeq.stale
      | some c => d.takeSeq.itlaFailed port c)

/-- ITLA_PENDING_POLL: a pending operation is polled every 10 ms (R51). Stale when none is pending. -/
def execItlaPendingPoll (port : Fin 4) (s : State) : Host.Outcome State Fault Refusal :=
  onDev s (fun d =>
    if d.dead then d
    else if (d.port port).pendingOp then d.coreSeq.itlaPush port .pollPending else d.coreSeq.stale)

/-- ITLA_TUNE_LIMIT_EXPIRY: a pending operation beyond LINE_ITLA_TUNE_LIMIT faults the port (R51). -/
def execItlaTuneLimitExpiry (port : Fin 4) (s : State) : Host.Outcome State Fault Refusal :=
  onDev s (fun d =>
    if d.dead then d
    else if (d.port port).pendingOp then (d.takeSeq.faultPort port).followLo.followLasers else d.takeSeq.stale)

/-- Polls a laser's status unless its port is unused or Faulted. -/
def Device.pollLaser (d : Device) (n : Nat) : Device :=
  if d.get (Reg.lineItlaUse n) = 0 ∨ d.get (Reg.lineItlaState n) = 3 then d else d.itlaPush n .pollStatus

/-- ITLA_STATUS_POLL: laser status every 100 ms (R51). -/
def execItlaStatusPoll (port : Fin 4) (s : State) : Host.Outcome State Fault Refusal :=
  onDev s (fun d => if d.dead then d else d.coreSeq.pollLaser port)

/-- ITLA_SRQ: ITLAn_SRQ_N going low polls the status at once (R51). -/
def execItlaSrq (port : Fin 4) (s : State) : Host.Outcome State Fault Refusal :=
  onDev s (fun d => if d.dead then d else d.coreSeq.pollLaser port)

/-! ### Bias loops (R57 to R60) -/

/-- Why a write of LINE_BIAS_MODE is refused: closing needs a monitor channel that no one else owns (R60, R390). -/
def biasModeCheck (n v : Nat) (d : Device) : Option Err :=
  if v = 1 then
    let ch := d.get (Reg.lineBiasMon n)
    if ch = 255 then some (err stInvalidCombination) else d.claimCheck ch (ownerLoop n)
  else none

/-- The status of a loop becomes v: a change is an event (R58). -/
def Device.setLoopStatus (d : Device) (n v : Nat) : Device :=
  let old := d.get (Reg.lineBiasStatus n)
  if old = v then d else (d.set (Reg.lineBiasStatus n) v).takeSeq.notice (Reg.lineBiasStatus n) [old, v]

/-- The code of a loop equals its minimum or its maximum. -/
def Device.atLimit (d : Device) (n : Nat) : Bool :=
  d.get (Reg.lineBiasCode n) == d.get (Reg.lineBiasMin n) || d.get (Reg.lineBiasCode n) == d.get (Reg.lineBiasMax n)

/-- A closed loop is At limit while its code equals its minimum or its maximum; else it acquires after a limit has moved off its code (R58). -/
def Device.limitFollow (d : Device) (n : Nat) : Device :=
  if d.get (Reg.lineBiasMode n) ≠ 1 then d
  else if d.atLimit n then d.setLoopStatus n 3
  else if d.get (Reg.lineBiasStatus n) = 3 then d.setLoopStatus n 1
  else d

/-- A loop closes: it owns its channel and acquires, or is At limit (R58, R60). -/
def Device.biasClose (d : Device) (n : Nat) : Device :=
  (d.set (Reg.monChOwner (d.get (Reg.lineBiasMon n))) (ownerLoop n)).setLoopStatus n (if d.atLimit n then 3 else 1)

/-- The consecutive good visits of a loop start again. -/
def Device.biasRestart (d : Device) (n : Nat) : Device :=
  { d with bias := { d.bias with within := tblDel d.bias.within n } }

/-- Effect of a write of LINE_BIAS_MODE: the loop opens, closes or holds; a closed loop owns its channel and acquires. -/
def applyBiasMode (n v : Nat) (d : Device) : Device :=
  let d := ((d.putValue (Reg.lineBiasMode n) v).releaseOwner (ownerLoop n)).biasRestart n
  if v = 1 then d.biasClose n else d.setLoopStatus n 0

/-- LINE_BIAS_MODE (R60). -/
def execLineBiasMode (q : Req) (loop : Fin 12) (v : Val) (s : State) : Host.Outcome State Fault Refusal :=
  onDev s (fun d => d.serve q 2 1 true (Reg.lineBiasMode loop).ref (fun _ d =>
    d.plainWriteR (Reg.lineBiasMode loop) (.span 0 2) q v (fun d =>
      match biasModeCheck loop v.raw d with
      | some e => (d, .fail e)
      | none => d.withhold q (Reg.lineBiasMode loop).ref (applyBiasMode loop v.raw d, okWrite))))

/-- BIAS_DITHER_PERIOD_END: of the 32 conversions of each half period the last 28 count: d = mean high − mean low, held as the difference of
the sums (R57). A period without its 64 conversions had one delayed past its end: it is discarded, repeated and counted (R59). -/
def execBiasDitherPeriodEnd (s : State) : Host.Outcome State Fault Refusal :=
  onDev s (fun d =>
    match d.bias.visited with
    | none => d
    | some n =>
      if d.mon.work ≠ .visit ∧ d.mon.held ≠ .visit then d
      else
        let l := d.bias.conv
        let e := { d with bias := { d.bias with conv := [] } }
        (if l.length < 64 then e.bump Reg.lineBiasRepeats
        else
          let x := ((l.take 32).drop 4).foldl (· + ·) 0 - ((l.drop 32).drop 4).foldl (· + ·) 0
          { e with bias := { e.bias with ds := e.bias.ds ++ [x] } }).driveBias d [n])

/-- The status of a loop after a visit (R58): At limit at its minimum or maximum code; Locked after 3 consecutive visits within
the window; back to Acquiring beyond 4 windows. -/
def biasStatus (code lo hi win : Nat) (e : Int) (within old : Nat) : Nat :=
  if code = lo ∨ code = hi then 3
  else if e.natAbs ≤ win ∧ 3 ≤ within then 2
  else if 4 * win < e.natAbs then 1
  else if old = 2 then 2
  else 1

/-- BIAS_VISIT_END: after LINE_BIAS_PERIODS periods the error, the step, the code and the status are computed and the next
closed loop is visited (R57, R58). -/
def execBiasVisitEnd (s : State) : Host.Outcome State Fault Refusal :=
  onDev s (fun d =>
    let d := d.afterGap
    match d.bias.visited with
    | none => d
    | some n =>
      let p := d.get Reg.lineBiasPeriods
      if d.bias.ds.length < p then d
      else
        let sum := (d.bias.ds.take p).foldl (· + ·) 0
        let den := 28 * p
        let e := roundInt (sum - d.getI (Reg.lineBiasSetpoint n) * den) den
        let slope : Int := if d.get (Reg.lineBiasSlope n) = 0 then 1 else -1
        let step := clampInt (-1024) 1024 (roundInt (slope * (sum - d.getI (Reg.lineBiasSetpoint n) * den) * d.get (Reg.lineBiasGain n)) (1024 * den))
        let lo := d.get (Reg.lineBiasMin n)
        let hi := d.get (Reg.lineBiasMax n)
        let code := (clampInt lo hi ((d.get (Reg.lineBiasCode n) : Int) - step)).toNat
        let win := d.get (Reg.lineBiasLockwin n)
        let within := if e.natAbs ≤ win then tblGetD d.bias.within n 0 + 1 else 0
        let new := biasStatus code lo hi win e within (d.get (Reg.lineBiasStatus n))
        let x := (d.setI (Reg.lineBiasError n) e).set (Reg.lineBiasCode n) code
        let x := { x with bias := ⟨x.loopAfter n, [], [], tblPut x.bias.within n within⟩ }
        let x := x.set Reg.lineBiasRound (1250 * p * x.closedLoops.length)
        let x := x.visitEnds.driveBias d (n :: (x.loopAfter n).toList)
        x.setLoopStatus n new)

end Sys2Proof.Machine
end

