-- ==== Sys2Proof/Machine/Monitor.lean ====
section
/-! DEFINITION. The monitor converter (chapter 16, R384 to R395): results, the reference, self-calibration, sequences. -/

namespace Sys2Proof.Machine

/-- A result of a step: discarded while unsettled, then added (R392). -/
def SeqRun.take (r : SeqRun) (code : Int) (ovr : Bool) : SeqRun :=
  if 0 < r.discard then { r with discard := r.discard - 1 }
  else { r with sum := r.sum + code, taken := r.taken + 1, ovr := r.ovr || ovr }

/-- MON_RESULT: the result, as the modulator's filter gives it, goes with the corrections in force to the work in progress; at its boundary a queued self-calibration starts, unless the step in progress has all its
results, which SEQ_STEP_DONE completes (R391). -/
def execMonResult (code : Int) (ovr : Bool) (s : State) : Host.Outcome State Fault Refusal :=
  onDev s (fun d =>
    if d.get Reg.monRefState ≠ 2 then d
    else
      let raw := clampCode code
      let code := d.corrected raw
      match d.mon.work with
      | .idle => d.choose .idle
      | .selfCal =>
        let d := { d with mon := { d.mon with calConv := (d.mon.calConv ++ [raw]).take 44 } }
        if ovr then d.bump Reg.monOvrCount else d
      | .visit =>
        let d := match d.bias.visited with
          | some n =>
            let e := d.result (d.get (Reg.lineBiasMon n) % 32) code ovr
            ({ e with bias := { e.bias with conv := (e.bias.conv ++ [code]).take 64 } }).driveBias d [n]
          | none => d
        d.choose .visit
      | .seq k =>
        match d.seqRun? k with
        | none => d.choose .idle
        | some r =>
          let w := (d.seqSteps k).getD r.step 0
          if stepCount w ≤ r.taken then d
          else
            let d := d.result (stepChan w % 32) code ovr
            let r := r.take code ovr
            let d := d.putSeq k r
            if stepCount w ≤ r.taken ∨ d.mon.calQueued = false then d else d.choose (.seq k))

/-! ### Reference (R389) -/

/-- MON_REF_READY: 2 ms after the enable the reference is ready; the first time since reset a self-calibration is queued (R395); waiting work may
start. -/
def execMonRefReady (s : State) : Host.Outcome State Fault Refusal :=
  onDev s (fun d =>
    if d.phase = .reset then d
    else
      let d := d.takeSeq
      if d.get Reg.monRefState = 1 then
        let first := !d.mon.refSeen
        let d := { d with mon := { d.mon with refSeen := true } }.set Reg.monRefState 2
        if first then d.requestSelfCal.workWaits else d.workWaits
      else d.stale)

/-- Who holds the converter against MON_REF_ENABLE = 0: the owner of a channel, or a calibration queued or running. -/
def Device.refHolder (d : Device) : Option Nat :=
  match (List.range 32).find? (fun ch => d.get (Reg.monChOwner ch) != 0) with
  | some ch => some (ownerRef (d.get (Reg.monChOwner ch)))
  | none => if d.mon.calQueued || d.mon.work == .selfCal then some Reg.monCalState.ref else none

/-- Why MON_REF_ENABLE written v is refused. -/
def refEnableCheck (v : Nat) (d : Device) : Option Err :=
  if v = 0 then d.refHolder.map (errObj stInUse) else none

/-- Effect of MON_REF_ENABLE. -/
def applyRefEnable (v : Nat) (d : Device) : Device :=
  let d := d.putValue Reg.monRefEnable v
  if v = 0 then d.set Reg.monRefState 0 else if d.get Reg.monRefState = 0 then d.set Reg.monRefState 1 else d

/-- MON_REF_ENABLE. -/
def execMonRefEnable (q : Req) (v : Val) (s : State) : Host.Outcome State Fault Refusal :=
  onDev s (fun d => d.serve q 2 1 true Reg.monRefEnable.ref (fun _ d =>
    d.plainWrite Reg.monRefEnable q v (fun d =>
      match refEnableCheck v.raw d with
      | some e => (d, .fail e)
      | none => (applyRefEnable v.raw d, okWrite))))

/-! ### Self-calibration (R394, R395) -/

/-- MON_CAL_START written v: 1 queues a self-calibration. -/
def applyCalStart (v : Nat) (d : Device) : Device := if v = 1 then d.requestSelfCal else d

/-- MON_CAL_START. -/
def execMonCalStart (q : Req) (v : Val) (s : State) : Host.Outcome State Fault Refusal :=
  onDev s (fun d => d.serve q 2 1 true Reg.monCalStart.ref (fun _ d =>
    d.plainWrite Reg.monCalStart q v (fun d => (applyCalStart v.raw d, okWrite))))

/-- MON_SELF_CAL_DONE: the run has its 44 results; its offset and gain apply from the next result on; it is counted, its end kept, and the converter takes up the
interrupted work, a further queued run first (R391, R394, R395). -/
def execMonSelfCalDone (delays : List Int) (s : State) : Host.Outcome State Fault Refusal :=
  onDev s (fun d =>
    match d.mon.work with
    | .selfCal =>
      if d.mon.calConv.length < 44 then d
      else
      let x := d.calFound d.mon.calConv
      let d := (((d.takeSeq.setI Reg.monCalOffset x.1).setI Reg.monCalGain x.2).bump Reg.monCalRuns).set Reg.monCalLast (fuToTime96 d.now)
      let d := (d.measured delays).set Reg.monCalState (if d.mon.calQueued then 1 else 3)
      d.choose d.mon.held
    | _ => d)

/-! ### Sequences (R392, R393) -/

/-- A word of MON_SEQ_STEPS is a step. -/
def stepValid (w : Nat) : Bool :=
  decide (stepChan w ≤ 31 ∧ stepOrder w ≠ 3 ∧ 250 ≤ stepDec w ∧ stepDec w ≤ 1280000 ∧ 1 ≤ stepCount w)

/-- The first channel of a list that another owner holds. -/
def Device.claimAll (d : Device) (owner : Nat) : List Nat → Option Err
  | [] => none
  | ch :: r => match d.claimCheck ch owner with
    | some e => some e
    | none => d.claimAll owner r

/-- MON_SEQ_STEPS written by BLOCK: up to 16 valid steps, not while the sequence runs; the sequence owns their channels (R390, R392). -/
def writeSeqSteps (k : Nat) (bs : List Nat) (d : Device) : Device × Reply :=
  let l := recordsOf 8 bs
  if (d.seqRun? k).isSome then (d, .fail (err stNotPermitted))
  else if bs.length % 8 ≠ 0 ∨ 128 < bs.length ∨ !l.all stepValid then (d, .fail (err stInvalidValue))
  else
    match d.claimAll (ownerSeq k) (l.map stepChan) with
    | some e => (d, .fail e)
    | none =>
      let d := (d.releaseOwner (ownerSeq k)).putDomain (Reg.monSeqSteps k).ref (l.flatMap (fun w => beBytes 8 (clearBits (clearBits w 53 48) 15 0)))
      (d.each l (fun w x => x.set (Reg.monChOwner (stepChan w)) (ownerSeq k)), .ok [])

/-- MON_SEQ_STEPS. -/
def execMonSeqSteps (q : Req) (k : Fin 8) (crc : BitVec 32) (s : State) : Host.Outcome State Fault Refusal :=
  onDev s (fun d => d.serve q 5 1 true (Reg.monSeqSteps k).ref (fun _ d => d.takeBlock q (Reg.monSeqSteps k).ref crc.toNat (writeSeqSteps k)))

/-- MON_SEQ_RUN_START: MON_SEQ_RUN written 1: an action (R393). -/
def execMonSeqRunStart (q : Req) (k : Fin 8) (s : State) : Host.Outcome State Fault Refusal :=
  onDev s (fun d => d.serve q 2 1 true (Reg.monSeqRun k).ref (fun _ d => d.actionWrite (Reg.monSeqRun k) q ⟨1, 1⟩ .calendar 0x0008 []))

/-- MON_SEQ_RUN_STOP: MON_SEQ_RUN written 0: an action, whose firing stops the sequence at the end of the step in progress (R393). -/
def execMonSeqRunStop (q : Req) (k : Fin 8) (s : State) : Host.Outcome State Fault Refusal :=
  onDev s (fun d => d.serve q 2 1 true (Reg.monSeqRun k).ref (fun _ d => d.actionWrite (Reg.monSeqRun k) q ⟨1, 0⟩ .calendar 0x0008 []))

/-- The sequence stops. -/
def Device.seqStopped (d : Device) (k : Nat) : Device :=
  { d with mon := { d.mon with seqs := tblDel d.mon.seqs k, queue := d.mon.queue.filter (· != k) } }.set (Reg.monSeqState k) 0

/-- A pass ends: its records in MON_SEQ_RESULTS, counted, noticed (R393). -/
def Device.passEnds (d : Device) (k : Nat) (records : List Nat) : Device :=
  let d := (d.setDom (Reg.monSeqResults k).ref (records.flatMap (beBytes 16))).bump (Reg.monSeqPasses k)
  d.notice (Reg.monSeqResults k) [d.get (Reg.monSeqPasses k)]

/-- A pass starts: its first step waits for the converter. A sequence without steps has a pass without records. -/
def Device.passStarts (d : Device) (k : Nat) : Device :=
  let empty := (d.seqSteps k).isEmpty
  let d := d.putSeq k ⟨d.now, !empty, 0, 0, 0, 0, false, false, [], false, false⟩
  let d := d.set (Reg.monSeqState k) 1
  if empty then
    let d := d.passEnds k []
    if d.get (Reg.monSeqPeriod k) = 0 then d.seqStopped k else d
  else { d with mon := { d.mon with queue := d.mon.queue.filter (· != k) ++ [k] } }.workWaits

/-- A start falls due: it starts a pass, or waits for the running pass to end, counted (R393). -/
def Device.passDue (d : Device) (k : Nat) : Device :=
  match d.seqRun? k with
  | some r => if r.inPass then (d.putSeq k { r with due := true }).bump (Reg.monSeqLate k) else d.passStarts k
  | none => d.passStarts k

/-- Effect of MON_SEQ_RUN = 0 when its action fires. A sequence with no step in progress stops at once. -/
def Device.seqStop (d : Device) (k : Nat) : Device :=
  match d.seqRun? k with
  | none => d
  | some r => if d.get (Reg.monSeqState k) = 2 ∨ d.get (Reg.monSeqState k) = 3 then d.putSeq k { r with stop := true } else d.seqStopped k

/-- Effect of MON_SEQ_RUN written v when its action or its bundle fires. -/
def applySeqRun (k v : Nat) (d : Device) : Device :=
  let d := d.putValue (Reg.monSeqRun k) v
  if v = 1 then d.passDue k else d.seqStop k

/-- SEQ_PASS_START: a pass starts as the action of MON_SEQ_RUN = 1 fires, or (handle 0) MON_SEQ_PERIOD after the last start (R393). -/
def execSeqPassStart (k : Fin 8) (handle : BitVec 32) (poison : Bool) (s : State) : Host.Outcome State Fault Refusal :=
  onDev s (fun d =>
    if d.dead then d
    else
      let d := d.takeSeq
      if handle = 0 then
        (match d.seqRun? k with
        | some r => if d.get (Reg.monSeqPeriod k) = 0 ∨ r.stop = true then d.stale else d.passDue k
        | none => d.stale)
      else d.fireOn handle.toNat 0x0008 (Reg.monSeqRun k).ref 1 poison (fun _ d => .ok (applySeqRun k 1 d)))

/-- What follows a step: a stop, the next step, or the end of the pass and the start that fell due in it. -/
def Device.afterStep (d : Device) (k : Nat) (r : SeqRun) : Device :=
  if r.stop then d.seqStopped k
  else if r.step + 1 < (d.seqSteps k).length then
    let d := d.putSeq k { r with step := r.step + 1, sum := 0, taken := 0, ovr := false, resumed := false }
    { d with mon := { d.mon with queue := d.mon.queue ++ [k] } }.set (Reg.monSeqState k) 1
  else
    let d := d.passEnds k r.records
    let d := d.putSeq k { r with inPass := false, records := [] }
    if r.due then d.passStarts k
    else if d.get (Reg.monSeqPeriod k) = 0 then d.seqStopped k
    else d.set (Reg.monSeqState k) 1

/-- SEQ_STEP_DONE: the step in progress has its COUNT settled results: their mean, rounded, is its record; the converter chooses its next work
(R391, R392). -/
def execSeqStepDone (k : Fin 8) (s : State) : Host.Outcome State Fault Refusal :=
  onDev s (fun d =>
    match d.mon.work, d.seqRun? k with
    | .seq j, some r =>
      let w := (d.seqSteps k).getD r.step 0
      if j ≠ k.val ∨ r.taken < stepCount w then d
      else
        let rec_ := resultWord d.now (roundInt r.sum r.taken) r.ovr r.resumed
        let d := d.coreSeq
        let d := d.afterStep k { r with records := r.records ++ [rec_] }
        d.choose .idle
    | _, _ => d)

/-! ### Die temperature (R395, R399) -/

/-- The die temperature has moved more than CAL_TEMP_STEP (0.1 °C) from a value (0.01 °C). From the value 0x8000, before any reading, every reading has. -/
def Device.tempMoved (d : Device) (from_ temp : Int) : Bool := decide (d.get Reg.calTempStep * 10 < (temp - from_).natAbs)

/-- DIE_TEMP_TRIGGER: CAL_DIE_TEMP takes a new value; a move beyond the step queues a self-calibration and, where enabled, line-path runs. -/
def execDieTempTrigger (temp : Int) (s : State) : Host.Outcome State Fault Refusal :=
  onDev s (fun d =>
    if d.dead then d
    else
      let d := d.coreSeq.setI Reg.calDieTemp temp
      let t := d.getI Reg.calDieTemp
      let d := match d.mon.calTemp with
        | some x => if d.tempMoved x t then d.requestSelfCal else d
        | none => d
      d.each [0, 1] (fun c x =>
        if x.tempMoved (x.getI (Reg.calTempLast c)) t then
          let y := if x.on (Reg.calRxEnable c) then x.requestRun c 1 else x
          if y.on (Reg.calTxEnable c) then y.requestRun c 2 else y
        else x))

end Sys2Proof.Machine
end

