-- ==== Sys2Proof/Machine/Calib.lean ====
section
/-! DEFINITION. Line-path calibration and the calibration set (chapter 16, R396 to R406). -/

namespace Sys2Proof.Machine

/-! ### Runs -/

/-- CAL_RUN written v: 1 starts a run of both directions (R399). -/
def applyCalRun (c v : Nat) (d : Device) : Device := if v = 1 then (d.requestRun c 1).requestRun c 2 else d

/-- CAL_RUN. -/
def execCalRun (q : Req) (c : CarrierNo) (v : Val) (s : State) : Host.Outcome State Fault Refusal :=
  onDev s (fun d => d.serve q 2 1 true (Reg.calRun c).ref (fun _ d =>
    d.plainWrite (Reg.calRun c) q v (fun d => (applyCalRun c v.raw d, okWrite))))

/-- CAL_ESTIMATE_DONE: a receive run in state Estimating has its targets; they ramp (R397, R398). The time-path delays are measured with it (R402). -/
def execCalEstimateDone (c : CarrierNo) (adc : AdcReport) (s : State) : Host.Outcome State Fault Refusal :=
  onDev s (fun d =>
    let x := d.calAt c
    if x.run = 1 ∧ d.get (Reg.calState c) = 2 then
      let d := ((d.coreSeq.adcLevels c adc.rms adc.clips).setI (Reg.lineRxAdcSpur c) adc.spur).measured adc.delays
      let d := d.putCal c { x with rxRamp := x.rxRamp.aim (rxTargets x.rxRamp.now adc.terms) }
      (d.set (Reg.lineRxAdcState c) 2).set (Reg.calState c) 3
    else d)

/-- An iteration of a transmit run begins with its settle wait, or the run has had its four (R401). -/
def Device.nextIteration (d : Device) (c : Nat) : Device :=
  let x := d.calAt c
  if x.iter < 4 then d.putCal c { x with iter := x.iter + 1, averaging := false, reports := [] } else d.endRun c

/-- CAL_RAMP_STEP: CAL_RAMP_MS after the last step a ramp takes the next of its 64. The end of a receive run's ramp ends the run; the end of a transmit
run's ramp ends its iteration (R398, R401). -/
def execCalRampStep (c : CarrierNo) (transmit : Bool) (s : State) : Host.Outcome State Fault Refusal :=
  onDev s (fun d =>
    let x := d.calAt c
    if d.dead then d
    else if transmit then
      if 64 ≤ x.txRamp.step then d
      else
        let r := x.txRamp.advance
        let d := d.putCal c { x with txRamp := r }
        let d := if x.run = 2 then d.each (r.now.take 8).zipIdx (fun e y => y.setI (txTerm c e.2) e.1) else d
        if r.step = 64 ∧ x.run = 2 then d.nextIteration c else d
    else if 64 ≤ x.rxRamp.step then d
    else
      let r := x.rxRamp.advance
      let d := (d.putCal c { x with rxRamp := r }).each (r.now.take 8).zipIdx (fun e y => y.setI (rxTerm c e.2) e.1)
      if r.step = 64 ∧ x.run = 1 ∧ d.get (Reg.calState c) = 3 then d.endRun c else d)

/-- A host write of a transmit skew or IQ term (R47, R398): calibration owns it while CAL_TX_ENABLE is 1. -/
def txTermCheck (c : Nat) (d : Device) : Option Err :=
  if d.on (Reg.calTxEnable c) then some (errObj stInUse (Reg.calTxEnable c).ref) else none

/-- Effect of such a write: the term ramps to the value. -/
def applyTxTerm (c k v : Nat) (d : Device) : Device :=
  let d := d.putValue (txTerm c k) v
  let x := d.calAt c
  d.putCal c { x with txRamp := x.txRamp.aim (x.txRamp.target.set k (d.getI (txTerm c k))) }

/-! ### Reports (R400, R401) -/

/-- The group whose frames carry CAL_REPORT: the lowest group of the carrier that has a non-zero code, as sent and as received. -/
def Device.txReportGroup (d : Device) (c : Nat) : Option Nat := (d.groups c).find? (fun g => decide (0 < d.txSlots c g))
def Device.rxReportGroup (d : Device) (c : Nat) : Option Nat := (d.groups c).find? (fun g => !d.rxEmpty c g)

/-- Every subcarrier with a non-zero code has its equaliser in Decision-directed (2) or DFE (3). -/
def Device.reportsValid (d : Device) (c : Nat) : Bool :=
  (List.range 16).all (fun k => d.get (Reg.lineRxLoad c k) == 0 || d.get (Reg.lineRxEqState c k) == 2 || d.get (Reg.lineRxEqState c k) == 3)

/-- A CAL_REPORT (Table 16.5). -/
def calWord (seq valid : Nat) (terms : List Int) : Nat :=
  0x41 * 2 ^ 504 + seq % 256 * 2 ^ 496 + valid * 2 ^ 488 + ofBytes ((List.range 8).flatMap (fun k => beBytes 2 (ofSigned 16 (terms.getD k 0)))) * 2 ^ 360

/-- CAL_REPORT_SEND: a Tracking receiver of a carrier not in hub mode reports the eight terms averaged over the last 10 ms in the next slot of block 15 of its
group; VALID only with every equaliser in a decided state throughout them. LINE_RX_FAR_TX_SKEW shows the skews sent. -/
def execCalReportSend (c : CarrierNo) (terms : List Int) (s : State) : Host.Outcome State Fault Refusal :=
  onDev s (fun d =>
    if d.on (Reg.hubEnable c) ∨ d.get (Reg.lineRxState c) ≠ 3 then d
    else
      match d.txReportGroup c with
      | none => d
      | some g =>
        let x := d.calAt c
        let valid := if d.reportsValid c && !x.unsteady then 3 else 0
        let d := d.coreSeq.putCal c { x with seq := (x.seq + 1) % 256, unsteady := false }
        let d := d.each (terms.take 4).zipIdx (fun e y => y.setI (Reg.lineRxFarTxSkew c e.2) e.1)
        (d.post c ⟨31, [g], false, 0, calWord x.seq valid terms⟩).send (.calReport c g x.seq valid (terms.take 8)))

/-- The averages of ten reports. -/
def reportMeans (l : List (List Int)) : List Int :=
  (List.range 8).map (fun k => roundInt (l.foldl (fun a r => a + r.getD k 0) 0) l.length)

/-- A field lies within its deadband: skew CAL_TX_DEADBAND, gain 0.005 dB, phase 0.05°. -/
def Device.inDeadband (d : Device) (k : Nat) (v : Int) : Bool :=
  decide (v.natAbs ≤ if k < 4 then d.get Reg.calTxDeadband else 5)

/-- Ten reports are in: shown; within the deadbands the run ends, else each field beyond its own ramps to its correction less the average (R401). -/
def Device.iterate (d : Device) (c : Nat) : Device :=
  let x := d.calAt c
  let m := reportMeans x.reports
  let d := (d.each m.zipIdx (fun e y => y.setI (Reg.calTxReport c e.2) e.1)).set (Reg.calTxIter c) x.iter
  if m.zipIdx.all (fun e => d.inDeadband e.2 e.1) then d.endRun c
  else
    let target := clampTerms ((x.txRamp.now.zip m).zipIdx.map (fun e => if d.inDeadband e.2 e.1.2 then e.1.1 else e.1.1 - e.1.2))
    d.putCal c { x with txRamp := x.txRamp.aim target, averaging := false, reports := [] }

/-- CAL_REPORT: a report in the carrier's lowest group with a non-zero code joins the averages of a transmit run that averages; in another group it
is discarded (R400, R401). -/
def execCalReport (c : CarrierNo) (g : ScNo) (msg : CalMsg) (s : State) : Host.Outcome State Fault Refusal :=
  onDev s (fun d =>
    if d.dead then d
    else
      let d := d.coreSeq
      let x := d.calAt c
      if d.rxReportGroup c ≠ some g.val ∨ x.run ≠ 2 ∨ !x.averaging ∨ msg.valid.toNat % 4 ≠ 3 then d
      else
        let d := d.putCal c { x with reports := x.reports ++ [(List.range 8).map (fun k => msg.terms.getD k 0)] }
        if 10 ≤ x.reports.length + 1 then d.iterate c else d)

/-- CAL_TX_SETTLE_EXPIRY: CAL_TX_SETTLE has passed in an iteration: the next ten reports are averaged. With the first the run's time-path
measurement ends (R402). -/
def execCalTxSettleExpiry (c : CarrierNo) (delays : List Int) (s : State) : Host.Outcome State Fault Refusal :=
  onDev s (fun d =>
    if d.dead then d
    else
      let d := d.coreSeq
      let x := d.calAt c
      if x.run = 2 ∧ !x.averaging ∧ 64 ≤ x.txRamp.step then
        let d := d.putCal c { x with averaging := true, reports := [] }
        if x.iter = 1 then d.measured delays else d
      else d.stale)

/-- CAL_TX_NO_REPORT_TIMEOUT: 1 s without a VALID report ends the transmit run (R401). -/
def execCalTxNoReportTimeout (c : CarrierNo) (s : State) : Host.Outcome State Fault Refusal :=
  onDev s (fun d =>
    if d.dead then d
    else
      let d := d.coreSeq
      if (d.calAt c).run = 2 then d.endTxRun c else d.stale)

/-- Why CAL_TX_ENABLE written v is refused: 1 on a hub carrier (R401). -/
def calTxEnableCheck (c v : Nat) (d : Device) : Option Err :=
  if v = 1 ∧ d.on (Reg.hubEnable c) then some (err stInvalidCombination) else none

/-- Effect of CAL_TX_ENABLE: 0 ends a transmit run. -/
def applyCalTxEnable (c v : Nat) (d : Device) : Device :=
  let d := d.putValue (Reg.calTxEnable c) v
  if v = 0 then d.endTxRun c else d

/-- CAL_TX_ENABLE. -/
def execCalTxEnable (q : Req) (c : CarrierNo) (v : Val) (s : State) : Host.Outcome State Fault Refusal :=
  onDev s (fun d => d.serve q 2 1 true (Reg.calTxEnable c).ref (fun _ d =>
    d.plainWrite (Reg.calTxEnable c) q v (fun d =>
      match calTxEnableCheck c v.raw d with
      | some e => (d, .fail e)
      | none => (applyCalTxEnable c v.raw d, okWrite))))

/-! ### The calibration set (R404 to R406) -/

/-- The items of the calibration set that are unusable. -/
def Device.calUsable (d : Device) (bad : List Nat) : Device := { d with mon := { d.mon with unusable := bad } }

/-- CAL_SET written by BLOCK: header and record CRCs right, it replaces the set: host-written, one generation on. Its record formats are not in the spec
(assumption 35). -/
def writeCalSet (bs : List Nat) (d : Device) : Device × Reply :=
  if Config.calSetGood bs then
    ((((d.setDom Reg.calSet.ref bs).set Reg.calSetState 1).set Reg.calSetGen ((d.get Reg.calSetGen + 1) % 2 ^ 32)).calUsable [], .ok [])
  else (d, .fail (err stInvalidValue))

/-- CAL_SET. -/
def execCalSet (q : Req) (crc : BitVec 32) (s : State) : Host.Outcome State Fault Refusal :=
  onDev s (fun d => d.serve q 5 2 true Reg.calSet.ref (fun _ d => d.takeBlock q Reg.calSet.ref crc.toNat writeCalSet))

end Sys2Proof.Machine
end

