-- ==== Sys2Proof/Machine/Loading.lean ====
section
/-! DEFINITION. Loading negotiation and table switches (chapter 04, R92 to R102; R44, R151). -/

namespace Sys2Proof.Machine

/-! ### Messages (Table 4.9) -/

def lmType (w : Nat) : Nat := bits w 511 504
def lmTable (w : Nat) : Nat := bits w 503 496
def lmReason (w : Nat) : Nat := bits w 495 488
def lmBonded (w : Nat) : Bool := bitAt w 487
def lmLead (w : Nat) : Nat := bits w 479 464
def lmBake (w : Nat) : Nat := bits w 463 368
def lmSwitchFrame (w : Nat) : Nat := bits w 367 320

/-- CODES: the carrier's codes, SC0 first; while BONDED those of C0 and then of C1. -/
def lmCodes (w : Nat) : List Nat := (beBytes 32 (bits w 255 0)).take (if lmBonded w then 32 else 16)

/-- The receiver takes a control message from a group in Sync, once; a slot of a group not in Sync is discarded and counted (R132).
Of each TYPE the last message taken is remembered, and a REQ ends the memory of a RESTART, so that a later RESTART acts again. On a
hub carrier the negotiation does not run (R92). -/
def Device.takeControl (d : Device) (c g w : Nat) : Device × Bool :=
  if d.dead || !bitAt (d.groupMask c) g then (d, false)
  else if d.get (Reg.frmAlignState c g) ≠ 4 then (d.bump (Reg.frmSlotDiscards c), false)
  else if d.on (Reg.hubEnable c) then (d, false)
  else
    let lc := d.loadCarrier c
    let f := d.frm.at lc
    if f.lastControl.contains w then (d, false)
    else
      let keep := f.lastControl.filter (fun x => lmType x != lmType w && !(lmType w == 1 && lmType x == 4))
      ({ d.coreSeq with frm := d.frm.put lc { f with lastControl := keep ++ [w] } }, true)

/-! ### At the transmitter (R97, R100) -/

/-- A loading switch is pending on the carrier, or a reversion is pending or armed (R97, R100). -/
def Device.switchPending (d : Device) (lc : Nat) : Bool := !(d.switchActions lc).isEmpty

/-- The reason for a NAK, if any (R97): 4 not accepting, 3 transmitter off, 1 invalid code, 6 invalid combination, 2 busy. -/
def Device.reqRefused (d : Device) (lc w : Nat) : Option Nat :=
  if !d.on (Reg.lineLoadAccept lc) then some 4
  else if d.get (Reg.lineTxState lc) = 0 then some 3
  else if !(lmCodes w).all codeOk then some 1
  else if lmBonded w != d.on Reg.frmBondMode then some 6
  else if d.switchPending lc then some 2
  else none

/-- Accepts a REQ (R97): an action of class 0x0002 of origin line negotiation with late policy 0 and bake time now + LEAD, and an ACK
with that bake time and SWITCH_FRAME, in every control slot until that frame. An action refused at acceptance is answered NAK "withdrawn". -/
def Device.acceptReq (d : Device) (lc w : Nat) : Device :=
  let bake := fuToTime96 (d.now + lmLead w * fuMs)
  let a := { newAction (d.lineKind lc) .line 0x0002 0 bake 0 with args := [lc, lmTable w] ++ lmCodes w, acceptAt := d.now }
  if d.isLate a || decide (d.now + d.get Reg.schedMaxAhead * fuSec < bakeFu a) then
    (d.bump Reg.schedRefusedCount).sendNak lc (lmTable w) 5
  else
    let tick := d.eligible a
    let g := ((List.range 16).find? (fun k => d.get (Reg.lineTxLoad lc k) != 0)).getD 0
    let ref := d.groupOfSc lc g
    let f := Config.frameAt lc ref (d.txg lc ref).frameCount d.now tick % 2 ^ 48
    let d := d.scheduleOwn a
    let d := { d with rx := d.rx.put lc { d.rx.at lc with ackOut := some (lmTable w, bake, f) } }
    (d.sendLoad lc true (loadWord 2 (lmTable w) 0 (d.on Reg.frmBondMode) 0 bake f [])).send (.loadAck lc (lmTable w) bake f)

/-- LOAD_REQ: a REQ received on group g of carrier c (R97). -/
def execLoadReq (c : CarrierNo) (g : ScNo) (msg : BitVec 512) (s : State) : Host.Outcome State Fault Refusal :=
  onDev s (fun d =>
    let r := d.takeControl c g msg.toNat
    if r.2 then
      let lc := d.loadCarrier c
      match r.1.reqRefused lc msg.toNat with
      | some reason => r.1.sendNak lc (lmTable msg.toNat) reason
      | none => r.1.acceptReq lc msg.toNat
    else r.1)

/-- LOAD_RESTART: a RESTART received: the transmitter reverts to the start table (R100). -/
def execLoadRestart (c : CarrierNo) (g : ScNo) (msg : BitVec 512) (s : State) : Host.Outcome State Fault Refusal :=
  onDev s (fun d =>
    let r := d.takeControl c g msg.toNat
    if r.2 then r.1.revertToStart (d.loadCarrier c) else r.1)

/-! ### At the receiver (R98, R99) -/

/-- The announcement of a table switch to a group. -/
def Device.announceTo (d : Device) (c g table frame : Nat) : Device :=
  d.putRxg c g { d.rxg c g with announced := some (table, frame) }

/-- The receive reference group of a carrier: it holds its lowest-numbered subcarrier with a non-zero code (R130). -/
def Device.rxReference (d : Device) (c : Nat) : Option Nat :=
  ((List.range 16).find? (fun k => d.get (Reg.lineRxLoad c k) != 0)).map (d.groupOfSc c ·)

/-- LOAD_ACK: the ACK of the outstanding proposal fixes its switch frame on the reference group. One that comes after that frame was
demapped is counted, and the codes apply from the next frame of every group (R98). -/
def execLoadAck (c : CarrierNo) (g : ScNo) (msg : BitVec 512) (demapped : Bool) (s : State) : Host.Outcome State Fault Refusal :=
  onDev s (fun d =>
    let r := d.takeControl c g msg.toNat
    let d := r.1
    let lc := d.loadCarrier c
    match r.2, (d.rx.at lc).outstanding with
    | true, some t =>
      if t.table ≠ lmTable msg.toNat then d
      else
        let d := d.endLoad lc 1
        let f := lmSwitchFrame msg.toNat
        let d := { d with rx := d.rx.put lc { d.rx.at lc with acked := some f } }
        let d := d.set (Reg.lineLoadState lc) 3
        if demapped then
          (d.bump (Reg.lineLoadLate lc)).each (if d.on Reg.frmBondMode then [0, 1] else [lc]) (fun m x =>
            x.each (x.groups m) (fun h y => y.announceTo m h t.table ((y.rxg m h).frame + 1)))
        else
          match d.rxReference lc with
          | some h => d.announceTo lc h t.table f
          | none => d
    | _, _ => d)

/-- LOAD_NAK: counted, and it ends the proposal it names (R99). -/
def execLoadNak (c : CarrierNo) (g : ScNo) (msg : BitVec 512) (s : State) : Host.Outcome State Fault Refusal :=
  onDev s (fun d =>
    let r := d.takeControl c g msg.toNat
    let lc := d.loadCarrier c
    let mine := match (r.1.rx.at lc).outstanding with
      | some t => t.table == lmTable msg.toNat
      | none => false
    if !r.2 then r.1 else if mine then r.1.proposalFailed lc else r.1.bump (Reg.lineLoadRejects lc))

/-- LOAD_PROPOSAL_ABANDON: 2 × LEAD with no ACK, NAK or frame under the table (R99). Stale otherwise. -/
def execLoadProposalAbandon (c : CarrierNo) (s : State) : Host.Outcome State Fault Refusal :=
  onDev s (fun d =>
    if d.dead then d
    else
      let d := d.takeSeq
      let r := d.rx.at c
      if r.outstanding.isSome && r.acked.isNone then d.proposalFailed c else d.stale)

/-- LOAD_UPGRADE_INTERVAL: in automatic mode, every subcarrier that the rule with margin M + LINE_LOAD_HYST would raise is due (R94). -/
def execLoadUpgradeInterval (c : CarrierNo) (s : State) : Host.Outcome State Fault Refusal :=
  onDev s (fun d =>
    if d.dead || d.on (Reg.hubEnable c) || d.loadCarrier c != c.val || d.get (Reg.lineLoadMode c) != 1 then d
    else
      let d := d.coreSeq
      let up := (d.loadScs c).filter (fun i => d.dueUp (i / 16) (i % 16))
      ({ d with rx := d.rx.put c { d.rx.at c with dueUp := up } }).propose c (d.extraDue c))

/-- The receive direction of a carrier has been in LOF or LOS: LOS, or LOF on every group that carries frames. -/
def Device.lofOrLos (d : Device) (c : Nat) : Bool :=
  let gs := (d.groups c).filter (fun g => !d.rxEmpty c g)
  (!gs.isEmpty && gs.all (fun g => bitAt (d.rxg c g).raw 0 || bitAt (d.rxg c g).raw 2))

/-- LOAD_FALLBACK_EXPIRY: LOF or LOS for LINE_LOAD_FALLBACK without a break, while bonded on both carriers (the negotiation goes on with a surviving one, R146): the start table joins the hunt, RESTART is sent until
frame is gained, and the carrier's own transmitter reverts (R100). Stale when neither is present. -/
def execLoadFallbackExpiry (c : CarrierNo) (s : State) : Host.Outcome State Fault Refusal :=
  onDev s (fun d =>
    if d.dead then d
    else
      let d := d.takeSeq
      if d.on (Reg.hubEnable c) || !(d.loadCarriers (d.loadCarrier c)).all d.lofOrLos then d.stale
      else
        let lc := d.loadCarrier c
        let d := { d with rx := d.rx.put lc { d.rx.at lc with startHunt := true, restarting := true } }
        let d := (d.endLoad lc 4).sendLoad lc true (loadWord 4 0 0 (d.on Reg.frmBondMode) 0 0 0 [])
        ((d.set (Reg.lineLoadState lc) 4).send (.loadRestart lc)).revertToStart lc)

/-! ### Manual proposals (R101) -/

/-- Effect of a write of LINE_LOAD_MODE: what was due under the mode before is no longer (R94, R101). -/
def applyLoadMode (c v : Nat) (d : Device) : Device :=
  let d := d.putValue (Reg.lineLoadMode c) v
  { d with rx := d.rx.put c { d.rx.at c with dueDown := [], dueUp := [] } }

/-- LINE_LOAD_PROPOSE written (R101): kept as the codes last written; C0's sends a REQ in manual mode when nothing is outstanding. In
bonded mode C1's write sends nothing and is taken with C0's next. -/
def applyLoadPropose (c : Nat) (v : Nat) (d : Device) : Device × Reply :=
  let lc := d.loadCarrier c
  let codes := beBytes 16 v
  let keep (x : Device) : Device := { x with rx := x.rx.put c { x.rx.at c with manualCodes := codes } }
  if d.on (Reg.hubEnable c) then (d, .fail (err stNotPermitted))
  else if d.get (Reg.lineLoadMode lc) = 1 then (d, .fail (err stNotPermitted))
  else if lc ≠ c then (keep d, okWrite)
  else if (d.rx.at lc).outstanding.isSome then (d, .fail (errObj stInUse (Reg.lineLoadPropose lc).ref))
  else
    let d := keep d
    let all := if d.on Reg.frmBondMode then codes ++ ((d.rx.at 1).manualCodes ++ List.replicate 16 0).take 16 else codes
    (d.sendReq lc all, okWrite)

/-- LINE_LOAD_PROPOSE. -/
def execLineLoadPropose (q : Req) (c : CarrierNo) (v : Val) (s : State) : Host.Outcome State Fault Refusal :=
  onDev s (fun d => d.serve q 2 1 true (Reg.lineLoadPropose c).ref (fun _ d =>
    d.plainWriteR (Reg.lineLoadPropose c) .any q v (fun d =>
      d.withhold q (Reg.lineLoadPropose c).ref (applyLoadPropose c v.raw d))))

/-! ### Switches fire (R44, R100, R131, R151) -/

/-- The subcarrier a HUB_DS_CODE reference names: carrier and subcarrier. -/
def dsCodeOf (ref : Nat) : Nat × Nat := (ref / 256 - 0x2804, ref % 256 - 1)

/-- A negotiated switch or a reversion: args are the carrier, the table and its codes, 32 of them in bonded mode. -/
def fireTable (a : Action) (d : Device) : Except Err Device :=
  match a.args with
  | c :: table :: codes =>
    let of (m : Nat) : List Nat :=
      if 16 < codes.length then (codes.drop (16 * m)).take 16 else if d.on Reg.frmBondMode then d.startCodes m else codes
    let ref := d.txReference c
    let d := { d with frm := d.frm.put c { d.frm.at c with txTable := table }, rx := d.rx.put c { d.rx.at c with ackOut := none } }
    .ok ((d.endLoad c 2).each (d.loadCarriers c) (fun m x => x.each (x.groups m) (fun g y => y.txSwitch m g table (of m) ref)))
  | _ => .error (err stInvalidCombination)

/-- A downstream code of a hub carrier comes into force (R151); HUB_DS_CODE holds it. -/
def fireDsCode (a : Action) (d : Device) : Except Err Device :=
  let p := dsCodeOf a.target
  let d := d.putValue (Reg.hubDsCode p.1 p.2) a.value
  if !d.on (Reg.hubEnable p.1) ∨ d.get (Reg.lineTxState p.1) = 0 then .ok d
  else
    .ok (d.txSwitch p.1 p.2 (d.txg p.1 p.2).table ((d.txCodes p.1).set p.2 a.value) (d.txReference p.1))

/-- LOADING_TABLE_SWITCH: an action of class 0x0002 fires at its tick (R44). -/
def execLoadingTableSwitch (handle : BitVec 32) (poison : Bool) (s : State) : Host.Outcome State Fault Refusal :=
  onDev s (fun d => d.fire handle.toNat 0x0002 poison (fun a d => if a.target = 0 then fireTable a d else fireDsCode a d))

end Sys2Proof.Machine
end

