-- ==== Sys2Proof/Machine/Fec.lean ====
section
/-! DEFINITION. The decoder pool and its statistics (chapter 05). -/

namespace Sys2Proof.Machine

/-! ### Time in the pool -/

/-- One eighth of a nanosecond in fu: the unit of the times per iteration of Table 5.1. -/
def fuEighth : Nat := 8192

/-- The slots the awake engines give (R479). -/
def Device.poolSlots (d : Device) : Nat := 4 * d.get Reg.pwrFecActive

/-- When k iterations of a placed codeword are complete: 40 ns of loading, then one per T (R111). -/
def iterEnd (w : Codeword) (k : Nat) : Nat := w.placed + 40 * fuNs + k * (iterTime8 w.overhead * fuEighth)

/-- Iterations a codeword has completed, FEC_MAX_ITER at most (R111). -/
def Device.itersOf (d : Device) (w : Codeword) : Nat :=
  min ((d.now - iterEnd w 0) / (iterTime8 w.overhead * fuEighth)) (d.get (Reg.fecMaxIter w.carrier))

/-- The cut-off of a codeword and the delivery of its block: ready + D − 120 ns, ready + D (R111). -/
def cutoffAt (w : Codeword) : Nat := w.ready + (deadlineNs w.overhead - 120) * fuNs
def deliveryAt (w : Codeword) : Nat := w.ready + deadlineNs w.overhead * fuNs

/-- The ratios of a codeword. -/
def Codeword.llrs (w : Codeword) : List Int := w.ratios.map (·.1)

/-- When a placed codeword's decoding stops by itself, why and after how many iterations: Converged or Maximum, or at the cut-off the iterations complete
then (R111). -/
def Device.stopDue (d : Device) (w : Codeword) : Nat × Nat × Nat :=
  let top := d.get (Reg.fecMaxIter w.carrier)
  let own := match convergedAt w.overhead w.codes w.place w.llrs top with
    | some k => (iterEnd w k, 0, k)
    | none => (iterEnd w top, 1, top)
  if own.1 ≤ cutoffAt w then own else (cutoffAt w, 2, (cutoffAt w - iterEnd w 0) / (iterTime8 w.overhead * fuEighth))

/-- Brings the slot-time of the running second up to now (FEC_POOL_MEAN). -/
def Device.poolArea (d : Device) : Device :=
  { d with fec := { d.fec with area := d.fec.area + d.fec.slots.length * (d.now - d.fec.since), since := d.now } }

/-! ### Placement (R112, R113) -/

/-- The first free slot. -/
def Device.freeSlot (d : Device) : Option Nat := (List.range d.poolSlots).find? (fun k => (tblGet d.fec.slots k).isNone)

/-- Slots whose codeword has FEC_MIN_ITER iterations, those of a preferred carrier left out where the other has any. -/
def Device.victims (d : Device) : List (Nat × Codeword) :=
  let l := d.fec.slots.filter (fun e => decide (d.get Reg.fecMinIter ≤ d.itersOf e.2))
  let p := d.get Reg.fecPriority
  if p = 0 then l
  else if l.any (fun e => e.2.carrier != p - 1) then l.filter (fun e => e.2.carrier != p - 1) else l

/-- The first codeword is the better victim: more iterations, then earlier ready, then C0 before C1. -/
def Device.betterVictim (d : Device) (a b : Nat × Codeword) : Bool :=
  decide (d.itersOf b.2 < d.itersOf a.2 ∨ (d.itersOf b.2 = d.itersOf a.2 ∧
    (a.2.ready < b.2.ready ∨ (a.2.ready = b.2.ready ∧ a.2.carrier < b.2.carrier))))

/-- The best victim of a list. -/
def Device.bestVictim (d : Device) : List (Nat × Codeword) → Option (Nat × Codeword)
  | [] => none
  | x :: r =>
    match d.bestVictim r with
    | none => some x
    | some y => if d.betterVictim y x then some y else some x

/-- The counter of a stop reason. -/
def stopCounter (c reason : Nat) : Obj :=
  match reason with
  | 0 => Reg.fecCwConverged c
  | 1 => Reg.fecCwMaxiter c
  | 2 => Reg.fecCwCutoff c
  | _ => Reg.fecCwPreempted c

/-- Decoding of a codeword stops: counted by reason and by iterations (R111, R122) while its carrier passes soft decisions (R115). -/
def Device.stopWord (d : Device) (w : Codeword) (reason iters : Nat) : Device :=
  let d := { d with fec := { d.fec with stopped := d.fec.stopped ++ [({ word := w, reason := reason, iters := iters } : Stopped)] } }
  if d.passesSoft w.carrier then
    let x := d.fec.win.at w.carrier
    let d := { d with fec := { d.fec with win := d.fec.win.put w.carrier { x with words := x.words + 1, iters := x.iters + iters } } }
    ((d.bump (Reg.fecCwTotal w.carrier)).bump (stopCounter w.carrier reason)).bump (Reg.fecIterHist w.carrier iters)
  else d

/-- Puts a codeword into a slot. -/
def Device.placeIn (d : Device) (k : Nat) (w : Codeword) : Device :=
  let d := d.poolArea
  let d := { d with fec := { d.fec with slots := tblPut d.fec.slots k { w with placed := d.now } } }
  if d.get Reg.fecPoolPeak < d.fec.slots.length then d.set Reg.fecPoolPeak d.fec.slots.length else d

/-- Takes a slot's codeword out. -/
def Device.freeOf (d : Device) (k : Nat) : Device :=
  let d := d.poolArea
  { d with fec := { d.fec with slots := tblDel d.fec.slots k } }

/-- Gives a codeword a slot: the lowest free one, else a victim's (R113). False: it stays held. -/
def Device.place (d : Device) (w : Codeword) : Device × Bool :=
  match d.freeSlot with
  | some k => (d.placeIn k w, true)
  | none =>
    match d.bestVictim d.victims with
    | some v => (((d.freeOf v.1).stopWord v.2 3 (d.itersOf v.2)).placeIn v.1 w, true)
    | none => (d, false)

/-- The next codeword of a group, taken off its ratios; none where they do not fill one (R107). Its block number is that of its place in the frame (R106). -/
def Device.takeWord (d : Device) (c g num : Nat) : Option (Codeword × Device) :=
  let x := d.rxg c g
  let place := (x.ratios.head?.map (·.2.2)).getD 0
  let n := d.ratiosNeeded c g place
  if x.ratios.length < n ∨ n = 0 then none
  else
    let w : Codeword := ⟨num, c, g, (x.expect + d.wordsAhead c g) % 16, d.overhead c, d.wordCodes c g, place, d.now, 0, (x.ratios.take n).map (fun e => (e.1, e.2.1)), none⟩
    some (w, d.putRxg c g { x with ratios := x.ratios.drop n })

/-- Linear SNR under which a leaf's burst is demapped: that of its last valid burst (R89, R163). -/
def Device.burstSnr (d : Device) (c l : Nat) : Nat :=
  pow10Milli ((((d.leafOf c l).snrs.getLast?.map (·.2)).getD (Config.firstSnr c (16 + l)) : Nat) : Int)

/-- The ratios of a burst's payload: its mapping periods in turn, each ratio with its place (R42, R89, R158). -/
def Device.burstRatios (d : Device) (c sc : Nat) (b : HubBurst) (ys : List Sym) : List (Int × Nat × Nat) :=
  (piecesOf 256 (ys.length / 256) ys).flatMap (fun p =>
    (demapSubcarrier (grCode b.record) (d.burstSnr c b.leaf) p).zipIdx.map (fun e => (e.1, sc, e.2)))

/-- A path's burst with codewords still to take. -/
def Device.openBurst (d : Device) (c sc : Nat) : Option HubBurst :=
  (d.pathOf c sc).bursts.find? (fun (b : HubBurst) => decide (b.taken < grBlocks b.record))

/-- Replaces a burst of a path. -/
def Device.putBurst (d : Device) (c sc : Nat) (b : HubBurst) : Device :=
  let p := d.pathOf c sc
  d.putPath c sc { p with bursts := p.bursts.map (fun (x : HubBurst) => if x.id = b.id then b else x) }

/-- The next codeword of a burst, taken off the ratios of its payload; what follows the last one is padding (R158). -/
def Device.burstWord (d : Device) (c sc num : Nat) (b : HubBurst) (ys : List Sym) : Option Codeword × Device :=
  let rs := b.ratios ++ d.burstRatios c sc b ys
  let codes := [grCode b.record]
  let place := (rs.head?.map (·.2.2)).getD 0
  let n := if shapedGroup codes then Config.wordRatios (d.overhead c) codes place else innerLength (d.overhead c)
  if rs.length < n ∨ n = 0 then (none, d.putBurst c sc { b with ratios := rs })
  else
    (some ⟨num, c, sc, b.taken, d.overhead c, codes, place, d.now, 0, (rs.take n).map (fun e => (e.1, e.2.1)), some b.id⟩,
      d.putBurst c sc { b with taken := b.taken + 1, ratios := if b.taken + 1 < grBlocks b.record then rs.drop n else [] })

/-- The next codeword of a subcarrier group, from the symbols that came since the one before: that of a burst under reception, or of the group's stream. -/
def Device.nextWord (d : Device) (r : ReadyWord) : Option Codeword × Device :=
  match d.openBurst r.c r.g with
  | some b => d.burstWord r.c r.g r.num b (tblGetD r.samples r.g.val [])
  | none =>
    match (d.demap r.c r.samples).takeWord r.c r.g r.num with
    | none => (none, d.demap r.c r.samples)
    | some x => (some x.1, x.2)

/-- The codewords of one fabric clock, their ratios demapped in turn. A carrier whose chain passes no soft decisions sends none (R115). Earlier words of the
list count as waiting for the block number of later ones. -/
def Device.readyWords (d : Device) : List ReadyWord → Device × List Codeword
  | [] => (d, [])
  | r :: l =>
    if d.passesSoft r.c && bitAt (d.groupMask r.c) r.g then
      match d.nextWord r with
      | (none, x) => x.readyWords l
      | (some w, x) =>
        let y := ({ x with fec := { x.fec with held := x.fec.held ++ [w] } }).readyWords l
        (y.1, w :: y.2)
    else d.readyWords l

/-- The order of codewords that become ready on one fabric clock: C0 first, then block order (R112). -/
def wordBefore (a b : Codeword) : Bool := decide (a.carrier < b.carrier ∨ (a.carrier = b.carrier ∧ a.block < b.block))

/-- Tries every held codeword, in order. -/
def Device.retryHeld (d : Device) : List Codeword → Device
  | [] => d
  | w :: r =>
    let x := d.place w
    if x.2 then ({ x.1 with fec := { x.1.fec with held := x.1.fec.held.filter (fun y => y.num != w.num) } }).retryHeld r
    else x.1.retryHeld r

/-- CODEWORD_READY: the codewords that become ready on one fabric clock enter the pool in the order of R112, or are held and counted (R113). -/
def execCodewordReady (words : List ReadyWord) (s : State) : Host.Outcome State Fault Refusal :=
  onDev s (fun d =>
    let old := d.fec.held
    let r := d.readyWords words
    let new := sortBy wordBefore r.2
    let d := ({ r.1 with fec := { r.1.fec with held := old ++ new } }).retryHeld new
    d.count Reg.fecPoolHeld (d.fec.held.filter (fun w => new.any (fun v => v.num == w.num))).length)

/-- HELD_CODEWORD_RETRY: held codewords try again, on every fabric clock (R113). -/
def execHeldCodewordRetry (s : State) : Host.Outcome State Fault Refusal :=
  onDev s (fun d => d.retryHeld d.fec.held)

/-- CODEWORD_DECODE_STOP: every check satisfied, or FEC_MAX_ITER iterations complete (R111). -/
def execCodewordDecodeStop (slot : Fin 80) (s : State) : Host.Outcome State Fault Refusal :=
  onDev s (fun d =>
    match tblGet d.fec.slots slot with
    | none => d
    | some w =>
      let e := d.stopDue w
      if e.2.1 ≠ 2 ∧ d.comes e.1 = true then ((d.moveTo e.1).freeOf slot).stopWord w e.2.1 e.2.2 else d)

/-- DECODE_CUTOFF: ready + D − 120 ns has come for a codeword still in a slot, or still held, and ends its decoding (R111). -/
def execDecodeCutoff (num : Nat) (s : State) : Host.Outcome State Fault Refusal :=
  onDev s (fun d =>
    match d.fec.slots.find? (fun e => e.2.num == num) with
    | some e =>
      let x := d.stopDue e.2
      if x.2.1 = 2 ∧ d.comes x.1 = true then ((d.moveTo x.1).freeOf e.1).stopWord e.2 2 x.2.2 else d
    | none =>
      match d.fec.held.find? (fun w => w.num == num) with
      | some w =>
        if d.comes (cutoffAt w) then
          let d := d.moveTo (cutoffAt w)
          ({ d with fec := { d.fec with held := d.fec.held.filter (fun y => y.num != num) } }).stopWord w 2 0
        else d
      | none => d)

/-! ### Block delivery (R111, R118 to R120) -/

/-- A half after the outer decoder: its bits with their parity, the bits corrected, whether it failed. A failed half keeps its best decisions. -/
structure HalfOut where
  word : List Bool
  corrected : Nat
  failed : Bool

/-- The outer decoder on one half. -/
def outerHalf (ov : Nat) (w : List Bool) : HalfOut :=
  match outerDecode ov w with
  | some x => ⟨x.1, x.2, false⟩
  | none => ⟨w, 0, true⟩

/-- What a stopped codeword gives: both halves, and its decisions beyond them. -/
structure Decoded where
  half0 : HalfOut
  half1 : HalfOut
  parity : List Bool

/-- The decisions kept, decoded by the outer code (R106, R111). -/
def decodedOf (s : Stopped) : Decoded :=
  let w := s.word
  let bs := decisions w.overhead w.codes w.place w.llrs (keptIteration w.overhead w.codes w.place w.llrs s.iters)
  let n := halfBits + outerParityBits w.overhead
  ⟨outerHalf w.overhead (bs.take n), outerHalf w.overhead ((bs.drop n).take n), bs.drop (2 * n)⟩

/-- The status of Table 5.3. -/
def blockStatus (reason : Nat) (r : Decoded) : Nat :=
  if r.half0.failed || r.half1.failed then 3
  else if reason = 0 then (if r.half0.corrected + r.half1.corrected = 0 then 0 else 1)
  else 2

/-- The ratios of a codeword whose sign the final decision contradicts, by subcarrier (R120). In a group with shaped codes the ratios stand for the labels
that the parity equations take. -/
def preErrors (s : Stopped) (r : Decoded) : List Nat :=
  let w := s.word
  let final := equationWord w.overhead w.codes w.place (r.half0.word ++ r.half1.word ++ r.parity)
  ((w.ratios.zip final).filter (fun e => hardBit e.1.1 != e.2)).map (·.1.2)

/-- The block of a codeword for the framer: its units, the halves that failed, the poison marks under FEC_FAIL_ACTION 0 (R119). -/
def Device.rxBlockOf (d : Device) (c : Nat) (r : Decoded) : RxBlock :=
  let mark := d.get (Reg.fecFailAction c) == 0
  ⟨bitPieces 128 256 (r.half0.word.take halfBits ++ r.half1.word.take halfBits), r.half0.failed, r.half1.failed, r.half0.failed && mark, r.half1.failed && mark⟩

/-- One more in a table for each key of a list. -/
def countEach (t : List (Nat × Nat)) (l : List Nat) : List (Nat × Nat) := l.foldl (fun t k => tblPut t k (tblGetD t k 0 + 1)) t

/-- A delivered block enters the statistics of its carrier (R120, R122, R123). -/
def Device.tally (d : Device) (w : Stopped) (status : Nat) (r : Decoded) : Device :=
  let c := w.word.carrier
  let g := w.word.group
  let n := innerLength w.word.overhead
  let errors := preErrors w r
  let x := d.fec.win.at c
  let x := { x with msWords := x.msWords + 1 }
  let x := if status = 3 then x else
    { x with errors := x.errors + errors.length, bits := x.bits + n,
             scErrors := countEach x.scErrors errors, scBits := countEach x.scBits (w.word.ratios.map (·.2)),
             msErrors := x.msErrors + errors.length, msBits := x.msBits + n }
  let worst := max status (if w.word.block = 0 then 0 else tblGetD x.worst g 0)
  let x := if w.word.burst.isSome then x else { x with worst := tblPut x.worst g worst }
  let failed := decide (w.word.block = 15 ∧ worst = 3) && w.word.burst.isNone
  let x := if failed then { x with msFailed := tblPut x.msFailed g (tblGetD x.msFailed g 0 + 1) } else x
  let d := { d with fec := { d.fec with win := d.fec.win.put c x } }
  let d := if status = 3 then d.bump (Reg.fecCwFailed c) else (d.count (Reg.fecBits c) n).count (Reg.fecPreErrors c) errors.length
  let d := d.count (Reg.fecOuterCorr c) (r.half0.corrected + r.half1.corrected)
  if failed then d.bump (Reg.fecFramesFailed c) else d

/-! ### FEC_Q_MARGIN (R121) -/

/-- Units of the fixed-point computation: 2^-128. -/
def qOne : Nat := 2 ^ 128

/-- 1/√(2π) in units of 2^-128, rounded down. -/
def invSqrt2Pi : Nat := 135753023439836232162591007175785461951

/-- The alternating series of the tail: the sum of (−1)^n x^(2n+1) / (2^n n! (2n+1)); t is x^(2n+1) / (2^n n!) and x2 is x². -/
def qSeries : Nat → Nat → Nat → Nat → Int
  | 0, _, _, _ => 0
  | f + 1, n, t, x2 =>
    let term : Int := ((t / (2 * n + 1) : Nat) : Int)
    let rest := qSeries f (n + 1) (t * x2 / qOne / (2 * (n + 1))) x2
    (if n % 2 = 0 then term else -term) + rest

/-- Q(x) = ½ − (1/√(2π)) · series, x in units of 2^-128 up to 8. -/
def qTail (x : Nat) : Int := ((qOne / 2 : Nat) : Int) - (qSeries 160 0 x (x * x / qOne) * (invSqrt2Pi : Int)) / (qOne : Int)

/-- Bisection for Qinv(p): the largest x found with Q(x) ≥ p. -/
def qInvFuel : Nat → Nat → Nat → Int → Nat
  | 0, lo, _, _ => lo
  | f + 1, lo, hi, p =>
    let m := (lo + hi) / 2
    if p ≤ qTail m then qInvFuel f m hi p else qInvFuel f lo m p

/-- Qinv(n/10^10) in units of 2^-128, for probabilities below one half. -/
def qInv (n : Nat) : Nat := qInvFuel 100 0 (8 * qOne) ((n * qOne / 10 ^ 10 : Nat) : Int)

/-- Bisection for the largest j with 10^(j/1000) ≤ y (units of 2^-64), between lo and hi. -/
def log10Fuel : Nat → Int → Int → Nat → Int
  | 0, lo, _, _ => lo
  | f + 1, lo, hi, y =>
    let m := (lo + hi) / 2
    if m = lo then lo else if pow10Milli m ≤ y then log10Fuel f m hi y else log10Fuel f lo m y

/-- Guaranteed threshold of a code in units of 10^-10 (Table 5.1). -/
def thresholdOf (code : Nat) : Nat := [190000000, 240000000, 310000000].getD code 240000000

/-- The fourth power of a/b in units of 2^-64. -/
def ratio4 (a b : Nat) : Nat :=
  let r := a * 2 ^ 64 / b
  r * r / 2 ^ 64 * (r * r / 2 ^ 64) / 2 ^ 64

/-- 20·log10(Qinv(B)/Qinv(B_th)) in units of 0.01 dB, rounded up as both figures of the worked example need (205.9 reads 206, 68.4
reads 69; assumption 23). With y = floor(4000·log10) of a ratio above 1, 2000·log10 lies in [y/2, y/2 + 1/2). -/
def qMarginOf (ber code : Nat) : Int :=
  if ber = 0 then 32766
  else if 5000000000 ≤ ber then -32768
  else
    let a := qInv ber
    let b := qInv (thresholdOf code)
    let m : Int := if b ≤ a then (if a = b then 0 else log10Fuel 32 0 20000 (ratio4 a b) / 2 + 1)
      else -(log10Fuel 32 0 200000 (ratio4 b a) / 2)
    clampInt (-32768) 32766 m

/-! ### Windows (R120 to R123) -/

/-- A ratio in units of 10^-10 to the nearest; all ones without bits; a value that does not fit is not stated (assumption 22). -/
def Device.setRatio (d : Device) (o : Obj) (errors n : Nat) : Device :=
  if n = 0 then d.set o 0xFFFFFFFF
  else
    let v := roundDiv (errors * 10 ^ 10) n
    if v < 0xFFFFFFFF then d.set o v
    else { d.set o (Config.unstated d.free) with free := d.free + 1 }

/-- The leaves of a hub carrier report the window too (HUB_LEAF_PRE_BER). -/
def Device.leafWindow (d : Device) (c : Nat) : Device :=
  d.each (d.hub.at c).leaves (fun e x => x.setRatio (Reg.hubLeafPreBer (128 * c + e.1)) e.2.errors e.2.bits)

/-- A new window of R120 begins now, its counts at 0. -/
def Device.windowStarts (d : Device) (c : Nat) : Device :=
  let x := d.fec.win.at c
  let x := { x with start := d.now, errors := 0, bits := 0, scErrors := [], scBits := [], words := 0, iters := 0 }
  let d := { d with fec := { d.fec with win := d.fec.win.put c x } }
  let h := d.hub.at c
  { d with hub := d.hub.put c { h with leaves := h.leaves.map (fun e => (e.1, { e.2 with errors := 0, bits := 0 })) } }

/-- Effect of a write of FEC_BER_WINDOW: a window under it begins, shorter than those that follow (R120). -/
def applyBerWindow (c v : Nat) (d : Device) : Device := (d.putValue (Reg.fecBerWindow c) v).windowStarts c

/-- FEC_BER_WINDOW_END: device time meets the next whole multiple of FEC_BER_WINDOW ms since the window began, and it ends: FEC_PRE_BER, FEC_SC_BER,
FEC_Q_MARGIN, FEC_MEAN_ITER. The mean over a window without codewords is not stated (assumption 22). -/
def execFecBerWindowEnd (c : CarrierNo) (s : State) : Host.Outcome State Fault Refusal :=
  onDev s (fun d =>
    let t := nextMultiple (d.get (Reg.fecBerWindow c) * fuMs) (d.fec.win.at c).start
    if d.dead || !d.comes t then d
    else
      let d := d.moveTo t
      let x := d.fec.win.at c
      let d := d.setRatio (Reg.fecPreBer c) x.errors x.bits
      let d := d.each (List.range 16) (fun k y => y.setRatio (Reg.fecScBer c k) (tblGetD x.scErrors k 0) (tblGetD x.scBits k 0))
      let d := if x.bits = 0 then d.set (Reg.fecQMargin c) 0x7FFF
        else d.setI (Reg.fecQMargin c) (qMarginOf (d.get (Reg.fecPreBer c)) (d.overhead c))
      let d := if x.words = 0 then { d.set (Reg.fecMeanIter c) (Config.unstated d.free) with free := d.free + 1 }
        else d.set (Reg.fecMeanIter c) (roundDiv (100 * x.iters) x.words)
      (d.leafWindow c).windowStarts c)

/-- A group's SD counts go on by an interval in which SD's conditions for declaring and for clearing held or not (Table 6.7). -/
def Device.sdGroup (d : Device) (c g : Nat) (set clr : Bool) : Device :=
  if d.rxEmpty c g then d
  else
    let x := d.rxg c g
    let x := { x with sdOn := if set then x.sdOn + 1 else 0, sdOff := if clr then x.sdOff + 1 else 0 }
    let d := d.putRxg c g x
    if d.get (Reg.frmSdSetMs c) ≤ x.sdOn then d.rawDefect c g 5 true
    else if d.get (Reg.frmSdClrMs c) ≤ x.sdOff then d.rawDefect c g 5 false
    else d

/-- SD over one interval of a carrier (Table 6.7): an interval without a codeword neither advances nor breaks a count; BER is
compared with FRM_SD_SET % and FRM_SD_CLR % of the threshold. -/
def Device.sdInterval (d : Device) (c : Nat) (x : FecWindow) : Device :=
  if x.msWords = 0 then d
  else
    let bad := sumOf (x.msFailed.map (·.2)) != 0
    let th := thresholdOf (d.overhead c)
    let above (pct : Nat) : Bool := decide (pct * th * x.msBits < x.msErrors * 10 ^ 12)
    let set := bad || (x.msBits != 0 && above (d.get (Reg.frmSdSet c)))
    let clr := !bad && x.msBits != 0 && !above (d.get (Reg.frmSdClr c))
    (d.each (d.groups c) (fun g y => y.sdGroup c g set clr)).publish c

/-- One carrier's millisecond ends: FEC_PRE_BER_1MS, SD, the REI each group returns (R123, Table 6.3). -/
def Device.msEnd (d : Device) (c : Nat) : Device :=
  let x := d.fec.win.at c
  let d := d.setRatio (Reg.fecPreBer1ms c) x.msErrors x.msBits
  let d := d.sdInterval c x
  let d := d.each (d.groups c) (fun g y => y.putTxg c g { y.txg c g with rei := min (tblGetD x.msFailed g 0) 65535 })
  { d with fec := { d.fec with win := d.fec.win.put c { d.fec.win.at c with msErrors := 0, msBits := 0, msWords := 0, msFailed := [] } } }

/-! ### Writes (R104, R117, R479) -/

/-- Transmit and receive of a carrier are both Off. -/
def Device.carrierOff (d : Device) (c : Nat) : Bool := d.get (Reg.lineTxState c) == 0 && d.get (Reg.lineRxState c) == 0

/-- FEC_OVERHEAD written v (R104, R117). -/
def overheadCheck (c v : Nat) (d : Device) : Option Err :=
  if c = 1 && d.on Reg.frmBondMode then some (err stInvalidCombination)
  else if !d.carrierOff c then some (err stNotPermitted)
  else
    d.loadCheck (poolLoadOf (d.on (Reg.lineRxEnable 0)) (d.on (Reg.lineRxEnable 1)) (if c = 0 then v else d.get (Reg.fecOverhead 0))
      (if c = 1 ∨ d.on Reg.frmBondMode then v else d.overhead1) (d.get Reg.fecMinIter))

/-- FEC_DEADLINE follows the code in force on both carriers. -/
def Device.setDeadlines (d : Device) : Device :=
  (d.set (Reg.fecDeadline 0) (deadlineNs (d.overhead 0))).set (Reg.fecDeadline 1) (deadlineNs (d.overhead 1))

/-- Effect of a write of FEC_OVERHEAD: the deadline and the capacities follow. -/
def applyOverhead (c v : Nat) (d : Device) : Device :=
  (((d.putValue (Reg.fecOverhead c) v).setDeadlines).reportCapacity 0).reportCapacity 1

/-- FEC_MIN_ITER written v. -/
def minIterCheck (v : Nat) (d : Device) : Option Err :=
  if d.get (Reg.fecMaxIter 0) < v ∨ d.get (Reg.fecMaxIter 1) < v then some (err stInvalidCombination)
  else d.loadCheck (poolLoadOf (d.on (Reg.lineRxEnable 0)) (d.on (Reg.lineRxEnable 1)) (d.get (Reg.fecOverhead 0)) d.overhead1 v)

/-- FEC_MAX_ITER written v. -/
def maxIterCheck (v : Nat) (d : Device) : Option Err :=
  if v < d.get Reg.fecMinIter then some (err stInvalidCombination) else none

end Sys2Proof.Machine
end

