-- ==== Sys2Proof/Machine/PortOps.lean ====
section
/-! DEFINITION. What client ports and the mate link carry (chapter 15): an Ethernet block stream in slices and its rate adaptation, the lanes' codewords and the
dealing of the mate stream. A 66b block is a number whose bit k is sent as its k-th, the synchronisation header in bits 0 and 1; the fields of its payload lie
as IEEE 802.3 numbers them (assumption 176). -/

namespace Sys2Proof.Machine

/-! ### 66b blocks (R370, R372) -/

/-- The low n bits of a word, bit 0 first. -/
def bitsUp (n w : Nat) : List Bool := (bitsDown n w).reverse

/-- The number that bits spell, bit 0 first. -/
def ofBitsUp (l : List Bool) : Nat := ofBits l.reverse

/-- A data block: header 01; a control block: header 10, then its type. -/
def isData (b : Nat) : Bool := b % 4 == 2
def isControl (b : Nat) : Bool := b % 4 == 1
def blockType (b : Nat) : Nat := b / 4 % 256

/-- A control block of type and content. -/
def controlBlock (ty content : Nat) : Nat := 1 + 4 * (ty + 256 * content)

/-- Eight idle characters; eight error characters. -/
def idleBlock : Nat := controlBlock 0x1E 0
def errorBlock : Nat := controlBlock 0x1E (ofBits ((List.replicate 8 (bitsDown 7 0x1E)).flatten))

/-- The ordered sets of Local Fault and Remote Fault. -/
def localFaultBlock : Nat := controlBlock 0x4B (2 ^ 16)
def remoteFaultBlock : Nat := controlBlock 0x4B (2 * 2 ^ 16)

/-- A control block all of whose characters are idle. -/
def isIdle (b : Nat) : Bool := b == idleBlock

/-- Whether a frame is open after a block: a start opens one, a terminate closes it. -/
def openAfter (was : Bool) (b : Nat) : Bool :=
  if !isControl b then was
  else if [0x33, 0x66, 0x78].contains (blockType b) then true
  else if [0x87, 0x99, 0xAA, 0xB4, 0xCC, 0xD2, 0xE1, 0xFF].contains (blockType b) then false
  else was

/-- A block begins a frame, or carries one on: none may be inserted or deleted before it, but before a start (R372). -/
def betweenFrames (was : Bool) : Bool := !was

/-- The block types, each told by its low four bits. -/
def blockTypes : List Nat := [0x1E, 0x2D, 0x33, 0x66, 0x55, 0x78, 0x4B, 0x87, 0x99, 0xAA, 0xB4, 0xCC, 0xD2, 0xE1, 0xFF]

/-! ### Transcoding and the item area (R370) -/

/-- Four blocks as 257 bits, first bit first: four data blocks after a 1; else a 0, which blocks are data, and the payloads without the high four bits of the first
control block's type. -/
def transcode (bs : List Nat) : List Bool :=
  let payload (b : Nat) : List Bool := bitsUp 64 (b / 4)
  if bs.all isData then true :: bs.flatMap payload
  else
    let c := (bs.findIdx? (fun b => !isData b)).getD 0
    let l := bs.flatMap payload
    false :: bs.map isData ++ l.take (64 * c + 4) ++ l.drop (64 * c + 8)

/-- The four blocks that 257 bits carry; four error blocks where they carry none: no control block, or no type with those four bits. -/
def untranscode (l : List Bool) : List Nat :=
  match l with
  | [] => List.replicate 4 errorBlock
  | true :: r => (List.range 4).map (fun j => 2 + 4 * ofBitsUp ((r.drop (64 * j)).take 64))
  | false :: r =>
    let heads := r.take 4
    let l := r.drop 4
    match heads.findIdx? (! ·) with
    | none => List.replicate 4 errorBlock
    | some c =>
      match blockTypes.find? (fun t => t % 16 == ofBitsUp ((l.drop (64 * c)).take 4)) with
      | none => List.replicate 4 errorBlock
      | some t =>
        let l := l.take (64 * c + 4) ++ bitsUp 4 (t / 16) ++ l.drop (64 * c + 4)
        (List.range 4).map (fun j => (if heads.getD j false then 2 else 1) + 4 * ofBitsUp ((l.drop (64 * j)).take 64))

/-- Blocks that a group block carries. -/
def areaLength : Nat := 508

/-- Cuts a list into n pieces of m. -/
def cutEach (m : Nat) : Nat → List Nat → List (List Nat)
  | 0, _ => []
  | n + 1, l => l.take m :: cutEach m n (l.drop m)

/-- The item area of 508 blocks: 127 transcoded blocks from the most significant bit of unit 1, and one bit 0. A block with an invalid header goes as an error
block. -/
def areaUnits (bs : List Nat) : List Nat :=
  let bs := bs.map (fun b => if isData b || isControl b then b else errorBlock)
  bitPieces 128 255 ((cutEach 4 127 bs).flatMap transcode ++ [false])

/-- The blocks of an item area. -/
def areaBlocks (us : List Nat) : List Nat :=
  let l := unitsBits us
  (List.range 127).flatMap (fun k => untranscode ((l.drop (257 * k)).take 257))

/-! ### Streams (R370, R371, R373) -/

/-- A stream that a client port's slots carry: its port, its first slot, the slice group, how many slots, its rate in Gb/s. -/
structure ClientStream where
  port : Nat
  first : Nat
  group : Nat
  slots : Nat
  rate : Nat
deriving DecidableEq, Repr

/-- 66b blocks of a stream in a calendar cycle at its nominal rate. -/
def ClientStream.perCycle (c : ClientStream) : Nat := 200 * c.rate

/-- The slot key of a stream's first slot. -/
def ClientStream.key (c : ClientStream) : Nat := slotKey c.port c.first

/-- A port in slice mode: it has a type, is not in packet mode and belongs to no FlexE group (R370). -/
def Device.sliceMode (d : Device) (p : Nat) : Bool :=
  d.get (Reg.lanePortType p) != 0 && d.get (Reg.pktPortMode p) == 0 && !d.flexMember p

/-- The streams of the ports in slice mode and of the FlexE clients. -/
def Device.clientStreams (d : Device) : List ClientStream :=
  ((List.range 32).filter (d.sliceMode ·)).map (fun p =>
    ⟨p, 0, d.get (Reg.lanePortGroup p), d.get (Reg.lanePortSlots p), macRate (d.get (Reg.lanePortType p)) / 1000⟩) ++
  d.lane.flexActive.flatMap (fun g =>
    (clientRanges g).map (fun c => ⟨lowestMember g, c.2.1, tblGetD g.clients c.1 0, c.2.2, 5 * clientSlots g c.1⟩))

def Device.clientSide (d : Device) (k : Nat) : ClientSide := tblGetD d.lane.clients k ⟨[], false, [], 0, 0, [], [], false⟩
def Device.putClient (d : Device) (k : Nat) (x : ClientSide) : Device := { d with lane := { d.lane with clients := tblPut d.lane.clients k x } }

/-- A stream has failed towards the fabric: the port's link is not up, or the FlexE client has a calendar slot on a removed PHY (R369, R374). -/
def Device.streamFailed (d : Device) (c : ClientStream) : Bool :=
  if d.flexMember c.port then (d.flexFailed c.port).any (fun f => f.2.1 == c.first) else d.get (Reg.lanePortState c.port) != 2

/-- Blocks that wait on ingress before no more idle blocks are inserted, and on egress before idle blocks are deleted: R372 states no depth of the buffers (assumption
176). -/
def ingressDepth : Nat := 2556
def egressDepth : Nat := 1016

/-- The next n blocks of an item area: an idle block is inserted between frames while few blocks wait; an error block where none waits within a frame. Answers the
side after them, the blocks, and how many were inserted. -/
def takeIngress : Nat → ClientSide → List Nat × Nat × ClientSide
  | 0, x => ([], 0, x)
  | n + 1, x =>
    if betweenFrames x.inFrame ∧ x.waiting.length < ingressDepth then
      let r := takeIngress n x
      (idleBlock :: r.1, r.2.1 + 1, r.2.2)
    else
      match x.waiting with
      | [] => let r := takeIngress n x; (errorBlock :: r.1, r.2)
      | b :: w => let r := takeIngress n { x with waiting := w, inFrame := openAfter x.inFrame b }; (b :: r.1, r.2)

/-- Ethernet bytes from destination address to FCS in a 66b block, and whether a frame is open after it: a start block holds the preamble and the delimiter, of
which a start in its second half leaves four bytes to the next block; a terminate block holds up to 7 bytes (Clauses 49 and 82). -/
def frameBytes (was : Bool) (b : Nat) : Int :=
  if isData b then (if was then 8 else 0)
  else
    match blockType b with
    | 0x33 => -4 | 0x66 => -4
    | 0x99 => 1 | 0xAA => 2 | 0xB4 => 3 | 0xCC => 4 | 0xD2 => 5 | 0xE1 => 6 | 0xFF => 7
    | _ => 0

/-- Ethernet bytes in blocks, with the frame that is open before them. -/
def streamBytes : Bool → List Nat → Int
  | _, [] => 0
  | was, b :: r => frameBytes was b + streamBytes (openAfter was b) r

/-- The next slice block of a stream: the header of a group block with the TRACE_TX of the active bank, or a payload unit, scrambled (R193, R194, R370). -/
def Device.ingressBlock (d : Device) (c : ClientStream) : Device × SliceBlock :=
  let x := d.clientSide c.key
  if x.pos = 0 then
    let r := takeIngress areaLength x
    (((d.putClient c.key { r.2.2 with units := areaUnits r.1, pos := 1 }).countBytes c.port (streamBytes x.inFrame r.1)).count (Reg.lanePortIdleIns c.port) r.2.1,
      ⟨groupHeader x.seq false (d.fab.active.group c.group).traceTx, false⟩)
  else
    (d.putClient c.key { x with units := x.units.drop 1, pos := (x.pos + 1) % 256, seq := if x.pos = 255 then (x.seq + 1) % 2 ^ 32 else x.seq },
      ⟨x.units.headD 0 ^^^ scramblerUnit x.pos, false⟩)

/-- A stream fills its input slots of the cycle from the blocks that came; a failed one gives none, and its adaptation begins anew. -/
def Device.fillStream (came : List Nat) (c : ClientStream) (x : Device × List (Nat × SliceBlock)) : Device × List (Nat × SliceBlock) :=
  let d := x.1
  let s := d.clientSide c.key
  if d.streamFailed c then (d.putClient c.key { s with waiting := [], inFrame := false, units := [], pos := 0 }, x.2)
  else
    (List.range c.slots).foldl (fun (a : Device × List (Nat × SliceBlock)) k =>
      let r := a.1.ingressBlock c
      (r.1, tblPut a.2 (c.first + k) r.2)) (d.putClient c.key { s with waiting := s.waiting ++ came }, x.2)

/-- What the client ports place in their input slots in a cycle, by port; `came`: the 66b blocks of each stream, by port and first slot. -/
def Device.fillPorts (d : Device) (came : Nat → Nat → List Nat) : Device × List (Nat × List (Nat × SliceBlock)) :=
  d.clientStreams.foldl (fun x c =>
    let r := Device.fillStream (came c.port c.first) c (x.1, tblGetD x.2 c.port [])
    (r.1, tblPut x.2 c.port r.2)) (d, [])

/-! ### Egress (R370, R372) -/

/-- A slice block that an output slot of a client port puts out goes to the item area that its stream collects; a complete one becomes blocks. -/
def Device.deliver (d : Device) (key g : Nat) (b : SliceBlock) : Device :=
  match d.clientStreams.find? (fun c => c.port == key / 2 ^ 24 && c.group == g && decide (c.first ≤ key % 2 ^ 24 ∧ key % 2 ^ 24 < c.first + c.slots)),
      (d.grp g).grid with
  | some c, some t =>
    let x := d.clientSide c.key
    if t.pos = 0 then d.putClient c.key { x with area := [] }
    else if x.area.length + 1 ≠ t.pos then d
    else
      let us := x.area ++ [b.data ^^^ scramblerUnit t.pos]
      d.putClient c.key (if t.pos = 255 then { x with area := [], out := x.out ++ areaBlocks us } else { x with area := us })
  | _, _ => d

/-- The next n blocks towards the partner: between frames an idle block is deleted while more blocks wait than the rate takes. None where too few wait. Fuel
bounds the blocks looked at. -/
def takeEgress : Nat → Nat → ClientSide → Option (List Nat × Nat × ClientSide)
  | _, 0, x => some ([], 0, x)
  | 0, _ + 1, _ => none
  | f + 1, n + 1, x =>
    match x.out with
    | [] => none
    | b :: r =>
      if betweenFrames x.outFrame && isIdle b && decide (n + egressDepth < r.length) then
        (takeEgress f (n + 1) { x with out := r }).map (fun y => (y.1, y.2.1 + 1, y.2.2))
      else (takeEgress f n { x with out := r, outFrame := openAfter x.outFrame b }).map (fun y => (b :: y.1, y.2))

/-- Output slots of a stream that carry its group. -/
def Device.egressSlots (d : Device) (c : ClientStream) : Nat :=
  ((d.fab.active.members c.group).filter (fun e => decide (slotKey c.port c.first ≤ e.1 ∧ e.1 < slotKey c.port c.first + c.slots))).length

/-- The egress buffer of a stream cannot give a cycle's blocks. -/
def Device.starved (d : Device) (c : ClientStream) : Bool :=
  let x := d.clientSide c.key
  (takeEgress x.out.length c.perCycle x).isNone

/-- The rate of a stream is short: its egress group has fewer than n slots, or its buffer under-runs (fault [4], R372). -/
def Device.rateShort (d : Device) (c : ClientStream) : Bool := decide (d.egressSlots c < c.slots) || d.starved c

/-- What a stream sends its partner: 1 Local Fault for a short or starved group, one under SF, or a FlexE client with a calendar slot on a removed PHY; 2 Remote
Fault while the port has failed and no such cause holds; 0 its blocks (R372, R374, Table 15.3). -/
def Device.streamSignal (d : Device) (c : ClientStream) : Nat :=
  let g := d.grp c.group
  if d.rateShort c || d.sendsAis c.group g then 1
  else if d.streamFailed c then (if d.flexMember c.port then 1 else 2)
  else 0

/-- A stream's blocks of a cycle towards its partner, with the signal that replaces them. -/
def Device.sendStream (d : Device) (c : ClientStream) : Device :=
  let x := d.clientSide c.key
  let n := c.perCycle
  let sig := d.streamSignal c
  let t := takeEgress x.out.length n x
  let y := match t with
    | some y => y
    | none => ([], 0, x)
  let d := (d.putClient c.key y.2.2).count (Reg.lanePortIdleDel c.port) y.2.1
  let d := if sig = 0 then d.countBytes (0x80 + c.port) (streamBytes x.outFrame y.1) else d
  let d := { d with lane := { d.lane with sent := d.lane.sent ++ (if sig = 0 then [] else [(c.key, sig)]) } }
  d.send (.pcs c.port c.first (if sig = 1 then List.replicate n localFaultBlock else if sig = 2 then List.replicate n remoteFaultBlock else y.1))

/-! ### The mate link's lanes (R376, R378) -/

/-- Data blocks of a lane in a cycle, and of a codeword. -/
def laneData : Nat := 10541
def wordData : Nat := 127

/-- The parity block of a codeword: 120 parity bits in [127:8]. -/
def parityBlock (l : List Nat) : Nat := gf2Rem 120 (bchGenerator 8) (unitsBits l ++ List.replicate 120 false) * 2 ^ 8

/-- A lane's data blocks after its mark: scrambled from the first of them, each 127 followed by their parity. -/
def laneBlocks (data : List Nat) : List Nat :=
  let l := (List.range laneData).map (fun k => data.getD k 0 ^^^ scramblerUnit (k + 1))
  (cutEach wordData 83 l).flatMap (fun w => w ++ [parityBlock w])

/-- A received codeword of 128 blocks: its data blocks and how many bits were corrected; none where it cannot be corrected. -/
def laneDecode (w : List Nat) : Option (List Nat × Nat) :=
  (bchDecode 8 120 ((unitsBits w).take (128 * wordData + 120))).map (fun r => (bitPieces 128 wordData r.1, r.2))

/-- A lane's blocks after its mark, decoded and descrambled: its data, those of a codeword that cannot be corrected with the poison mark; how many codewords
were corrected, and how many could not be (R376). -/
def laneReceived (l : List Nat) : List SliceBlock × Nat × Nat :=
  let ws := (cutEach 128 83 l).map (fun w => (w, laneDecode w))
  let data : List (Nat × Bool) := ws.flatMap (fun e => match e.2 with
    | some r => r.1.map (fun b => (b, false))
    | none => (e.1.take wordData).map (fun b => (b, true)))
  (data.zipIdx.map (fun e => ⟨e.1.1 ^^^ scramblerUnit (e.2 + 1), e.1.2⟩),
    (ws.filter (fun e => e.2.any (fun r => r.2 != 0))).length, (ws.filter (fun e => e.2.isNone)).length)

/-- The number of a calendar cycle (Table 15.5). -/
def Device.cycleNow (d : Device) : Nat := d.now / fuCycle

/-- The lanes that the transmitter deals to in a cycle: NEXT_LANES from cycle SWITCH on (R379). -/
def Device.txDeal (d : Device) : Nat :=
  match d.lane.txNext with
  | some (next, cycle) => if cycle ≤ d.cycleNow then next else d.get Reg.laneMateTxLanes
  | none => d.get Reg.laneMateTxLanes

/-- The lanes that the partner deals to in a cycle of its own, SWITCH being the low 8 bits of a cycle number (R379). -/
def Device.rxDealIn (d : Device) (cycle : Nat) : Nat :=
  match d.lane.rxNext with
  | some (next, sw) => if (cycle + 256 - sw % 256) % 256 < 128 then next else d.lane.rxDeal
  | none => d.lane.rxDeal

/-- The position on a stream of ctrl control blocks that slot s of the mate port takes, its lane among w and its place among that lane's data blocks (R378). -/
def dealLane (mask ctrl s : Nat) : Option Nat := laneAt mask ((ctrl + s) % laneCount mask)
def dealPlace (mask ctrl s : Nat) : Nat := (ctrl + s) / laneCount mask

/-- The data blocks of lane k of a deal: the stream's control blocks, then the slots' blocks. Lanes that carry no data idle. -/
def dealt (mask ctrl : Nat) (control : Nat → Nat) (slots : List Nat) (k : Nat) : List Nat :=
  match ((List.range 8).filter (bitAt mask ·)).findIdx? (· == k) with
  | none => []
  | some i => (List.range laneData).map (fun j =>
      let q := j * laneCount mask + i
      if q < ctrl then control q else slots.getD (q - ctrl) 0)

/-- The cycle of the partner whose blocks are complete: the oldest that waits, once every lane dealt to and locked has given it or some lane a later one
(R377: lanes are aligned by CYCLE). -/
def Device.mateCycle (d : Device) : Option Nat :=
  let l := d.lane.mateIn
  match l.map (·.2.1) with
  | [] => none
  | c :: r =>
    let c := r.foldl min c
    let lanes := (List.range 8).filter (fun k => bitAt (d.rxDealIn c) k && bitAt (d.get Reg.laneMateRxLanes) k)
    if lanes.all (fun k => l.any (fun e => e.1 == k && e.2.1 == c)) || l.any (fun e => decide (c < e.2.1)) then some c else none

/-- What the mate port gives its input slots in a cycle: the slots below U whose lanes gave their blocks. -/
def Device.fillMate (d : Device) : Device × List (Nat × SliceBlock) :=
  match d.mateCycle with
  | none => (d, [])
  | some c =>
    let mask := d.rxDealIn c
    let cells := (List.range (mateSlots mask d.lane.mateCtrl)).filterMap (fun s =>
      match dealLane mask d.lane.mateCtrl s with
      | none => none
      | some k => ((d.lane.mateIn.find? (fun e => e.1 == k && e.2.1 == c)).bind (fun e => e.2.2[dealPlace mask d.lane.mateCtrl s]?)).map (fun b => (s, b)))
    ({ d with lane := { d.lane with mateIn := d.lane.mateIn.filter (fun e => decide (c < e.2.1)) } }, cells)

end Sys2Proof.Machine
end

