-- ==== Sys2Proof/Machine/Fabric.lean ====
section
/-! DEFINITION. The slice fabric: edits of the next bank, bank swaps, the calendar boundary, group alignment and the
protection commands (chapter 08). -/

namespace Sys2Proof.Machine

/-! ### Edits (R185) -/

/-- A port code of Table 8.2. -/
def portOk (p : Nat) : Bool := decide (p ≤ 0x41)

/-- An entry's fields lie in their ranges for n slots: port codes valid and slots within 24 bits where the KIND names a source. -/
def entryFieldsOk (w n : Nat) : Bool :=
  let e := entryOf w
  decide (bits w 93 80 = 0) && (e.kind == 0 || e.kind == 3 || (portOk e.aPort && decide (e.aSlice + n ≤ 2 ^ 24))) &&
    (e.kind != 2 || (portOk e.bPort && decide (e.bSlice + n ≤ 2 ^ 24)))

/-- A group record's fields lie in the ranges of Table 8.4. -/
def groupFieldsOk (w : Nat) : Bool :=
  let r := groupRecOf w
  decide (r.prot ≤ 2 ∧ r.tim ≤ 2 ∧ bits w 73 72 = 0 ∧ r.holdOff ≤ 100 ∧ 1 ≤ r.wtr ∧ r.wtr ≤ 12 ∧ 1 ≤ r.allow ∧ r.allow ≤ 50)

/-- One edit record passes the field ranges of Tables 8.2 to 8.5 and the COUNT rules of R185. -/
def editOk (w : Nat) : Bool :=
  let op := editOp w
  decide (bits w 127 96 = 0) &&
    (if op = 1 then portOk (editPort w) && editCount w == 1 && decide (editSlot w ≤ 655359) && entryFieldsOk (editBody w) 1
     else if op = 2 then portOk (editPort w) && decide (1 ≤ editCount w ∧ editSlot w + editCount w ≤ 655360) && entryFieldsOk (editBody w) (editCount w)
     else if op = 3 then portOk (editPort w) && decide (1 ≤ editCount w ∧ editSlot w + editCount w ≤ 655360) && editBody w == 0
     else if op = 4 then portOk (editPort w) && editCount w == 0 && decide (editSlot w ≤ 655360) && bits (editBody w) 47 0 == 0
     else if op = 5 then editCount w == 0 && decide (editSlot w ≤ 655360) && groupFieldsOk (editBody w)
     else false)

/-- Writes one entry; an unassigned one (KIND 0) is not listed. -/
def Bank.setEntry (b : Bank) (port slot : Nat) (e : MapEntry) : Bank :=
  { b with entries := if e.kind = 0 then tblDel b.entries (slotKey port slot) else tblPut b.entries (slotKey port slot) e }

/-- OP 2: slot SLOT + i takes A_SLICE + i and B_SLICE + i. -/
def Bank.setRange (b : Bank) (port slot : Nat) (e : MapEntry) : Nat → Bank
  | 0 => b
  | n + 1 => (b.setRange port slot e n).setEntry port (slot + n) { e with aSlice := (e.aSlice + n) % 2 ^ 24, bSlice := (e.bSlice + n) % 2 ^ 24 }

/-- OP 3: the entries of a range become unassigned. -/
def Bank.clearRange (b : Bank) (port slot n : Nat) : Bank :=
  { b with entries := b.entries.filter (fun e => !decide (slotKey port slot ≤ e.1 ∧ e.1 < slotKey port slot + n)) }

/-- OP 4: OUT_SIZE and IN_SIZE of a port; a size of 0 is not listed. -/
def Bank.setSizes (b : Bank) (port outN inN : Nat) : Bank :=
  { b with outSize := tblSet b.outSize port outN 0, inSize := tblSet b.inSize port inN 0 }

/-- OP 5: the record of a group; a Default record is not listed. -/
def Bank.setGroup (b : Bank) (g : Nat) (r : GroupRec) : Bank :=
  { b with groups := tblSet b.groups g r groupRecDefault }

/-- Applies one edit record to a bank. -/
def applyEdit (w : Nat) (b : Bank) : Bank :=
  let body := editBody w
  match editOp w with
  | 1 => b.setEntry (editPort w) (editSlot w) (entryOf body)
  | 2 => b.setRange (editPort w) (editSlot w) (entryOf body) (editCount w)
  | 3 => b.clearRange (editPort w) (editSlot w) (editCount w)
  | 4 => b.setSizes (editPort w) (bits body 95 72) (bits body 71 48)
  | 5 => b.setGroup (bits body 95 80) (groupRecOf body)
  | _ => b

/-- Applies records in order. -/
def applyEdits (ws : List Nat) (b : Bank) : Bank := ws.foldl (fun x w => applyEdit w x) b

/-- A held write comes into the next bank: an edit, or a revert that rebuilds it from the active bank (R189). -/
def applyHeld (active : Bank) (h : List (Option Nat)) (b : Bank) : Bank :=
  h.foldl (fun x w => match w with
    | some r => applyEdit r x
    | none => active) b

/-- The code by which an upset names a group record: above every output slot. -/
def recordKey (g : Nat) : Nat := 0xFF000000 + g

/-- The group that an edit record names. -/
def editGroup (w : Nat) : Nat :=
  if editOp w = 1 ∨ editOp w = 2 then bits (editBody w) 79 64 else if editOp w = 5 then bits (editBody w) 95 80 else 0

/-- The 8 bytes of FAB_MAP_FAIL: reason, port, slot, group, 0. -/
def failWord (reason port slot group : Nat) : Nat := reason * 2 ^ 56 + port * 2 ^ 48 + slot * 2 ^ 24 + group * 2 ^ 8

/-- The next bank that an edit will change: the present one, or the one after the rebuild and the writes held before (R189). -/
def Device.editBase (d : Device) : Bank :=
  let b := if d.get Reg.fabMapNextState = 1 then d.fab.active else d.fab.next
  applyHeld b d.fab.held b

/-- The items of a bank that an edit record writes: an output slot's key, or the code of a group record. -/
def editWrites (w k : Nat) : Bool :=
  match editOp w with
  | 1 => k == slotKey (editPort w) (editSlot w)
  | 2 => decide (slotKey (editPort w) (editSlot w) ≤ k ∧ k < slotKey (editPort w) (editSlot w) + editCount w)
  | 3 => decide (slotKey (editPort w) (editSlot w) ≤ k ∧ k < slotKey (editPort w) (editSlot w) + editCount w)
  | 5 => k == recordKey (bits (editBody w) 95 80)
  | _ => false

/-- The next bank takes a new value in all three copies: copies that differed in what p names differ no more (R184, R185). -/
def Device.setNext (d : Device) (b : Bank) (p : Nat → Bool) : Device :=
  { d with fab := { d.fab with next := b, upsets := d.fab.upsets.filter (fun u => !(u.next && p u.key)) } }

/-- The next bank with the held writes applied, in their order (R189). -/
def Device.takeHeld (d : Device) (b : Bank) (all : Bool) : Device :=
  let d' := d.setNext (applyHeld d.fab.active d.fab.held b) (fun k => all || d.fab.held.any (fun h => match h with
    | some w => editWrites w k
    | none => true))
  { d' with fab := { d'.fab with held := [] } }

/-- Writes edit records to FAB_MAP_NEXT: all of them or none (R185); held while the next bank is rebuilding or a swap is
armed (R189). A refused BLOCK is reason 1 in FAB_MAP_FAIL (R186), with the first record out of its ranges. -/
def fabEdit (ws : List Nat) (d : Device) : Device × Reply :=
  if !ws.all editOk then
    (d.set Reg.fabMapFail (((ws.filter (!editOk ·)).head?.map (fun w => failWord 1 (editPort w) (editSlot w) (editGroup w))).getD 0),
      .fail (err stInvalidValue))
  else if 655360 < (applyEdits ws d.editBase).entries.length then (d.set Reg.fabMapFail (failWord 1 0 0 0), .fail (err stTableFull))
  else if d.get Reg.fabMapNextState = 0 then
    (d.setNext (applyEdits ws d.fab.next) (fun k => ws.any (editWrites · k)), .ok [])
  else ({ d with fab := { d.fab with held := d.fab.held ++ ws.map some } }, .ok [])

/-- A BLOCK of one edit record with the OP its row names (Table 8.5). -/
def fabEditOp (op : Nat) (q : Req) (rec : BitVec 192) (d : Device) : Device :=
  d.serve q 5 1 true Reg.fabMapNext.ref (fun _ d =>
    if editOp rec.toNat = op then d.domainWrite q Reg.fabMapNext.ref (beBytes 24 rec.toNat) (fun _ => fabEdit [rec.toNat])
    else (d, .fail (err stInvalidValue)))

/-- SET_ENTRY: edit record OP 1 (R185). -/
def execSetEntry (q : Req) (rec : BitVec 192) (s : State) : Host.Outcome State Fault Refusal := onDev s (fabEditOp 1 q rec)

/-- SET_RANGE: edit record OP 2 (R185). -/
def execSetRange (q : Req) (rec : BitVec 192) (s : State) : Host.Outcome State Fault Refusal := onDev s (fabEditOp 2 q rec)

/-- CLEAR_RANGE: edit record OP 3 (R185). -/
def execClearRange (q : Req) (rec : BitVec 192) (s : State) : Host.Outcome State Fault Refusal := onDev s (fabEditOp 3 q rec)

/-- PORT_SIZES: edit record OP 4 (R185). -/
def execPortSizes (q : Req) (rec : BitVec 192) (s : State) : Host.Outcome State Fault Refusal := onDev s (fabEditOp 4 q rec)

/-- GROUP_RECORD: edit record OP 5 (R185). -/
def execGroupRecord (q : Req) (rec : BitVec 192) (s : State) : Host.Outcome State Fault Refusal := onDev s (fabEditOp 5 q rec)

/-- Discards every edit: the rebuild of the next bank from the active bank begins, or waits while one runs or a swap is armed (R185, R189). -/
def applyRevert (v : Nat) (d : Device) : Device × Reply :=
  if v = 0 then (d, .ok (beBytes 4 0))
  else
    let d := d.journal Reg.fabMapRevert.ref v
    if d.get Reg.fabMapNextState = 0 then
      (({ d with fab := { d.fab with held := [none] } }).set Reg.fabMapNextState 1, .ok (beBytes 4 0))
    else ({ d with fab := { d.fab with held := d.fab.held ++ [none] } }, .ok (beBytes 4 0))

/-- FAB_MAP_REVERT (R185, R189). -/
def execFabMapRevert (q : Req) (v : Val) (s : State) : Host.Outcome State Fault Refusal :=
  onDev s (fun d => d.serve q 2 1 true Reg.fabMapRevert.ref (fun _ d => d.plainWrite Reg.fabMapRevert q v (fun d =>
    d.withhold q Reg.fabMapRevert.ref (applyRevert v.raw d))))

/-- FAB_MAP_SWAP: an action of class 0x0001, kind Calendar (R187). -/
def execFabMapSwap (q : Req) (v : Val) (s : State) : Host.Outcome State Fault Refusal :=
  onDev s (fun d => d.serve q 2 1 true Reg.fabMapSwap.ref (fun _ d => d.actionWrite Reg.fabMapSwap q v .calendar 0x0001 []))

/-! ### Validation pass (R186) -/

/-- A port that the carrier modes allow: a line port needs a group that begins there, or hub mode; the C1 member's codes are
invalid while bonded (R176). -/
def Device.portExists (d : Device) (p : Nat) : Bool :=
  if p < 0x20 then true
  else if p < 0x30 then bitAt (d.get (Reg.frmGroups 0)) (p - 0x20) || d.on (Reg.hubEnable 0)
  else if p < 0x40 then !d.on Reg.frmBondMode && (bitAt (d.get (Reg.frmGroups 1)) (p - 0x30) || d.on (Reg.hubEnable 1))
  else p ≤ 0x41

/-- Sum of the sizes of a port table. -/
def sizeSum (l : List (Nat × Nat)) : Nat := (l.map (·.2)).foldl (· + ·) 0

/-- Sum of sizes up to and including port p. -/
def sizeSumTo (l : List (Nat × Nat)) (p : Nat) : Nat := sizeSum (l.filter (fun e => e.1 ≤ p))

/-- Reason 2: the first port, ascending, whose size breaks R177 or R176. -/
def Device.badPort (d : Device) (b : Bank) : Option Nat :=
  (List.range 0x42).find? (fun p =>
    (!d.portExists p && (b.inOf p != 0 || b.outOf p != 0)) ||
    decide (655360 < sizeSumTo b.inSize p ∨ 655360 < sizeSumTo b.outSize p) ||
    (p == 0x40 && decide (84072 < b.inOf p ∨ 84072 < b.outOf p)))

/-- The slots a list of (port, slot) names ascend within one port. -/
def ascending : List (Nat × Nat) → Bool
  | [] => true
  | [_] => true
  | a :: b :: r => a.1 == b.1 && decide (a.2 < b.2) && ascending (b :: r)

/-- A group keeps R181: one output port, one KIND, sources ascending in one port per leg. -/
def Bank.groupFits (b : Bank) (g : Nat) : Bool :=
  let m := b.members g
  let k := (m.head?.map (·.2.kind)).getD 0
  let port := (m.head?.map (·.1 / 2 ^ 24)).getD 0
  m.all (fun e => e.2.kind == k && e.1 / 2 ^ 24 == port) &&
    (k == 3 || ascending (m.map (fun e => (e.2.aPort, e.2.aSlice)))) &&
    (k != 2 || ascending (m.map (fun e => (e.2.bPort, e.2.bSlice))))

/-- PROT agrees with KIND: 2 exactly when PROT is not 0 (Table 8.4). -/
def Bank.protFits (b : Bank) (g : Nat) : Bool :=
  (b.members g).all (fun e => (e.2.kind == 2) == ((b.group g).prot != 0))

/-- The first reason an entry breaks (3 to 6, 8), taking each group, and its record, at its lowest slot; `lost`: entries and records of the
next banks without a majority. -/
def Device.entryReason (d : Device) (lost : List Nat) (b : Bank) (e : Nat × MapEntry) : Option Nat :=
  let first := ((b.members e.2.group).head?.map (·.1)) == some e.1
  let srcBad (p s : Nat) : Bool := !portOk p || !d.portExists p || decide (b.inOf p ≤ s)
  if e.2.kind = 0 then some 8
  else if decide (b.outOf (e.1 / 2 ^ 24) ≤ e.1 % 2 ^ 24) then some 3
  else if (e.2.kind != 3 && srcBad e.2.aPort e.2.aSlice) || (e.2.kind == 2 && srcBad e.2.bPort e.2.bSlice) then some 4
  else if first && !b.groupFits e.2.group then some 5
  else if first && !b.protFits e.2.group then some 6
  else if lost.contains e.1 || (first && lost.contains (recordKey e.2.group)) then some 8
  else none

/-- The buffer a hitless group reserves, in bytes: n × 16 × (ceil(ALLOW / 12.8 µs) + 2) (R205). -/
def hitlessBytes (n allow : Nat) : Nat := n * 16 * (ceilDiv (allow * 1000) 128 + 2)

/-- The hitless groups of a bank, ascending, with their slot counts. -/
def Bank.hitless (b : Bank) : List (Nat × Nat) :=
  (b.groups.filter (fun e => e.2.prot == 2 && !(b.members e.1).isEmpty)).map (fun e => (e.1, (b.members e.1).length))

/-- Totals over hitless groups: slots (R205) and bytes. -/
def Bank.hitlessSlots (b : Bank) : Nat := (b.hitless.map (·.2)).foldl (· + ·) 0
def Bank.hitlessBuffer (b : Bank) : Nat := (b.hitless.map (fun e => hitlessBytes e.2 (b.group e.1).allow)).foldl (· + ·) 0

/-- Reason 7: the group whose reservation, in ascending order, first exceeds a limit. -/
def badHitless (b : Bank) : Nat → Nat → List (Nat × Nat) → Option Nat
  | _, _, [] => none
  | n, m, e :: r =>
    let n := n + e.2
    let m := m + hitlessBytes e.2 (b.group e.1).allow
    if decide (160000 < n ∨ 1073741824 < m) then some e.1 else badHitless b n m r

/-- The entries that the pass meets, ascending: those with a KIND other than 0, and the slots whose entry has no majority. -/
def metEntries (lost : List Nat) (es : List (Nat × MapEntry)) : List (Nat × MapEntry) :=
  (lost.filter (fun k => decide (k / 2 ^ 24 ≤ 0x41) && (tblGet es k).isNone)).foldl (fun t k => tblPut t k ⟨0, 0, 0, 0, 0, 0⟩) es

/-- The first group, ascending, whose record has no majority and that no entry names. -/
def lostRecord (lost : List Nat) (b : Bank) : Option Nat :=
  ((lost.filter (fun k => decide (recordKey 0 ≤ k ∧ k ≤ recordKey 0xFFFF) && (b.members (k - recordKey 0)).isEmpty)).map (· - recordKey 0)).foldl
    (fun m g => some (match m with | some x => min x g | none => g)) none

/-- The verdict of the pass on a bank: the FAB_MAP_FAIL value of the first offending item, in the order of R186. -/
def Device.passVerdict (d : Device) (lost : List Nat) (b : Bank) : Option Nat :=
  match d.badPort b with
  | some p => some (failWord 2 p 0 0)
  | none =>
    match (metEntries lost b.entries).findSome? (fun e => (d.entryReason lost b e).map (fun r => failWord r (e.1 / 2 ^ 24) (e.1 % 2 ^ 24) e.2.group)) with
    | some w => some w
    | none =>
      match lostRecord lost b with
      | some g => some (failWord 8 0 0 g)
      | none => (badHitless b 0 0 b.hitless).map (fun g => failWord 7 0 0 g)

/-- A swap that failed its pass: the next bank is unchanged, held edits are applied (Table 8.6, step 2), and swaps that waited need wait no longer. -/
def Device.swapPassFailed (d : Device) (w : Nat) : Device :=
  let d := (d.set Reg.fabMapFail w).takeHeld d.fab.next false
  (({ d with fab := { d.fab with passed := false } }).set Reg.fabMapNextState 0).releaseSwaps

/-! ### The three copies (R184, R186) -/

/-- What a copy holds of an item whose agreed word is w: none where it is uncorrectable. -/
def copyWord (w : Nat) (l : List Upset) (i : Fin 3) : Option Nat :=
  let mine := l.filter (fun u => u.copy == i)
  if mine.any (·.gone) then none else some (mine.foldl (fun x u => x ^^^ u.mask.toNat) w)

/-- The word on which two of three copies agree; none: no majority (assumption 160). -/
def majority (a b c : Option Nat) : Option Nat :=
  if a.isSome && (a == b || a == c) then a else if b.isSome && b == c then b else none

/-- The word of an item of a bank: an entry, or a group record. -/
def Bank.item (b : Bank) (k : Nat) : Nat :=
  if recordKey 0 ≤ k then groupRecWord (k - recordKey 0) (b.group (k - recordKey 0)) else entryWord (b.entry (k / 2 ^ 24) (k % 2 ^ 24))

/-- Writes the word of an item. -/
def Bank.setItem (b : Bank) (k w : Nat) : Bank :=
  if recordKey 0 ≤ k then b.setGroup (k - recordKey 0) (groupRecOf w) else b.setEntry (k / 2 ^ 24) (k % 2 ^ 24) (entryOf w)

/-- One of the two banks. -/
def Fabric.bank (f : Fabric) (next : Bool) : Bank := if next then f.next else f.active

/-- Votes on one item that copies differ in: the majority is rewritten into dissenting copies and counted; without one the item is added to the list. -/
def Device.voteItem (next : Bool) (x : Device × List Nat) (k : Nat) : Device × List Nat :=
  let d := x.1
  let l := d.fab.upsets.filter (fun u => u.next == next && u.key == k)
  let w := (d.fab.bank next).item k
  let copies := ([0, 1, 2] : List (Fin 3)).map (copyWord w l)
  match majority (copies.getD 0 none) (copies.getD 1 none) (copies.getD 2 none) with
  | none => (d, x.2 ++ [k])
  | some v =>
    let b := (d.fab.bank next).setItem k v
    let d := { d with fab := (if next then { d.fab with next := b } else { d.fab with active := b }) }
    let d := { d with fab := { d.fab with upsets := d.fab.upsets.filter (fun u => !(u.next == next && u.key == k)) } }
    (d.count Reg.fabVoteFixes (copies.filter (· != some v)).length, x.2)

/-- Votes on every item of a bank that p names, ascending; the items without a majority. -/
def Device.voteBank (d : Device) (next : Bool) (p : Nat → Bool) : Device × List Nat :=
  let ks := sortBy (fun a b => decide (a < b)) (((d.fab.upsets.filter (fun u => u.next == next && p u.key)).map (·.key)).eraseDups)
  ks.foldl (Device.voteItem next) (d, [])

/-- Copies come to differ as the operand says. -/
def Device.upset (d : Device) (l : List Upset) : Device := { d with fab := { d.fab with upsets := d.fab.upsets ++ l } }

/-- The pass over the three next banks for an armed swap: rewrites dissenting copies; on success input writes use the new port
table (Table 8.6, step 2). -/
def Device.swapPass (d : Device) (onFail : Err → Device → Device) : Device :=
  let v := d.voteBank true (fun _ => true)
  let d := v.1
  match d.passVerdict v.2 d.fab.next with
  | some w => onFail (err stInvalidCombination) (d.swapPassFailed w)
  | none => { d with fab := { d.fab with passed := true, writeTable := d.fab.next.inSize } }

/-- A bundle with a swap member, or a swap, that failed at its boundary leaves the next bank as it was, held edits applied, input writes under the active bank's table. -/
def Device.undoPass (d : Device) : Device :=
  let d := d.takeHeld d.fab.next false
  (({ d with fab := { d.fab with passed := false, writeTable := d.fab.active.inSize } }).set Reg.fabMapNextState 0).releaseSwaps

/-- The place of the write of FAB_MAP_SWAP in a bundle. -/
def swapMember (a : Action) : Option Nat := a.members.findIdx? (fun m => m.ref == Reg.fabMapSwap.ref)

/-- The action swaps the banks: class 0x0001, or a bundle with a swap member. -/
def swaps (a : Action) : Bool := a.cls == 0x0001 || (swapMember a).isSome

/-- A failing pass: a single swap fails at once (R30); a bundle keeps the failure of its member (R418). -/
def passFailed (a : Action) (e : Err) (d : Device) : Device :=
  match swapMember a with
  | none => d.failAction a e
  | some i => if a.prepFail.isSome then d else d.putAction { a with prepFail := some { e with member := i } }

/-- SWAP_VALIDATION_PASS: the pass of the armed swap ends (R186); `upsets`: what has come to differ in copies of the next bank. -/
def execSwapValidationPass (handle : BitVec 32) (upsets : List Upset) (s : State) : Host.Outcome State Fault Refusal :=
  onDev s (fun d =>
    match d.action? handle.toNat with
    | some a =>
      if a.armed.isSome ∧ swaps a ∧ !d.fab.passed ∧ d.get Reg.fabMapNextState = 2 then
        (d.upset upsets).swapPass (passFailed a)
      else d
    | none => d)

/-! ### The swap (R187, R204) -/

/-- A protected group keeps its requests, timers, selection and alignment across a swap (R204). -/
def keepsGroup (o n : Bank) (g : Nat) : Bool :=
  let key (b : Bank) := ((b.group g).prot, (b.members g).head?.map (fun e => (e.2.aPort, e.2.bPort)))
  decide (key o = key n)

/-- A point under the new bank: off where the leg is not monitored, kept where it was monitored on the same port, else in Hunt (R204). -/
def newPoint (on same : Bool) (p : MonPoint) : MonPoint := if !on then pointOff else if same && p.align != 0 then p else pointNew

/-- The time of SEQ 0 of a stream that goes on at its place in a group whose slots change from n to m at an instant. -/
def rebaseTime (now n m : Nat) (t : Option Int) : Option Int := t.map (fun x => x + now * (m : Int) - now * n)

/-- A leg's arrival time in a group whose slots change from n to m. -/
def rebasePoint (now n m : Nat) (p : MonPoint) : MonPoint := { p with norm := rebaseTime now n m p.norm }

/-- A hitless group's output time where its slots change from n to m. -/
def rebase (now n m : Nat) (s : GroupState) : GroupState := { s with outBase := rebaseTime now n m s.outBase }

/-- A group's state under the new bank (R204). -/
def Device.groupAfterSwap (d : Device) (o n : Bank) (g : Nat) : GroupState :=
  let s := d.grp g
  let prot := (n.group g).prot != 0
  let aPort (b : Bank) := (b.members g).head?.map (·.2.aPort)
  let bPort (b : Bank) := (b.members g).head?.map (·.2.bPort)
  let w := newPoint (n.monitored g) (aPort o == aPort n) s.w
  let p := newPoint prot (bPort o == bPort n) s.p
  noteBreak (n.group g).tim s
    (if prot && keepsGroup o n g then { rebase d.now (o.members g).length (n.members g).length s with
      w := rebasePoint d.now (o.members g).length (n.members g).length w, p := rebasePoint d.now (o.members g).length (n.members g).length p }
     else { groupNew with w := w, p := p, switches := s.switches, realigns := s.realigns, hdrErrors := s.hdrErrors, breaks := s.breaks,
                          grid := if (o.members g).isEmpty then none else s.grid })

/-- A newly protected group takes its current defects as requests at once, without hold-off, and the leg they give at the swap boundary (R204). -/
def Device.requestsNow (d : Device) (g : Nat) : Device :=
  let r := d.fab.active.group g
  let s := d.grp g
  if r.prot = 0 then d
  else
    let s : GroupState := evaluate d.now r (d.fab.active.members g).length { s with reqs := s.reqs ||| s.holding, holding := 0 }
    let t : GroupState := { s with selected := (s.pend.getLast?.map (·.2)).getD s.selected, pend := [] }
    d.putGrp g { t with ais := d.sendsAis g t }

/-- GTIM ends at a point whose group has TIM 0 (Table 8.8). -/
def Device.traceOff (d : Device) (g : Nat) : Device :=
  let s := d.grp g
  if (d.fab.active.group g).tim = 0 ∧ (bitAt s.w.raw 3 ∨ bitAt s.p.raw 3) then
    d.settleGroup g { s with w := { s.w with raw := withBit s.w.raw 3 false }, p := { s.p with raw := withBit s.p.raw 3 false } }
  else d

/-- Exchanges active and next: entries, groups and protection settings of the new bank take effect (Table 8.6, step 3). -/
def Device.exchange (d : Device) (gen : Nat) : Device :=
  let o := d.fab.active
  let n := d.fab.next
  let gs := n.groupList
  let fresh := gs.filter (fun g => !((n.group g).prot != 0 && keepsGroup o n g))
  let states := gs.foldl (fun t g => tblPut t g (d.groupAfterSwap o n g)) []
  let d := { d with fab := { d.fab with active := n, next := o, states := states, passed := false, writeTable := n.inSize,
                                        upsets := d.fab.upsets.map (fun (u : Upset) => { u with next := !u.next }) } }
  let d := d.refreshGroups
  let d := d.each gs (fun g x => x.traceOff g)
  let d := d.each fresh (fun g x => x.requestsNow g)
  let d := (((d.set Reg.fabMapGen gen).set Reg.fabMapNextState 1).bump Reg.fabSwaps)
  let d := (d.set Reg.fabHlRate n.hitlessSlots).set Reg.fabHlBuffer (ceilDiv n.hitlessBuffer 1024)
  let d := d.each (List.range 66) (fun p x => (x.set (Reg.fabPortIn p) (n.inOf p)).set (Reg.fabPortOut p) (n.outOf p))
  (d.set Reg.fabMapSwap gen).keepDomain Reg.fabMapActive.ref (n.stored gen)

/-- The next bank is rebuilt from the active bank; held edits follow in order; swaps that waited may be armed (R187, R189). -/
def Device.rebuilt (d : Device) : Device :=
  if d.get Reg.fabMapNextState = 1 then
    ((d.takeHeld d.fab.active true).set Reg.fabMapNextState 0).releaseSwaps
  else d

/-- NEXT_BANK_REBUILT (R187, step 4; R189; ACTION_BECOMES_LATE of R25). -/
def execNextBankRebuilt (s : State) : Host.Outcome State Fault Refusal := onDev s Device.rebuilt

/-! ### The calendar boundary (R175, R184, R203) -/

/-- A port's re-timing buffer; nothing given and nothing waiting. -/
def Device.retimeOf (d : Device) (p : Nat) : Retime := tblGetD d.fab.retime p ⟨[], [], false⟩
def Device.putRetime (d : Device) (p : Nat) (x : Retime) : Device := { d with fab := { d.fab with retime := tblSet d.fab.retime p x ⟨[], [], false⟩ } }

/-- A slip of a port is counted (R178). -/
def Device.slipped (d : Device) (p : Nat) (beyond : Bool) : Device := (d.bump (Reg.fabPortSlips p)).send (.slip p beyond)

/-- RETIMING_SLIP: a port's re-timing buffer under-runs, and every slice of the port is repeated for one cycle, or over-runs, and one waiting cycle is
dropped (R178). -/
def execRetimingSlip (port : Fin 66) (beyond : Bool) (s : State) : Host.Outcome State Fault Refusal :=
  onDev s (fun d =>
    if d.dead then d
    else
      let x := d.retimeOf port
      (d.putRetime port (if beyond then { x with queue := x.queue.drop 1 } else { x with again := true })).slipped port beyond)

/-- A whole cycle of a line port's slices reaches its re-timing buffer; one that finds two waiting is dropped (R178). -/
def Device.cycleArrives (d : Device) (p : Nat) (l : List (Nat × SliceBlock)) : Device :=
  let x := d.retimeOf p
  if 2 ≤ x.queue.length then d.slipped p true else d.putRetime p { x with queue := x.queue ++ [l] }

/-- What a port gives the cycle that ends, from the slices that came on it: after an under-run the cycle before, again; on a line port the cycle that waits
longest, and the cycle before where none waits; on a hub carrier's the bursts of the leaves that came, and nothing of the others. -/
def Device.retimed (d : Device) (p : Nat) (came : List (Nat × SliceBlock)) : Device × List (Nat × SliceBlock) :=
  let x := d.retimeOf p
  if x.again then (d.putRetime p { x with again := false }, x.last)
  else if 0x20 ≤ p ∧ p < 0x40 then
    match x.queue with
    | l :: r => (d.putRetime p { x with last := l, queue := r }, l)
    | [] => if x.last.isEmpty then (d, []) else if d.on (Reg.hubEnable ((p - 0x20) / 16)) then (d, []) else (d.slipped p false, x.last)
  else (d.putRetime p { x with last := came }, came)

/-- Slice blocks that carry the poison mark are read from a slice memory (R251). -/
def Device.poisonReads (d : Device) (l : List (Nat × SliceBlock)) : Device :=
  let n := (l.filter (·.2.poison)).length
  if n = 0 then d else d.count (Reg.memPoisonReads 1) n

/-- The entry that outputs read: none without a majority in this cycle (R184). -/
def readEntry (lost : List Nat) (key : Nat) (e : MapEntry) : MapEntry :=
  if lost.contains key then { e with kind := 0 } else e

/-- The source that an entry takes. -/
def sourceOf (e : MapEntry) (s : GroupState) : Nat × Nat := if e.kind = 2 ∧ s.selected = 1 then (e.bPort, e.bSlice) else (e.aPort, e.aSlice)

/-! ### The buffers of hitless groups (R206, R208) -/

/-- The number of a slice block on a grid: 256 SEQ + place. -/
def OutGrid.number (g : OutGrid) : Nat := g.seq % 2 ^ 32 * 256 + g.pos

/-- A number lies before another, as SEQ wraps. -/
def seqBefore (a b : Nat) : Bool := decide (seqSpan / 2 ≤ (a + seqSpan - b) % seqSpan)

/-- A leg's slice blocks of one cycle join its buffer of at most `room`, the oldest leaving, while the leg is in Sync; its grid goes on. -/
def bufferLeg (bad room : Nat) (sync : Bool) (l : List SliceBlock) (x : Option OutGrid × List (Nat × SliceBlock)) : Option OutGrid × List (Nat × SliceBlock) :=
  let y := l.foldl (fun (a : Option OutGrid × List (Nat × SliceBlock)) b =>
    let g := gridCarried bad b a.1
    (g, match g with
      | some t => if sync then a.2 ++ [(t.number, b)] else a.2
      | none => a.2)) x
  (y.1, y.2.drop (y.2.length - room))

/-- The number of the first slice block that a group of n slots sends in the cycle that ends: its output time with the two cycles of the fabric (R179, R206). -/
def firstNumber (now n : Nat) (base : Int) : Nat :=
  ((((now : Int) - 2 * (fuCycle : Nat)) * n - base) / (fuCycle : Nat) % (seqSpan : Nat)).toNat

/-- The slice block of a number that a hitless group sends: what the selected leg's buffer holds; fill in the gap that a later output time leaves (R208). -/
def GroupState.hitlessBlock (s : GroupState) (k : Nat) : SliceBlock :=
  let gap := match s.sent with
    | some t => seqBefore k t
    | none => false
  if gap then ⟨0, false⟩ else tblGetD (if s.selected = 0 then s.bufW else s.bufP) k ⟨0, false⟩

/-- The legs' slice blocks of a page go into the group's buffers (R206). -/
def Device.bufferGroup (d : Device) (page : List (Nat × SliceBlock)) (g : Nat) : Device :=
  let b := d.fab.active
  let m := b.members g
  let s := d.grp g
  let room := m.length * (ceilDiv ((b.group g).allow * 1000) 128 + 2)
  let cut (p a : Nat) : SliceBlock := tblGetD page (inAddr b.inSize p a) ⟨0, false⟩
  let w := bufferLeg (d.get Reg.fabOofBad) room (s.w.align == 3) (m.map (fun e => cut e.2.aPort e.2.aSlice)) (s.gridW, s.bufW)
  let p := bufferLeg (d.get Reg.fabOofBad) room (s.p.align == 3) (m.map (fun e => cut e.2.bPort e.2.bSlice)) (s.gridP, s.bufP)
  d.putGrp g { s with gridW := w.1, bufW := w.2, gridP := p.1, bufP := p.2 }

/-- A cycle of the group has been sent: the blocks before its end leave both buffers. -/
def Device.trimGroup (d : Device) (g : Nat) : Device :=
  let s := d.grp g
  let n := (d.fab.active.members g).length
  match s.outBase with
  | none => d
  | some o =>
    let k := (firstNumber d.now n o + n) % seqSpan
    let k := match s.sent with
      | some t => if seqBefore k t then t else k
      | none => k
    let rest (l : List (Nat × SliceBlock)) : List (Nat × SliceBlock) := l.filter (fun e => !seqBefore e.1 k)
    d.putGrp g { s with sent := some k, bufW := rest s.bufW, bufP := rest s.bufP }

/-- The hitless groups of the active bank. -/
def Device.hitlessGroups (d : Device) : List Nat := d.fab.active.hitless.map (·.1)

/-- The slice block that the source of an output slot gives: of a hitless group, the one due at its output time, and fill before it has one. -/
def Device.sourceBlock (d : Device) (page : List (Nat × SliceBlock)) (key : Nat) (e : MapEntry) : SliceBlock :=
  let s := d.grp e.group
  let m := d.fab.active.members e.group
  if e.kind = 2 ∧ (d.fab.active.group e.group).prot = 2 then
    match s.outBase with
    | none => ⟨0, false⟩
    | some o => s.hitlessBlock ((firstNumber d.now m.length o + (m.findIdx? (fun x => x.1 == key)).getD 0) % seqSpan)
  else
    let src := sourceOf e s
    tblGetD page (inAddr d.fab.active.inSize src.1 src.2) ⟨0, false⟩

/-- What an output slot carries that sends no slice-group AIS: the source's slice block or a fill block (R180, R183). A group with a source slot under a
condition that makes it fill (Table 6.8) is fill as a whole (R142), and a poisoned block leaves as fill, but towards the egress extractors at port 0x41
(Table 10.6, rows 1 and 4). -/
def Device.outputOf (d : Device) (page : List (Nat × SliceBlock)) (key : Nat) (e : MapEntry) : SliceBlock :=
  let s := d.grp e.group
  if e.kind = 0 then ⟨0, false⟩
  else
    let b := d.sourceBlock page key e
    if bitAt (d.legFlags e.group (if e.kind = 2 then s.selected else 0)) 3 then ⟨0, false⟩
    else if b.poison && key / 2 ^ 24 != 0x41 then ⟨0, false⟩
    else b

/-- The slice block of an output slot: slice-group AIS of its group, or what the source gives; the output's grid follows (R197). -/
def Device.sliceAt (d : Device) (page : List (Nat × SliceBlock)) (key : Nat) (e : MapEntry) : Device × SliceBlock :=
  let s := d.grp e.group
  if e.kind ≠ 0 ∧ s.ais then
    let a := gridAis s.grid
    (d.putGrp e.group { s with grid := some a.1 }, ⟨a.2, false⟩)
  else
    let b := d.outputOf page key e
    let grid := gridCarried (d.get Reg.fabOofBad) b s.grid
    (if e.kind = 0 ∨ grid = s.grid then d else d.putGrp e.group { s with grid := grid }, b)

/-- An output slot of a client, line or mate port meets a poisoned block (Table 10.6, row 1). -/
def Device.poisonedOut (d : Device) (page : List (Nat × SliceBlock)) (key : Nat) (e : MapEntry) : Bool :=
  e.kind != 0 && !(d.grp e.group).ais && key / 2 ^ 24 != 0x41 && (d.sourceBlock page key e).poison

/-- One output slot of the cycle is read and its slice block leaves, on port 0x41 to the extractor of its group, on a client port to the stream of its slots. -/
def Device.readSlot (d : Device) (page : List (Nat × SliceBlock)) (lost : List Nat) (key : Nat) : Device × SliceBlock :=
  let e := readEntry lost key (d.fab.active.entry (key / 2 ^ 24) (key % 2 ^ 24))
  let b := d.sourceBlock page key e
  let d := if e.kind = 1 ∨ e.kind = 2 then d.poisonReads [(key, b)] else d
  let r := (if d.poisonedOut page key e then d.consumed 1 0x3FF0 else d).sliceAt page key e
  let port := key / 2 ^ 24
  (if port = 0x41 then (if e.kind = 0 then r.1 else r.1.extract e.group r.2)
   else (if port < 0x20 ∧ e.kind ≠ 0 then r.1.deliver key e.group r.2 else r.1).send (.slice port (key % 2 ^ 24) r.2), r.2)

/-- The first n output slots of a port are read in order; their slice blocks. -/
def Device.readSlots (d : Device) (page : List (Nat × SliceBlock)) (lost : List Nat) (port : Nat) : Nat → Device × List SliceBlock
  | 0 => (d, [])
  | n + 1 =>
    let r := d.readSlots page lost port n
    let x := r.1.readSlot page lost (slotKey port n)
    (x.1, r.2 ++ [x.2])

/-- Output slots of a port that are read: on the mate port those below U, with a paired twin (R11, R378); on a line port those below N while its transmitter
runs (R135, R177); never one at or beyond OUT_SIZE. -/
def Device.slotsRead (d : Device) (p : Nat) : Nat :=
  let n := d.fab.active.outOf p
  if p = 0x40 then (if d.get Reg.twinState = 3 then min n (mateSlots d.txDeal d.lane.mateCtrl) else 0)
  else if 0x20 ≤ p ∧ p < 0x40 then
    let c := (p - 0x20) / 16
    let g := p % 16
    let of (m : Nat) : Nat := if d.get (Reg.lineTxState m) = 0 then 0 else d.txSlots m g
    if d.portExists p then min n (if d.on Reg.frmBondMode then of 0 + of 1 else of c) else 0
  else n

/-- A transmitter takes its N slice blocks of the cycle, fill where OUT_SIZE gives none, each under the crypt group that covers its slot; a slot beyond the
engines' capacity is sent as fill (R135, R318, R321). They become ready evenly over the cycle that begins (assumption 161). -/
def Device.takeCycle (d : Device) (c g : Nat) (l : List Nat) : Device :=
  if d.get (Reg.lineTxState c) = 0 then d
  else
    let n := d.txSlots c g
    let unit (k : Nat) : TxUnit :=
      let ready := d.now + (k + 1) * fuCycle / n
      if d.beyondEngines c g k true then ⟨0, k == 0, 128, ready⟩ else ⟨l.getD k 0, k == 0, d.cgOfSlot c g k true, ready⟩
    let x := d.txg c g
    d.putTxg c g { x with queue := x.queue ++ (List.range n).map unit }

/-- The slice blocks of a line port go to its transmitter, those of a bonded port to both members (R134, R135). -/
def Device.toLine (d : Device) (p : Nat) (l : List Nat) : Device :=
  let g := p % 16
  if !d.portExists p then d
  else if d.on Reg.frmBondMode then (d.takeCycle 0 g l).takeCycle 1 g (l.drop (d.txSlots 0 g))
  else d.takeCycle ((p - 0x20) / 16) g l

/-- One port's output slots of the cycle; those of the mate port are kept for its lanes. The bytes of line and mate ports are counted (R459). -/
def Device.readPort (page : List (Nat × SliceBlock)) (lost : List Nat) (p : Nat) (d : Device) : Device :=
  let r := d.readSlots page lost p (d.slotsRead p)
  let x := if 0x20 ≤ p ∧ p ≤ 0x40 then r.1.countBytes (0x80 + p) (sliceBytes r.2) else r.1
  if 0x20 ≤ p ∧ p < 0x40 then x.toLine p (r.2.map (·.data))
  else if p = 0x40 then { x with lane := { x.lane with mateOut := r.2.map (·.data) } } else x

/-- The selector of a protected group at a boundary: it takes the leg that the request in force gives, considering events at least one
cycle old (R203). -/
def selectorStep (now : Nat) (s : GroupState) : GroupState × Bool :=
  let due := s.pend.filter (fun e => decide (e.1 + fuCycle ≤ now))
  let s := { s with pend := s.pend.filter (fun e => decide (now < e.1 + fuCycle)) }
  match due.getLast? with
  | some e => if e.2 = s.selected then (s, false) else ({ s with selected := e.2, switches := (s.switches + 1) % 2 ^ 32 }, true)
  | none => (s, false)

/-- Moves the output time of a hitless group of n slots to lag a leg by 25.6 µs, counted (R206, R208). -/
def moveOutput (n : Nat) (s : GroupState) (p : MonPoint) : GroupState :=
  match p.norm with
  | none => s
  | some a => { s with outBase := some (a + (fuArm * n : Nat)), realigns := (s.realigns + 1) % 2 ^ 32 }

/-- After a switch of a hitless group: to an Unaligned leg the output time moves (R208). -/
def hitlessSwitch (r : GroupRec) (n : Nat) (s : GroupState) : GroupState :=
  let leg := if s.selected = 0 then s.w else s.p
  if r.prot = 2 ∧ legState r.allow n s leg = 2 then moveOutput n s leg else s

/-- A realign command takes effect: the output time is set as for a first alignment, by the first leg in Sync and then by the other (R206, R208). -/
def applyRealign (n : Nat) (s : GroupState) : GroupState :=
  if !s.realign then s
  else
    match s.w.norm, s.p.norm with
    | some a, some b =>
      let s := { s with realign := false, outBase := some (a + (fuArm * n : Nat)), firstAligned := true }
      if seqDiff (a + (fuArm * n : Nat)) b < 0 then moveOutput n s s.p else s
    | some a, none => { s with realign := false, outBase := some (a + (fuArm * n : Nat)), firstAligned := false }
    | none, b => { s with realign := false, outBase := b.map (· + ((fuArm * n : Nat) : Int)), firstAligned := false }

/-- One protected group at a calendar boundary (R203, R208). -/
def Device.groupBoundary (d : Device) (g : Nat) : Device :=
  let r := d.fab.active.group g
  let n := (d.fab.active.members g).length
  let s := d.grp g
  let sel := selectorStep d.now s
  let t := evaluate d.now r n (applyRealign n (if sel.2 then hitlessSwitch r n sel.1 else sel.1))
  let t := { t with ais := d.sendsAis g t }
  let d := if t = s then d else d.putGrp g t
  if sel.2 then d.notice Reg.fabPgSelected [g, t.selected] else d

/-- The input slices of a cycle, port by port through the re-timing buffers, written into a page at their input addresses (R175, R177, R178). Slots at or beyond
IN_SIZE are discarded. `came`: what the client ports, the mate port and the packet port place. -/
def Device.pageOf (d : Device) (came : List (Nat × List (Nat × SliceBlock))) : Device × List (Nat × SliceBlock) :=
  (List.range 0x42).foldl (fun x p =>
    let r := x.1.retimed p (tblGetD came p [])
    let in_ := r.2.filter (fun e => decide (e.1 < tblGetD d.fab.writeTable p 0))
    let y := if 0x20 ≤ p ∧ p ≤ 0x40 then r.1.countBytes p (sliceBytes (in_.map (·.2))) else r.1
    (y.poisonReads r.2, r.2.foldl (fun t e =>
      if e.1 < tblGetD d.fab.writeTable p 0 then tblPut t (inAddr d.fab.writeTable p e.1) e.2 else t) x.2)) (d, [])

/-- The 66b blocks that came on a stream, by its port and first slot. -/
def received (lanes : List LaneReport) (port first : Nat) : List Nat :=
  (((lanes.filter (fun r => r.port.val == port)).flatMap (·.rx)).filter (fun e => e.1 == first)).flatMap (fun e => e.2.map (·.toNat))

/-- The fabric as a cycle ends: its outputs, read under the active bank from the page written in the cycle before; dissenting copies are corrected and entries
without a majority treated as unassigned; its inputs, written into its own page (R175, R184). `lanes`: what the client ports received. -/
def Device.cycleEnds (d : Device) (lanes : List LaneReport) (upsets : List Upset) : Device :=
  let d := d.upset upsets
  let v := d.voteBank false (fun k => decide (k % 2 ^ 24 < d.fab.active.outOf (k / 2 ^ 24)))
  let d := v.1
  let lost := v.2
  let d := if lost.isEmpty then d
    else ((d.count Reg.fabVoteFails lost.length).takeSeq).notice Reg.fabVoteFails lost
  let page := if d.fab.pageWrite = 1 then d.fab.page0 else d.fab.page1
  let d := d.each d.hitlessGroups (fun g x => x.bufferGroup page g)
  let d := d.each (List.range 0x42) (Device.readPort page lost)
  let d := d.each d.hitlessGroups (fun g x => x.trimGroup g)
  let c := d.fillChannels
  let m := c.1.fillMate
  let p := m.1.fillPorts (received lanes)
  let r := p.1.pageOf (tblPut (tblPut p.2 0x40 m.2) 0x41 c.2)
  let f := r.1.fab
  { r.1 with fab := if f.pageWrite = 0 then { f with page0 := r.2, pageWrite := 1 } else { f with page1 := r.2, pageWrite := 0 } }

/-- The selectors at a boundary (R203). -/
def Device.selectorsMove (d : Device) : Device :=
  d.each (d.fab.active.groups.filter (fun e => e.2.prot != 0)) (fun e x => x.groupBoundary e.1)

/-! ### Group alignment (R195, R196, R206) -/

/-- One header at a point: alignment per R195, then the AIS and trace runs of Table 8.8 while in Sync. -/
def pointHeader (delta bad tim traceExp : Nat) (w : Nat) (poison : Bool) (p : MonPoint) : MonPoint × Bool :=
  let good := hcrcOk w && !poison
  let next := ghSeq w == (p.lastSeq + 1) % 2 ^ 32
  match p.align with
  | 1 => if good then ({ p with align := 2, okRun := 1, badRun := 0, lastSeq := ghSeq w, trace := ghTrace w }, false) else (p, false)
  | 2 =>
    if good && next then
      let n := p.okRun + 1
      ({ p with okRun := n, lastSeq := ghSeq w, trace := ghTrace w,
                align := if delta ≤ n then 3 else 2,
                raw := if delta ≤ n then withBit p.raw 0 false else p.raw,
                aisOn := 0, aisOff := 0, timOn := 0, timOff := 0 }, false)
    else ({ p with align := 1, okRun := 0 }, false)
  | 3 =>
    if good && next then
      let aisOn := if ghAis w then p.aisOn + 1 else 0
      let aisOff := if ghAis w then 0 else p.aisOff + 1
      let mis := decide (1 ≤ tim) && ghTrace w != traceExp
      let timOn := if mis then p.timOn + 1 else 0
      let timOff := if mis then 0 else p.timOff + 1
      let raw := if 3 ≤ aisOn then withBit p.raw 2 true else if 3 ≤ aisOff then withBit p.raw 2 false else p.raw
      let raw := if 3 ≤ timOn then withBit raw 3 true else if 3 ≤ timOff ∨ tim = 0 then withBit raw 3 false else raw
      ({ p with badRun := 0, lastSeq := ghSeq w, trace := if ghAis w then p.trace else ghTrace w,
                aisOn := aisOn, aisOff := aisOff, timOn := timOn, timOff := timOff, raw := raw }, false)
    else
      let n := p.badRun + 1
      let p := { p with badRun := n, lastSeq := (p.lastSeq + 1) % 2 ^ 32 }
      if bad ≤ n then ({ p with align := 1, badRun := 0, okRun := 0, norm := none, raw := withBit (withBit p.raw 0 true) 2 false }, true)
      else (p, true)
  | _ => (p, false)

/-- Hitless bookkeeping after a header at a leg of a group of n slots, whose blocks of 256 slice blocks follow each 256/n cycles (Table 8.1): the leg's arrival of SEQ 0, the output time of a first alignment, negative
slack on the selected leg (R206, R208). -/
def hitlessHeader (leg : Nat) (n : Nat) (arrival : Int) (s : GroupState) : GroupState :=
  let p := if leg = 0 then s.w else s.p
  if p.align ≠ 3 then s
  else
    let p := { p with norm := some (arrival * n - (p.lastSeq * 256 * fuCycle : Nat)) }
    let s := if leg = 0 then { s with w := p } else { s with p := p }
    match s.outBase with
    | none => { s with outBase := p.norm.map (· + ((fuArm * n : Nat) : Int)) }
    | some _ =>
      let slack := (slackOf s p).getD 0
      let other := if leg = 0 then s.p else s.w
      if !s.firstAligned && other.norm.isSome then
        let s := { s with firstAligned := true }
        if slack < 0 then moveOutput n s p else s
      else if slack < 0 ∧ s.selected = leg then moveOutput n s p
      else s

/-- GROUP_HEADER: a group block header at the expected position of a monitoring point (R195, R196, R206, R208). -/
def execGroupHeader (group : GroupNo) (leg : Fin 2) (header : BitVec 128) (poison : Bool) (arrival : Int) (s : State) :
    Host.Outcome State Fault Refusal :=
  onDev s (fun d =>
    let g := group.val
    let r := d.fab.active.group g
    let st := d.grp g
    let p := if leg = 0 then st.w else st.p
    if d.dead ∨ p.align = 0 then d
    else
      let d := if poison then d.consumed 2 0x3FF0 else d
      let x := pointHeader (d.get Reg.fabDelta) (d.get Reg.fabOofBad) r.tim r.traceExp header.toNat poison p
      let st' := if leg = 0 then { st with w := x.1 } else { st with p := x.1 }
      let st' := if x.2 then { st' with hdrErrors := (st'.hdrErrors + 1) % 2 ^ 32 } else st'
      let st' := if r.prot = 2 then hitlessHeader leg.val (d.fab.active.members g).length arrival st' else st'
      let changed := pointDefects (if leg = 0 then st'.w else st'.p) != pointDefects p
      (if changed then d.takeSeq else d).settleGroup g st')

/-- GLOF_EXPIRY: GOOF, or Sync, held for FAB_GLOF_MS declares or clears GLOF (Table 8.8). Stale when the point has changed
in the meantime (R32). -/
def execGlofExpiry (group : GroupNo) (leg : Fin 2) (declare : Bool) (s : State) : Host.Outcome State Fault Refusal :=
  onDev s (fun d =>
    let g := group.val
    let st := d.grp g
    let p := if leg = 0 then st.w else st.p
    if d.dead then d
    else
      let d := d.takeSeq
      if (declare && bitAt p.raw 0 && p.align != 0) || (!declare && p.align == 3 && bitAt p.raw 1) then
        let p := { p with raw := withBit p.raw 1 declare }
        d.settleGroup g (if leg = 0 then { st with w := p } else { st with p := p })
      else d.stale)

/-! ### Protection timers and commands (R200 to R202) -/

/-- HOLD_OFF_EXPIRY: an SF or SD present through HOLD_OFF becomes a request (R200); stale if it has cleared. -/
def execHoldOffExpiry (group : GroupNo) (leg : Fin 2) (degrade : Bool) (s : State) : Host.Outcome State Fault Refusal :=
  onDev s (fun d =>
    let g := group.val
    let k := leg.val * 2 + b2n degrade
    let st := d.grp g
    if d.dead then d
    else
      let d := d.takeSeq
      if bitAt st.holding k then
        d.putGrp g (evaluate d.now (d.fab.active.group g) (d.fab.active.members g).length { st with holding := withBit st.holding k false, reqs := withBit st.reqs k true })
      else d.stale)

/-- WTR_EXPIRY: wait-to-restore ends, the group enters NR and selects working (R201); it waits while the working leg is Unaligned (R208); stale if WTR has
ended (R203). -/
def execWtrExpiry (group : GroupNo) (s : State) : Host.Outcome State Fault Refusal :=
  onDev s (fun d =>
    let st := d.grp group.val
    if d.dead then d
    else
      let d := d.takeSeq
      if st.wtr && !st.wtrExpired then d.putGrp group.val (evaluate d.now (d.fab.active.group group.val) (d.fab.active.members group.val).length { st with wtrExpired := true }) else d.stale)

/-- A protection command on a group (R202): 0 Clear, 1 LO, 2 FS, 3 MS-P, 4 MS-W, 5 Realign. -/
def pgCommand (g cmd : Nat) (d : Device) : Device × Reply :=
  let r := d.fab.active.group g
  let st := d.grp g
  if r.prot = 0 ∨ (d.fab.active.members g).isEmpty then (d, .fail (err stInvalidValue))
  else if cmd = 5 then
    if r.prot = 2 then (d.putGrp g { st with realign := true }, .ok (beBytes 4 0)) else (d, .fail (err stInvalidValue))
  else if cmd = 0 then
    (d.putGrp g (evaluate d.now r (d.fab.active.members g).length { st with cmd := 0, wtr := false, wtrExpired := false }), .ok (beBytes 4 0))
  else if (cmd = 3 ∨ cmd = 4) ∧ (requestInForce st ≠ 0 ∧ requestInForce st < 7) then (d, .fail (err stNotPermitted))
  else (d.putGrp g (evaluate d.now r (d.fab.active.members g).length { st with cmd := cmd }), .ok (beBytes 4 0))

/-- A write of FAB_PG_CMD (R202). -/
def pgWrite (q : Req) (g : GroupNo) (cmd : Nat) (d : Device) : Device :=
  d.serve q 2 1 true Reg.fabPgCmd.ref (fun _ d =>
    d.plainWrite Reg.fabPgCmd q ⟨4, g.val * 2 ^ 16 + cmd * 2 ^ 8⟩ (pgCommand g.val cmd))

/-- PG_CLEAR: removes LO, FS and MS requests and ends WTR (R202). -/
def execPgClear (q : Req) (group : GroupNo) (s : State) : Host.Outcome State Fault Refusal := onDev s (pgWrite q group 0)

/-- LOCKOUT: LO (R202). -/
def execLockout (q : Req) (group : GroupNo) (s : State) : Host.Outcome State Fault Refusal := onDev s (pgWrite q group 1)

/-- FORCED_SWITCH: FS (R202). -/
def execForcedSwitch (q : Req) (group : GroupNo) (s : State) : Host.Outcome State Fault Refusal := onDev s (pgWrite q group 2)

/-- MANUAL_SWITCH_P: MS-P (R202). -/
def execManualSwitchP (q : Req) (group : GroupNo) (s : State) : Host.Outcome State Fault Refusal := onDev s (pgWrite q group 3)

/-- MANUAL_SWITCH_W: MS-W (R202). -/
def execManualSwitchW (q : Req) (group : GroupNo) (s : State) : Host.Outcome State Fault Refusal := onDev s (pgWrite q group 4)

/-- REALIGN: the output time of a hitless group is set at the next boundary (R208). -/
def execRealign (q : Req) (group : GroupNo) (s : State) : Host.Outcome State Fault Refusal := onDev s (pgWrite q group 5)

end Sys2Proof.Machine
end

