-- ==== Sys2Proof/Machine/FrameTx.lean ====
section
/-! DEFINITION. The transmit chain of a subcarrier group (Table 3.1): payload packed into line frames, encryption, scrambling, FEC encoding, symbol mapping,
and the stages that follow (chapters 03, 06, 13). -/

namespace Sys2Proof.Machine

/-! ### Payload of a block (R135) -/

/-- The 251 payload units of a block, each with its crypt group; how many at the end are stuff, and CYC_POS. -/
structure BlockFill where
  units : List (Nat × Nat)
  stuff : Nat
  cycPos : Nat

/-- Fills a block from the units ready by its end. Missing units are stuff, 3 at most, and fill before them (assumption 161); `whole` is the crypt group that
covers them (R319). A frame under AIS carries fill (R62). -/
def fillBlock (ais : Bool) (whole till : Nat) (q : List TxUnit) : BlockFill × List TxUnit :=
  let r := (q.takeWhile (fun u => decide (u.ready ≤ till))).take 251
  let units := r.map (fun u => (if ais then 0 else u.data, u.cg)) ++ List.replicate (251 - r.length) (0, whole)
  (⟨units, min 3 (251 - r.length), (r.findIdx? (fun u => u.first)).getD 255⟩, q.drop r.length)

/-- Payload units in the order of transmission under the invocations of an open segment (R322). -/
def Device.protectUnits (d : Device) (c g seg : Nat) : List (Nat × Nat) → List OpenCg → List Nat × List OpenCg
  | [], l => ([], l)
  | u :: r, l =>
    let x := d.protectUnit c g seg u.1 u.2 l
    let y := d.protectUnits c g seg r x.2
    (x.1 :: y.1, y.2)

/-! ### Overhead slots at their sending (R132, R154, R167, R324) -/

/-- The anchor fields: the first calendar cycle that begins at or after a frame's tick, the frame's count, and the symbols from the frame's first symbol to that
cycle's (R154, assumption 162). -/
def anchorWord (count tick : Nat) : Nat :=
  let n := ceilTo fuCycle tick
  n / fuCycle % 2 ^ 32 * 2 ^ 80 + count * 2 ^ 32 + (n - tick) * 208000 / fuCycle % 2 ^ 32

/-- The GMAC tag of a hub message to leaf l: over bits [511:128], under the current half of its pair; 0 without one (R167, R324). -/
def Device.hubTag (d : Device) (c g l counter w : Nat) : Nat :=
  let k := d.get (Reg.hubLeafKey (128 * c + l))
  let h := (d.pair k).cur
  if k = 0xFFFF ∨ h.state = 0 then 0
  else gcmTag h.key (ivOf c g (0x800 + l) 0 d.unitBit h.epoch counter) [w / 2 ^ 384 % 2 ^ 128, w / 2 ^ 256 % 2 ^ 128, w / 2 ^ 128 % 2 ^ 128] 384 [] 0

/-- A slot's word as it leaves in a frame: a hub message with its anchor and its tag, which takes as COUNTER the SEG of the segment that holds its block. -/
def Device.slotOut (d : Device) (c g : Nat) (f : TxFrame) (seg w : Nat) : Nat :=
  let t := slotType w
  let a := anchorWord f.count f.tick
  let w := if t = 0x20 then w + a * 2 ^ 352 else if t = 0x24 then w + a * 2 ^ 328 else w
  if 0x22 ≤ t ∧ t ≤ 0x25 then w + d.hubTag c g (bits w 503 496) seg w else w

/-! ### A frame (R127, R133) -/

/-- A frame under construction: the device, the units not yet sent, the open segment, engine mismatches not yet spent, and the blocks built. -/
structure FrameBuild where
  dev : Device
  queue : List TxUnit
  seg : Option (Nat × List OpenCg)
  faults : List Nat
  blocks : List (List Nat)

/-- When block b of a frame that ends at `till` begins. -/
def blockAt (f : TxFrame) (till b : Nat) : Nat := f.tick + b * (till - f.tick) / 16

/-- The segment of block b: blocks 2, 6, 10 and 14 begin one, and so does a block that finds none open (R322, assumption 161). -/
def FrameBuild.segment (x : FrameBuild) (c g : Nat) (f : TxFrame) (till b : Nat) : FrameBuild × Nat × List OpenCg :=
  match x.seg with
  | some s => if b % 4 = 2 then
      let o := x.dev.openSegment c g (blockAt f till b) f.keys x.faults
      ({ x with dev := o.1, faults := [] }, o.2)
    else (x, s)
  | none =>
    let o := x.dev.openSegment c g (blockAt f till b) f.keys x.faults
    ({ x with dev := o.1, faults := [] }, o.2)

/-- Builds block b with a message for its slot: header, slot, payload. A security slot carries SEC_SEG of the segment that the block before it ended. -/
def FrameBuild.block (x : FrameBuild) (c g : Nat) (t : TxGroup) (f : TxFrame) (till b slot : Nat) : FrameBuild :=
  let word := if b % 4 = 2 then
      (match x.seg with
        | some s => if x.dev.secActive c then x.dev.segWord c g s.1 s.2 else 0
        | none => 0)
    else slot
  let o := x.segment c g f till b
  let p := fillBlock f.ais ((x.dev.wholeCarrier c true).getD 128) (blockAt f till (b + 1)) x.queue
  let u := x.dev.protectUnits c g o.2.1 p.1.units o.2.2
  let w := x.dev.slotOut c g f o.2.1 word
  { o.1 with
    queue := p.2
    seg := some (o.2.1, u.2)
    blocks := x.blocks ++ [x.dev.blockHeader c g t f b p.1.stuff p.1.cycPos :: (List.range 4).map (fun k => w / 2 ^ (384 - 128 * k) % 2 ^ 128) ++ u.1] }

/-- The blocks of a frame before scrambling; `slots` holds the messages of the blocks still to build. -/
def FrameBuild.frame (x : FrameBuild) (c g : Nat) (t : TxGroup) (f : TxFrame) (till : Nat) : Nat → List Nat → FrameBuild
  | _, [] => x
  | b, s :: r => (x.block c g t f till b s).frame c g t f till (b + 1) r

/-- Scrambles or descrambles a frame: every unit but the headers (R133). -/
def scrambleFrame (blocks : List (List Nat)) : List (List Nat) :=
  blocks.zipIdx.map (fun b => b.1.zipIdx.map (fun u => if u.2 = 0 then u.1 else u.1 ^^^ scramblerUnit (255 * b.2 + u.2)))

/-! ### Encoding and mapping (R43, R106, R110) -/

/-- The codewords of a frame; `place` is the first one's place in the mapping period of `period` bits. -/
def encodeFrame (ov : Nat) (codes : List Nat) (period : Nat) : Nat → List (List Nat) → List Bool
  | _, [] => []
  | place, b :: r =>
    let w := encodeBlock ov codes place (unitsBits b)
    w ++ encodeFrame ov codes period ((place + w.length) % period) r

/-- A group's active subcarriers with their codes in ascending number (R43). -/
def Device.txActive (d : Device) (c g : Nat) : List (Nat × Nat) :=
  ((d.groupScs c g).map (fun k => (k, d.get (Reg.lineTxLoad c k)))).filter (fun e => effCode e.2 != 0)

/-- The stages after mapping with their settings in order (R45, R46, R48): the IQ and skew corrections as their ramp has them now (R47). -/
def Device.txStages (d : Device) (c g : Nat) : List TxStage :=
  let r := (d.cal.at c).txRamp.now
  (d.txActive c g).map (fun e => TxStage.shape e.1 ((2 * (e.1 : Int) - 15) * 8250) (25 * d.get (Reg.lineTxRolloff c))) ++
    [.dispersion (d.getI (Reg.lineTxPrecd c)), .iq ((r.drop 4).take 2) (r.drop 6), .skew (r.take 4),
     .emphasis ((recordsOf 4 (d.dom (Reg.lineTxEmph c).ref)).map (fun w => (w / 65536, toSigned 16 (w % 65536)))),
     .clip (d.get (Reg.lineTxClip c)), .convert (d.get (Reg.lineTxFullscale c))]

/-! ### Frames of a group (R127 to R131) -/

/-- TT_STAMP of a tick: nanoseconds modulo 2^28 and sixteenths (Table 6.3). -/
def ttStamp (t : Nat) : Nat := t / fuNs % 1000000000 % 2 ^ 28 * 16 + t % fuNs / 4096

/-- The frame of a group that has been under way ends at `till`: its blocks leave scrambled, and their codewords as symbols where the DAC outputs carry line
frames (Table 3.4). The bits that fill no mapping period stay for the next frame (R44). -/
def Device.endFrame (d : Device) (c g till : Nat) (f : TxFrame) : Device :=
  let t := d.txg c g
  let s := takeSlots g f.tick 16 0 (d.frm.at c).slots
  let d := { d with frm := d.frm.put c { d.frm.at c with slots := s.2 } }
  let x := (FrameBuild.mk d t.queue t.seg t.faults []).frame c g t f till 0 s.1
  let blocks := scrambleFrame x.blocks
  let scs := x.dev.txActive c g
  let codes := (x.dev.groupScs c g).map (fun k => x.dev.get (Reg.lineTxLoad c k))
  let bs := t.rest ++ encodeFrame (x.dev.overhead c) codes (periodBits scs) (t.rest.length % periodBits scs) blocks
  let m := mapStream scs bs.length bs
  let d := (x.dev.send (.frame c g blocks)).putTxg c g { t with queue := x.queue, seg := x.seg, faults := x.faults, rest := m.2, sending := none }
  if d.dacOut c = 0 then d else d.send (.symbols c g m.1 (d.txStages c g))

/-- A key half that the engine reads poisoned as a frame begins: that half is treated as erased (R328, Table 10.6). -/
def Device.poisonedKeys (d : Device) (c g : Nat) (pairs : List Nat) : Device :=
  let hit := (d.frameKeys c g).filter (fun (o : OpenCg) => o.live && pairs.contains o.pair)
  if hit.isEmpty then d
  else ((d.consumed 14 0x6FF0).each hit (fun o x => x.putPair o.pair { x.pair o.pair with cur := halfEmpty })).refreshCg

/-- A frame of a group begins at `tick` under the next FRAME_COUNT. Its payload is fill in Starting and Squelched (R62, R63); hub headers carry no RDI (R152). -/
def Device.beginFrame (d : Device) (c g tick : Nat) (pairs : List Nat) : Device :=
  let d := d.poisonedKeys c g pairs
  let x := d.txg c g
  let st := d.get (Reg.lineTxState c)
  let ref := c = d.loadCarrier c ∧ d.txReference c = some g
  let f : TxFrame :=
    { count := x.frameCount, tick := tick,
      stamp := if ref ∧ d.get Reg.schedTimeState ≠ 0 then ttStamp tick else 0xFFFFFFFF,
      ais := st == 1 || st == 2, rdi := x.rdi && !d.on (Reg.hubEnable c), keys := d.frameKeys c g }
  let d := if ref then { d with frm := d.frm.put c { d.frm.at c with tickAt := tick } } else d
  d.putTxg c g { x with frameCount := (x.frameCount + 1) % 2 ^ 48, sending := some f }

/-- The group has a subcarrier with a non-zero transmit code. -/
def Device.txCarries (d : Device) (c g : Nat) : Bool := (d.groupScs c g).any (fun k => d.get (Reg.lineTxLoad c k) != 0)

/-- TX_FRAME_TICK: at `tick`, which lies in the running calendar cycle, the frame of group g that was under way ends and the next begins, under a table that
waited for it (R131). A start of the reference group is a tick of the carrier's transmit frame clock (R130). `poison` names pairs whose current half is read
poisoned. -/
def execTxFrameTick (c : CarrierNo) (g : ScNo) (tick : Nat) (poison : List (BitVec 8)) (s : State) : Host.Outcome State Fault Refusal :=
  onDev s (fun d =>
    if d.get (Reg.lineTxState c) = 0 ∨ !bitAt (d.groupMask c) g ∨ tick < d.now ∨ nextMultiple fuCycle d.now ≤ tick ∨ d.txCarries c g = false then d
    else
      let d := { d with now := tick }
      let d := match (d.txg c g).sending with
        | some f => d.endFrame c g tick f
        | none => d
      let d := match (d.txg c g).due with
        | some t => d.txGroupTakes c g t.1 t.2
        | none => d
      if d.txCarries c g then d.beginFrame c g tick (poison.map (·.toNat)) else d)

end Sys2Proof.Machine
end

