-- ==== Sys2Proof/Machine/Framer.lean ====
section
/-! DEFINITION. The line framer: bonded mode, transmit frames, alignment, headers, defects, lost subcarriers (chapter 06). -/

namespace Sys2Proof.Machine

/-! ### Bonded mode and group layout (R125, R126) -/

/-- FRM_BOND_MODE written v: every state Off, no hub carrier under bonding, and the pool load (R117). -/
def bondCheck (v : Nat) (d : Device) : Option Err :=
  if !(d.carrierOff 0 && d.carrierOff 1) then some (err stNotPermitted)
  else if v = 1 && (d.on (Reg.hubEnable 0) || d.on (Reg.hubEnable 1)) then some (err stInvalidCombination)
  else
    d.loadCheck (poolLoadOf (d.on (Reg.lineRxEnable 0)) (d.on (Reg.lineRxEnable 1)) (d.get (Reg.fecOverhead 0))
      (d.get (Reg.fecOverhead (1 - v))) (d.get Reg.fecMinIter))

/-- Subcarriers that begin no group show no alignment, defects or trace. -/
def Device.clearNonGroups (d : Device) (c : Nat) : Device :=
  d.each ((List.range 16).filter (fun g => !bitAt (d.groupMask c) g)) (fun g x =>
    let x := ((x.set (Reg.frmAlignState c g) 0).set (Reg.frmDefects c g) 0).set (Reg.frmRxTrace c g) 0
    { x with frm := x.frm.put c { x.frm.at c with rx := tblDel (x.frm.at c).rx g, tx := tblDel (x.frm.at c).tx g } })

/-- The group layout of both carriers follows FRM_BOND_MODE, FRM_GROUPS and HUB_ENABLE. -/
def Device.layout (d : Device) : Device :=
  ((((d.clearNonGroups 0).clearNonGroups 1).setDeadlines).reportCapacity 0).reportCapacity 1

/-- Pending actions of C1's line frames move to C0's as the carriers are bonded (R22). -/
def Device.bondKinds (d : Device) : Device :=
  let f (a : Action) : Action := if a.kind = .lineC1 ∧ a.armed.isNone then { a with kind := .lineC0 } else a
  { d with sched := { d.sched with actions := d.sched.actions.map f, waiting := d.sched.waiting.map f } }

/-- Effect of a write of FRM_BOND_MODE: at once. -/
def applyBond (v : Nat) (d : Device) : Device :=
  let d := (d.putValue Reg.frmBondMode v).layout
  if v = 1 then d.bondKinds else d

/-- FRM_BOND_MODE (R126). -/
def execFrmBondMode (q : Req) (v : Val) (s : State) : Host.Outcome State Fault Refusal :=
  onDev s (fun d => d.serve q 2 1 true Reg.frmBondMode.ref (fun _ d =>
    d.plainWriteR Reg.frmBondMode .any q v (fun d =>
      match bondCheck v.raw d with
      | some e => (d, .fail e)
      | none => d.withhold q Reg.frmBondMode.ref (applyBond v.raw d, okWrite))))

/-- FRM_GROUPS written v (R125, R126, R151). -/
def groupsCheck (c v : Nat) (d : Device) : Option Err :=
  if v % 2 = 0 then some (err stInvalidValue)
  else if d.on Reg.frmBondMode && c == 1 then some (err stInvalidCombination)
  else if d.on (Reg.hubEnable c) || !d.carrierOff c then some (err stNotPermitted)
  else none

/-- Effect of a write of FRM_GROUPS. -/
def applyGroups (c v : Nat) (d : Device) : Device := (d.putValue (Reg.frmGroups c) v).layout

/-! ### Delineation and hunt (R137, R138) -/

/-- How many tables the delineation tests in turn: the one in force, the candidates, the start table once R100 added it. -/
def Device.testCount (d : Device) (c : Nat) : Nat :=
  let r := d.rx.at (d.loadCarrier c)
  1 + r.candidates.length + b2n r.startHunt

/-- The word that begins at the first of given ratios passes the test of R137 under the table under test: of its rotation-invariant checks on hard decisions
less than 35 % are unsatisfied. -/
def delineates (ov : Nat) (codes : List Nat) (place : Nat) (rs : List (Int × Nat × Nat)) : Bool :=
  let w := equationWord ov codes place (rs.map (fun e => hardBit e.1))
  let l := (allChecks ov).filter (fun e => Config.invariantCheck ov codes e.1 e.2)
  decide ((l.filter (fun e => !checkHolds ov w e.1 e.2)).length * 100 < 35 * l.length)

/-- n consecutive codewords of a group pass the test of R137. -/
def Device.delineated (d : Device) (c g : Nat) : Nat → List (Int × Nat × Nat) → Bool
  | 0, _ => true
  | n + 1, rs =>
    let place := (rs.head?.map (·.2.2)).getD 0
    let k := d.ratiosNeeded c g place
    decide (0 < k ∧ k ≤ rs.length) && delineates (d.overhead c) (d.wordCodes c g) place (rs.take k) && d.delineated c g n (rs.drop k)

/-- DELINEATION_ACCEPT: the start `start` ratios into the group's samples is tested on three consecutive codewords (R137). Accepted: to Hunt, the bit stream
kept from there. -/
def execDelineationAccept (c : CarrierNo) (g : ScNo) (start : Nat) (samples : List (Nat × List Sym)) (s : State) : Host.Outcome State Fault Refusal :=
  onDev s (fun d =>
    if d.get (Reg.frmAlignState c g) = 1 then
      let d := (d.putRxg c g { d.rxg c g with ratios := [] }).demap c samples
      let rs := (d.rxg c g).ratios.drop start
      if Config.startAllowed (d.overhead c) (d.wordCodes c g) ((rs.head?.map (·.2.2)).getD 0) && d.delineated c g 3 rs then
        let d := d.takeSeq.align c g 2
        d.putRxg c g { d.rxg c g with ratios := rs, hunted := 0, okRun := 0, fromSync := false }
      else d.putRxg c g { d.rxg c g with ratios := [] }
    else d)

/-- DELINEATION_TABLE_TIMEOUT: 2 ms under a table without a start: the next table is tested. -/
def execDelineationTableTimeout (c : CarrierNo) (g : ScNo) (s : State) : Host.Outcome State Fault Refusal :=
  onDev s (fun d =>
    if d.dead then d
    else
      let d := d.takeSeq
      if d.get (Reg.frmAlignState c g) = 1 then
        d.putRxg c g { d.rxg c g with testTable := ((d.rxg c g).testTable + 1) % d.testCount c }
      else d.stale)

/-- HUNT_BLOCK_LIMIT: 64 blocks without a valid header: to Delineate, under the next table, or from the table in force again where
the hunt came from Sync. -/
def execHuntBlockLimit (c : CarrierNo) (g : ScNo) (s : State) : Host.Outcome State Fault Refusal :=
  onDev s (fun d =>
    let x := d.rxg c g
    if d.get (Reg.frmAlignState c g) = 2 ∧ 64 ≤ x.hunted then
      let d := d.takeSeq.align c g 1
      d.putRxg c g { x with hunted := 0, testTable := if x.fromSync then 0 else (x.testTable + 1) % d.testCount c, fromSync := false }
    else d)

/-! ### Received blocks (R132, R136, R138, Table 6.7) -/

/-- A slot TYPE known to its class (Tables 6.4, 7.7, 11.5, 13.3). -/
def slotKnown (block t : Nat) : Bool :=
  match block % 4 with
  | 0 => decide (1 ≤ t ∧ t ≤ 4)
  | 1 => t == 0x10 || t == 0x11
  | 2 => t == 0x30
  | _ => decide (0x20 ≤ t ∧ t ≤ 0x25) || t == 0x40 || t == 0x41

/-- Counts a discarded overhead slot (R132): in a failed half, out of Sync, or of a TYPE unknown to its class. -/
def Device.slotSeen (d : Device) (c block t : Nat) (failed inSync : Bool) : Device :=
  if failed || !inSync || (t != 0 && !slotKnown block t) then d.bump (Reg.frmSlotDiscards c) else d

/-- A run of consecutive frames: n more when the bit holds, else from 0. -/
def runOf (b : Bool) (n : Nat) : Nat := if b then n + 1 else 0

/-- Sets raw bit k once `on` reaches n, clears it once `off` does. -/
def Device.rawByRuns (d : Device) (c g k on off n : Nat) : Device :=
  if n ≤ on then d.rawDefect c g k true else if n ≤ off then d.rawDefect c g k false else d

/-- Block 0 in Sync: FRAME_COUNT, AIS and RDI runs, and the end of a candidacy that R99's last case gives: SWITCH_FRAME counts frames of the reference group. -/
def Device.block0 (d : Device) (c g w : Nat) : Device :=
  let x := d.rxg c g
  let x := { x with frame := bhFrameCount w, stamp := bhStamp w, aisOn := runOf (bhAis w) x.aisOn, aisOff := runOf (!bhAis w) x.aisOff,
                    rdiOn := runOf (bhRdi w) x.rdiOn, rdiOff := runOf (!bhRdi w) x.rdiOff }
  let d := d.putRxg c g x
  let n := d.get (Reg.frmAisFrames c)
  let d := (d.rawByRuns c g 3 x.aisOn x.aisOff n).rawByRuns c g 4 x.rdiOn x.rdiOff n
  let lc := d.loadCarrier c
  let r := d.rx.at lc
  match r.outstanding, r.acked with
  | some t, some f =>
    if d.rxReference lc = some g ∧ c = lc ∧ f ≤ bhFrameCount w ∧ bhTable w ≠ t.table then
      let d := { d with rx := d.rx.put lc { r with outstanding := none, acked := none, candidates := r.candidates.filter (fun y => y.table != t.table) } }
      (d.loadIdle lc).reevaluate lc
    else d
  | _, _ => d

/-- Block 1 in Sync: the announcement, TRACE and TIM, BONDED and BMM. -/
def Device.block1 (d : Device) (c g w : Nat) : Device :=
  let x := d.rxg c g
  let miss := d.get (Reg.frmTraceCheck c) != 0 && bhTrace w != d.get (Reg.frmTraceExp c) % 2 ^ 24
  let diff := bhBonded w != d.on Reg.frmBondMode
  let x := { x with announced := if bhNextValid w then some (bhNextTable w, bhSwitchFrame w) else x.announced,
                    timOn := runOf miss x.timOn, timOff := runOf (!miss) x.timOff,
                    bmmOn := runOf diff x.bmmOn, bmmOff := runOf (!diff) x.bmmOff }
  let d := (d.putRxg c g x).set (Reg.frmRxTrace c g) (bhTrace w)
  (d.rawByRuns c g 6 x.timOn x.timOff 3).rawByRuns c g 8 x.bmmOn x.bmmOff 3

/-- Block 15: the switch announced for the next frame takes effect (R98, R131), whose count follows whether or not its header is read. -/
def Device.block15 (d : Device) (c g : Nat) : Device :=
  let next := ((d.rxg c g).frame + 1) % 2 ^ 48
  let d := d.putRxg c g { d.rxg c g with frame := next }
  match (d.rxg c g).announced with
  | some (t, f) =>
    if f = next ∧ d.on (Reg.hubEnable c) = false then
      match d.tableOf (d.loadCarrier c) t with
      | some lt => d.applyGroupTable c g lt
      | none => d
    else d
  | none => d

/-- Line slots of a block's payload units (R136). -/
structure SlotCount where
  slots : List (Option Nat)
  count : Option Nat
  slip : Bool

/-- Numbers the 251 units of a block from the count so far: STUFF left out, line slot 0 at CYC_POS. A CYC_POS that does not meet N is a slip. An invalid header
advances the count by 251. -/
def numberSlots (n : Nat) (count : Option Nat) (w : Nat) (valid : Bool) : SlotCount :=
  if !valid then ⟨(List.range 251).map (fun u => count.map (· + u)), count.map (· + 251), false⟩
  else
    let len := 251 - bhStuff w
    let p := bhCycPos w
    if p < len then
      ⟨(List.range 251).map (fun u => if len ≤ u then none else if p ≤ u then some (u - p) else count.map (· + u)), some (len - p),
        count.any (fun k => k + p != n)⟩
    else ⟨(List.range 251).map (fun u => if len ≤ u then none else count.map (· + u)), count.map (· + len), false⟩

/-- A cycle's line slots as slots of its fabric port: a bonded port's C1 slots follow C0's, a continuous leaf's lie where R157 puts them. -/
def Device.portCells (d : Device) (c g : Nat) (l : List (Nat × SliceBlock)) : List (Nat × SliceBlock) :=
  let n := d.rxSlots c g
  let l := l.filter (fun e => decide (e.1 < n))
  if d.on (Reg.hubEnable c) then
    l.filterMap (fun e => ((d.lineRanges c g).find? (fun r => decide (if r.2.1 = 32128 then 4016 ≤ e.1 else e.1 < 4016))).map (fun r =>
      (r.2.1 + (if r.2.1 = 32128 then e.1 - 4016 else e.1), e.2)))
  else l.map (fun e => ((d.linePort c g).2 + e.1, e.2))

/-- Cells of one leaf reach its port's re-timing buffer: into the first waiting cycle that has none of them, else as a new one (R157, R163). -/
def Device.cellsArrive (d : Device) (p : Nat) (cells : List (Nat × SliceBlock)) : Device :=
  let x := d.retimeOf p
  let free (l : List (Nat × SliceBlock)) : Bool := cells.all (fun e => (tblGet l e.1).isNone)
  match x.queue.findIdx? free with
  | some i => d.putRetime p { x with queue := x.queue.zipIdx.map (fun e => if e.2 = i then e.1 ++ cells else e.1) }
  | none => d.cycleArrives p cells

/-- A whole cycle of a group is complete at a mark that arrived at t: it goes to the re-timing buffer of its port. Of a bonded port the earlier member's waits for
the other's whose mark is the nearest; without one it goes alone (R136, R145, R146). -/
def Device.cycleDone (d : Device) (c g t : Nat) : Device :=
  let x := d.rxg c g
  let l := d.portCells c g x.cycle
  if x.cycle.isEmpty then d
  else if d.on (Reg.hubEnable c) then
    match d.lineRanges c g with
    | r :: _ => d.cellsArrive r.1 l
    | [] => d
  else if d.on Reg.frmBondMode then
    let p := 0x20 + g
    let y := d.rxg (1 - c) g
    let d := match x.whole with
      | some w => (d.putRxg c g { x with whole := none }).cycleArrives p w.2
      | none => d
    match y.whole with
    | some w =>
      if w.1 ≤ t + fuCycle / 2 ∧ t ≤ w.1 + fuCycle / 2 then (d.putRxg (1 - c) g { y with whole := none }).cycleArrives p (w.2 ++ l)
      else ((d.putRxg (1 - c) g { y with whole := none }).cycleArrives p w.2).putRxg c g { d.rxg c g with whole := some (t, l) }
    | none =>
      if d.get (Reg.frmAlignState (1 - c) g) = 4 then d.putRxg c g { d.rxg c g with whole := some (t, l) } else d.cycleArrives p l
  else d.cycleArrives (d.linePort c g).1 l

/-- A payload unit goes to its line slot of the cycle in progress; line slot 0 ends the cycle before it (R136). -/
def Device.deliverUnit (d : Device) (c g : Nat) (u : RxUnit) (b : SliceBlock) : Device :=
  let b := if u.fill then ⟨0, false⟩ else b
  match u.slot with
  | none => d
  | some 0 =>
    let d := d.cycleDone c g u.at_
    d.putRxg c g { d.rxg c g with cycle := [(0, b)] }
  | some k => d.putRxg c g { d.rxg c g with cycle := (d.rxg c g).cycle ++ [(k, b)] }

/-- Receiving crypt groups of a port in the order of their entries. -/
def Device.rxGroups (d : Device) (c g : Nat) : List Nat :=
  sortBy (fun a b => decide (cgId a < cgId b)) (d.cgTable.filter (fun w => cgRx w && d.cgCovers w c g))

/-- The slices of the cycle in which a slip falls become fill, those delivered and those held (R136). -/
def RxGroup.dropCycle (x : RxGroup) : RxGroup :=
  let n := (x.held.reverse.takeWhile (fun u => u.slot != some 0)).length
  let fill (l : List RxUnit) : List RxUnit := l.map (fun u => { u with fill := true })
  if n = x.held.length then { x with cycle := x.cycle.map (fun e => (e.1, ⟨0, false⟩)), held := fill x.held }
  else { x with held := x.held.take (x.held.length - n - 1) ++ fill (x.held.drop (x.held.length - n - 1)) }

/-- The segment of a frame in which block b lies (R322). -/
def segOfBlock (b : Nat) : Nat := if b < 2 then 3 else (b - 2) / 4

/-- The payload units of block e in Sync: descrambled, numbered, poisoned under an invalid header or a marked half; held for the segment's SEC_SEG where crypt
groups protect the port's receive direction (R119, R133, R136, R325). -/
def Device.takeUnits (d : Device) (c g e w : Nat) (good : Bool) (b : RxBlock) (arrival : Nat) : Device :=
  let x := d.rxg c g
  let k := numberSlots (d.rxSlots c g) x.slotCount w good
  let x := if k.slip then x.dropCycle else x
  let us : List RxUnit := k.slots.zipIdx.map (fun s =>
    { data := b.units.getD (s.2 + 5) 0 ^^^ scramblerUnit (255 * e + s.2 + 5), poison := !good || (if s.2 + 5 < 128 then b.mark0 else b.mark1),
      slot := s.1, seg := segOfBlock e, at_ := if s.1 = some 0 then arrival else 0, fill := false })
  let d := d.putRxg c g { x with slotCount := k.count }
  let d := if k.slip then d.bump (Reg.frmMapSlips c) else d
  if (d.rxGroups c g).isEmpty then
    let d := (d.each (d.rxg c g).held (fun u x => x.deliverUnit c g u ⟨0, false⟩)).each us (fun u x => x.deliverUnit c g u ⟨u.data, u.poison⟩)
    d.putRxg c g { d.rxg c g with held := [] }
  else d.putRxg c g { d.rxg c g with held := (d.rxg c g).held ++ us }

/-- Settles the table at the first block-0 header in Sync (Table 6.5): the frame's table comes into force if the receiver knows it.
Else, and later, TABLE must be that of the group: false counts as invalid. The frames of a continuous leaf follow its grant, whatever TABLE says (assumption 164). -/
def Device.settleTable (d : Device) (c g w : Nat) : Device × Bool :=
  let x := d.rxg c g
  if d.on (Reg.hubEnable c) then (d, true)
  else if x.settled then (d, bhTable w == x.table)
  else
    let d := d.putRxg c g { x with settled := true }
    if bhTable w = x.table then (d, true)
    else
      match d.tableOf (d.loadCarrier c) (bhTable w) with
      | some t => (d.applyGroupTable c g t, true)
      | none => (d, false)

/-- Frame is gained: RESTART and the start table's hunt end (R100). -/
def Device.frameGained (d : Device) (c : Nat) : Device :=
  let lc := d.loadCarrier c
  let r := d.rx.at lc
  if r.restarting || r.startHunt then
    let d := { d with rx := d.rx.put lc { r with restarting := false, startHunt := false } }.endLoad lc 4
    if r.outstanding.isNone then d.loadIdle lc else d.set (Reg.lineLoadState lc) (if r.acked.isSome then 3 else 2)
  else d

/-- What a good header of each block says. -/
def Device.headerFields (d : Device) (c g w : Nat) : Device :=
  match bhBlock w with
  | 0 => d.block0 c g w
  | 1 => d.block1 c g w
  | 2 => d.count (Reg.frmFarRei c) (bhRei w)
  | _ => d

/-- A frame with an invalid header in block 0 or 1 breaks the runs that header feeds (R140). -/
def RxGroup.breakRuns (x : RxGroup) (e : Nat) : RxGroup :=
  if e = 0 then { x with aisOn := 0, aisOff := 0, rdiOn := 0, rdiOff := 0 }
  else if e = 1 then { x with timOn := 0, timOff := 0, bmmOn := 0, bmmOff := 0 }
  else x

/-- The verdict on a header in Sync: HCRC, the BLOCK expected and, in block 0, TABLE; every header of a frame whose TABLE fails counts as invalid (R98, R138). -/
def Device.headerCheck (d : Device) (c g w : Nat) (valid : Bool) : Device × Bool :=
  let x := d.rxg c g
  if !(valid && bhBlock w == x.expect) then (d, false)
  else if x.expect = 0 then
    let r := d.settleTable c g w
    (r.1.putRxg c g { r.1.rxg c g with badTable := !r.2 }, r.2)
  else (d, !x.badTable)

/-- A block in Sync: FRM_OOF_BAD failures in a row lead to Hunt, keeping the delineation. The flag says whether the header was good. -/
def Device.blockInSync (d : Device) (c g w : Nat) (valid : Bool) : Device × Bool :=
  let e := (d.rxg c g).expect
  let r := d.headerCheck c g w valid
  let x := r.1.rxg c g
  let d := r.1.putRxg c g (if r.2 then { x with expect := (e + 1) % 16, badRun := 0 } else { x with expect := (e + 1) % 16, badRun := x.badRun + 1 }.breakRuns e)
  (if r.2 then d.headerFields c g w else d.bump (Reg.frmHdrErrors c), r.2)

/-- After a block in Sync: the switch announced for the next frame takes effect with block 15; too many bad headers end Sync. -/
def Device.afterBlock (d : Device) (c g e : Nat) : Device :=
  let d := if e = 15 then d.block15 c g else d
  if d.get (Reg.frmAlignState c g) = 4 ∧ d.get (Reg.frmOofBad c) ≤ (d.rxg c g).badRun then d.align c g 2 else d

/-- A block in Presync: the expected BLOCK counts; anything else leads back to Hunt. -/
def Device.blockInPresync (d : Device) (c g w : Nat) (valid : Bool) : Device :=
  let x := d.rxg c g
  if valid && bhBlock w == x.expect then
    let d := d.putRxg c g { x with okRun := x.okRun + 1, expect := (x.expect + 1) % 16 }
    if d.get (Reg.frmDelta c) ≤ x.okRun + 1 then
      let d := (d.align c g 4).frameGained c
      if bhBlock w = 0 then (d.settleTable c g w).1 else d
    else d
  else (d.align c g 2).putRxg c g { x with okRun := 0, hunted := 0 }

/-- A block in Hunt. -/
def Device.blockInHunt (d : Device) (c g w : Nat) (valid : Bool) : Device :=
  let x := d.rxg c g
  if valid then (d.align c g 3).putRxg c g { x with okRun := 1, expect := (bhBlock w + 1) % 16, hunted := 0 }
  else d.putRxg c g { x with hunted := x.hunted + 1 }

/-- Sets or clears BSK on both members of a bonded port. -/
def Device.setBsk (d : Device) (g : Nat) (b : Bool) : Device := (d.rawDefect 0 g 7 b).rawDefect 1 g 7 b

/-- Member skew of a bonded port, in 0.1 ns (R145): beyond ±1.0 µs BSK; within ±0.9 µs for 10 cycles it clears. -/
def Device.bondSkew (d : Device) (g : Nat) (x : Int) : Device :=
  let d := d.setI (Reg.frmBondSkew g) x
  let n := if x.natAbs ≤ 9000 then (d.rxg 0 g).bskOk + 1 else 0
  let d := d.putRxg 0 g { d.rxg 0 g with bskOk := n, mark := none, pairedAt := d.now }
  let d := d.putRxg 1 g { d.rxg 1 g with mark := none, pairedAt := d.now }
  if 10000 < x.natAbs then d.setBsk g true else if 10 ≤ n then d.setBsk g false else d

/-- A cycle mark of a member of a bonded port arrives at t, while both members are in Sync: it pairs with the other member's where that is the nearest, which gives
the skew of C1 relative to C0. No pair within 2 cycles is BSK (R140, R145). -/
def Device.pairMark (d : Device) (c g t : Nat) : Device :=
  if !d.on Reg.frmBondMode || d.get (Reg.frmAlignState 0 g) != 4 || d.get (Reg.frmAlignState 1 g) != 4 then d
  else
    let skew (u : Nat) : Int := if c = 1 then (t : Int) - u else (u : Int) - t
    match (d.rxg (1 - c) g).mark.filter (fun u => decide (2 * (skew u).natAbs ≤ fuCycle)) with
    | some u => d.bondSkew g (roundInt (skew u * 10) fuNs)
    | none =>
      let d := d.putRxg c g { d.rxg c g with mark := some t }
      if max (d.rxg 0 g).pairedAt (d.rxg 1 g).pairedAt + 2 * fuCycle < d.now then (d.putRxg 0 g { d.rxg 0 g with bskOk := 0 }).setBsk g true else d

/-- A block of a group in Sync: header, slot, payload, cycle mark (R132, R136, R138). -/
def Device.syncBlock (d : Device) (c g w : Nat) (valid : Bool) (b : RxBlock) (arrival : Nat) : Device :=
  let e := (d.rxg c g).expect
  let r := d.blockInSync c g w valid
  let slot := (b.units.getD 1 0 ^^^ scramblerUnit (255 * e + 1)) / 2 ^ 120
  let d := (r.1.slotSeen c e slot b.fail0 true).takeUnits c g e w r.2 b arrival
  let d := if r.2 && decide (bhCycPos w < 251 - bhStuff w) then d.pairMark c g arrival else d
  d.afterBlock c g e

/-- RX_BLOCK: the framer takes the next decoded block of group g; `arrival` is the instant of its cycle mark, where it has one. -/
def execRxBlock (c : CarrierNo) (g : ScNo) (arrival : Nat) (s : State) : Host.Outcome State Fault Refusal :=
  onDev s (fun d =>
    let st := d.get (Reg.frmAlignState c g)
    match (d.rxg c g).blocks with
    | [] => d
    | b :: r =>
      let d := d.putRxg c g { d.rxg c g with blocks := r }
      if st < 2 ∨ !bitAt (d.groupMask c) g then d
      else
        let d := d.takeSeq
        let w := b.units.headD 0
        let valid := !b.fail0 && hcrcOk w
        let d := if st = 4 then d.syncBlock c g w valid b arrival
          else (if st = 3 then d.blockInPresync c g w valid else d.blockInHunt c g w valid).slotSeen c 0 0 b.fail0 false
        if d.on Reg.frmBondMode then (d.publish 0).publish 1 else d.publish c)

/-! ### LOF and lost subcarriers (Table 6.7, R147) -/

/-- LOF_SET_EXPIRY: OOF for FRM_LOF_SET ms without a break. Stale when OOF has cleared, and under LOS, which masks LOF (R141). -/
def execLofSetExpiry (c : CarrierNo) (g : ScNo) (s : State) : Host.Outcome State Fault Refusal :=
  onDev s (fun d =>
    if d.dead then d
    else
      let d := d.takeSeq
      if bitAt (d.rxg c g).raw 1 ∧ !bitAt (d.rxg c g).raw 0 ∧ !d.rxEmpty c g then (d.rawDefect c g 2 true).publish c else d.stale)

/-- LOF_CLEAR_EXPIRY: in Sync for FRM_LOF_CLR ms without a break. -/
def execLofClearExpiry (c : CarrierNo) (g : ScNo) (s : State) : Host.Outcome State Fault Refusal :=
  onDev s (fun d =>
    if d.dead then d
    else
      let d := d.takeSeq
      if d.get (Reg.frmAlignState c g) = 4 ∧ bitAt (d.rxg c g).raw 2 then (d.rawDefect c g 2 false).publish c else d.stale)

/-- SC_LOST_EXPIRY: the equaliser of a subcarrier with a code has been in Idle or Blind for FRM_SC_LOST_MS: it is lost, and in automatic
mode due for code 0 (R147). -/
def execScLostExpiry (c : CarrierNo) (sc : ScNo) (s : State) : Host.Outcome State Fault Refusal :=
  onDev s (fun d =>
    if d.dead then d
    else
      let d := d.takeSeq
      let st := d.get (Reg.lineRxState c)
      if d.get (Reg.lineRxLoad c sc) ≠ 0 ∧ d.get (Reg.lineRxEqState c sc) ≤ 1 ∧ (st = 2 ∨ st = 3) ∧ !bitAt (d.get (Reg.frmScLost c)) sc then
        let d := ((d.setBit (Reg.frmScLost c) sc true).notice (Reg.frmScLost c) [sc.val]).groupStart c (d.groupOfSc c sc)
        if d.on (Reg.hubEnable c) then d else d.propose (d.loadCarrier c) (d.extraDue (d.loadCarrier c))
      else d.stale)

/-- SC_PROBE_EXPIRY: FRM_SC_PROBE seconds for an excluded subcarrier: code 24 is proposed for it, now or when the outstanding proposal
ends (R147). -/
def execScProbeExpiry (c : CarrierNo) (sc : ScNo) (s : State) : Host.Outcome State Fault Refusal :=
  onDev s (fun d =>
    if d.dead then d
    else
      let d := d.takeSeq
      let lc := d.loadCarrier c
      let r := d.rx.at lc
      let k := if d.on Reg.frmBondMode then 16 * c.val + sc.val else sc.val
      if r.excluded.contains k ∧ d.get (Reg.lineLoadMode lc) = 1 ∧ d.get (Reg.frmScProbe c) ≠ 0 ∧ !d.on (Reg.hubEnable c) then
        let d := { d with rx := d.rx.put lc { r with probes := r.probes.filter (· != 16 * c.val + sc.val) ++ [16 * c.val + sc.val] } }
        d.propose lc (d.extraDue lc)
      else d.stale)

end Sys2Proof.Machine
end

