-- ==== Sys2Proof/Machine/Memory.lean ====
section
/-! DEFINITION. Memories (chapter 10): the crumb sweep, the error log, poison, the MRAM target and the control matrix. -/

namespace Sys2Proof.Machine

/-! ### Errors (R254, Table 10.5) -/

/-- A record of Table 10.5. -/
def errRecord (time seq cls kind : Nat) (bySweep : Bool) (symbol address : Nat) : Nat :=
  time * 2 ^ 160 + seq % 2 ^ 64 * 2 ^ 96 + cls * 2 ^ 92 + kind * 2 ^ 90 + b2n bySweep * 2 ^ 89 + symbol * 2 ^ 72 + address % 2 ^ 64

/-- Appends a record to the ring of 256. -/
def Device.logError (d : Device) (r : Nat) : Device :=
  { d with mem := { d.mem with log := (d.mem.log ++ [r]).drop (d.mem.log.length + 1 - 256) } }

/-- A correctable error of a class in a memory that a block owns: counted; above the alarm rate its record carries the number of the event in effect. -/
def Device.correctable (d : Device) (cls : Nat) (bySweep : Bool) (symbol address owner : Nat) : Device :=
  let n := tblGetD d.mem.ceSecond cls 0 + 1
  let d := (d.bump (Reg.memCeCount (cls - 1))).countEvent (blockIndices.getD owner 0xFFF0) 3 cls
  let d := { d with mem := { d.mem with ceSecond := tblPut d.mem.ceSecond cls n } }
  let seq := if d.get (Reg.memCeAlarm (cls - 1)) < n then d.sched.cur else 0
  d.logError (errRecord (fuToTime96 d.now) seq cls 0 bySweep symbol address)

/-- An uncorrectable error of a class: an event, counted, latched in _BLK_FAULTS [0] of the block that owns the memory. KIND 2 where the
sweep stored poison. A block that becomes Degraded by it raises an event (R433). -/
def Device.uncorrectable (d : Device) (cls kind : Nat) (bySweep : Bool) (address owner : Nat) : Device :=
  let b := blockIndices.getD owner 0xFFF0
  let was := d.blockStateOf b
  let d := ((d.takeSeq.bump (Reg.memUeCount (cls - 1))).blockFault b 0).countEvent b 4 cls
  let r := errRecord (fuToTime96 d.now) d.sched.cur cls kind bySweep 0xFF address
  let d := (d.logError r).notice Reg.memErrLog [r]
  if was ≠ 2 ∧ d.blockStateOf b = 2 then d.takeSeq.notice (blkState b) [2] else d

/-- An uncorrectable error in the key store is what sensor [7] detects (Table 13.6). -/
def Device.keyStoreError (d : Device) (cls : Nat) : Device := if cls = 6 ∧ !bitAt (d.get Reg.secSensors) 7 then d.tamper 7 else d

/-- Stored poison: a unit by class and address. -/
def poisonKey (cls address : Nat) : Nat := cls * 2 ^ 48 + address
def Device.isPoisoned (d : Device) (cls address : Nat) : Bool := (tblGet d.mem.poisoned (poisonKey cls address)).isSome
def Device.setPoison (d : Device) (cls address : Nat) (b : Bool) : Device :=
  { d with mem := { d.mem with poisoned :=
      (if b then tblPut d.mem.poisoned (poisonKey cls address) 1 else tblDel d.mem.poisoned (poisonKey cls address)) } }

/-- The errors that a class's code corrects and detects in a unit (Table 10.3); class 3's parity detects one, and any odd count. -/
def codeOf (cls : Nat) : Nat × Nat :=
  match cls with
  | 3 => (0, 1)
  | 4 => (1, 3)
  | 5 => (2, 3)
  | _ => (1, 2)

/-- What a read finds in a unit with errors: 0 clean, 1 correctable, 2 uncorrectable; beyond what the code detects it is open (assumption 170). -/
def Device.readFinds (d : Device) (cls errs : Nat) : Nat :=
  let c := codeOf cls
  if errs = 0 then 0
  else if errs ≤ c.1 then 1
  else if errs ≤ c.2 ∨ (cls = 3 ∧ errs % 2 = 1) then 2
  else Config.beyondCode cls d.free % 3

/-- A free value has been taken where the code left it open. -/
def Device.tookBeyond (d : Device) (cls errs : Nat) : Device := if (codeOf cls).2 < errs then { d with free := d.free + 1 } else d

/-- An error that a block met: counted and logged as what its class's code makes of it (R254). -/
def Device.memError (d : Device) (e : MemError) : Device :=
  let cls := e.cls.val + 1
  let f := d.readFinds cls e.errs
  let d := d.tookBeyond cls e.errs
  if f = 0 then d
  else if f = 1 then d.correctable cls false (if cls = 4 then e.symbol.val else 0xFF) e.address e.owner
  else (d.uncorrectable cls 1 false e.address e.owner).keyStoreError cls

/-- A slice block of the page that the outputs read is uncorrectable: it is delivered with a poison mark (R249, R255). -/
def Device.markSlice (d : Device) (e : MemError) : Device :=
  let mark (t : List (Nat × SliceBlock)) : List (Nat × SliceBlock) :=
    t.map (fun c => if c.1 = e.address / 16 then (c.1, { c.2 with poison := true }) else c)
  if e.cls = 1 ∧ d.readFinds 2 e.errs = 2 then
    { d with fab := (if d.fab.pageWrite = 1 then { d.fab with page0 := mark d.fab.page0 } else { d.fab with page1 := mark d.fab.page1 }) }
  else d

/-- The errors that the blocks met in a cycle. -/
def Device.memErrors (d : Device) (l : List MemError) : Device := d.each l (fun e x => (x.markSlice e).memError e)

/-! ### The crumb sweep (R252, R253, Table 10.4) -/

/-- Where a class's position stands: the class, or 8 + stack for class 4. -/
def sweepPlace (cls stack : Nat) : Nat := if cls = 4 then 8 + stack else cls

/-- Code units of a place: bytes of 72 MiB, granules of 36 GiB in each stack, lines of 32 MiB, bytes of 64 KiB. -/
def sweepUnits (cls : Nat) : Nat :=
  match cls with
  | 1 => 72 * 1024 * 1024
  | 4 => 36 * 1024 * 1024 * 1024 / 64
  | 5 => 1024 * 1024
  | 6 => 64 * 1024
  | _ => 0

/-- The byte address of unit u: stack k holds the stripes s with s mod 4 = k (R244). -/
def sweepAddress (cls stack u : Nat) : Nat :=
  if cls = 4 then (u / 32 * 4 + stack) * 2048 + u % 32 * 64 else if cls = 5 then 32 * u else u

/-- A class is swept: a rate above 0 (class 6: fixed), and for class 4 a stack ready and in P0. -/
def Device.mayS (d : Device) (cls stack : Nat) : Bool :=
  sweepUnits cls != 0 && (cls == 6 || d.get (Reg.memSweepRate (cls - 1)) != 0) &&
    (cls != 4 || (d.get (Reg.memStackState stack) == 1 && !d.asleep resHbm))

/-- Every place of a class has been read to its end. -/
def Device.lapDone (d : Device) (cls : Nat) : Bool :=
  ((if cls = 4 then [8, 9, 10, 11] else [cls]).all (fun p => decide (sweepUnits cls ≤ tblGetD d.mem.pos p 0)))

/-- The end of a lap: its time recorded in whole milliseconds, a notice beyond MEM_LAP_LIMIT, and the next lap begins (R252). -/
def Device.endLap (d : Device) (cls : Nat) : Device :=
  if !d.lapDone cls then d
  else
    let t := d.now - tblGetD d.mem.lapStart cls 0
    let ms := t / fuMs
    let d := { d with mem := { d.mem with
      pos := (if cls = 4 then [8, 9, 10, 11] else [cls]).foldl (fun l p => tblDel l p) d.mem.pos, lapStart := tblPut d.mem.lapStart cls d.now } }
    let d := (d.set (Reg.memLapLast (cls - 1)) ms).set (Reg.memLapMax (cls - 1)) (max ms (d.get (Reg.memLapMax (cls - 1))))
    if d.get (Reg.memLapLimit (cls - 1)) * fuMs < t then d.notice (Reg.memLapLast (cls - 1)) [cls, ms] else d

/-- SWEEP_READ: the sweep reads the next unit of a class (class 4: of a stack), with `errs` wrong bits or symbols; `raced`:
another master writes the unit before the write-back; `owner`: the block that owns the memory (Table 18.4). -/
def execSweepRead (cls : Fin 6) (stack : Fin 4) (errs : Nat) (symbol : Fin 72) (raced : Bool) (owner : Fin 16) (s : State) :
    Host.Outcome State Fault Refusal :=
  onDev s (fun d =>
    let c := cls.val + 1
    let p := sweepPlace c stack
    let u := tblGetD d.mem.pos p 0
    if d.dead ∨ !d.mayS c stack ∨ sweepUnits c ≤ u then d
    else
      let a := sweepAddress c stack u
      let d := { d with mem := { d.mem with pos := tblPut d.mem.pos p (u + 1) } }
      let found := d.readFinds c errs
      let d := if d.isPoisoned c a then d else d.tookBeyond c errs
      let d :=
        if d.isPoisoned c a then d.bump (Reg.memPoisonReads (c - 1))
        else if found = 0 then d
        else
          let d := if raced then d.bump Reg.memSweepCancels else d
          if found = 1 then d.correctable c true (if c = 4 then symbol.val else 0xFF) a owner
          else if raced then (d.uncorrectable c 1 true a owner).keyStoreError c
          else ((d.setPoison c a true).uncorrectable c 2 true a owner).keyStoreError c
      d.endLap c)

/-- CE_RATE_SECOND: a second ends: each class whose correctable count rose by more than MEM_CE_ALARM raises an event (R254); MEM_STACK_FREE
takes the rates measured over it (R246). -/
def execCeRateSecond (stackFree : List (BitVec 32)) (s : State) : Host.Outcome State Fault Refusal :=
  onDev s (fun d =>
    if d.dead then d
    else
      let d := d.each [1, 2, 3, 4, 5, 6] (fun c x =>
        let n := tblGetD x.mem.ceSecond c 0
        if x.get (Reg.memCeAlarm (c - 1)) < n then x.takeSeq.notice (Reg.memCeCount (c - 1)) [c, n] else x)
      let d := { d with mem := { d.mem with ceSecond := [] } }
      d.each [0, 1, 2, 3] (fun k x => x.set (Reg.memStackFree k) ((stackFree[k]?).getD 0).toNat))

/-! ### MRAM and HBM as the matrix reaches them (R245, R248) -/

/-- The canonical form of a memory: addresses strictly rising, no byte listed that an unlisted address reads as. -/
def Memory.wf (m : List Host.Cell) : Bool := tblSorted m && m.all (fun e => e.2 != 0)

/-- Reads a byte; one that nothing has written reads as 0 (assumption 27). -/
def Memory.read (m : List Host.Cell) (a : Nat) : Byte := tblGetD m a 0

/-- Writes a byte. -/
def Memory.write (m : List Host.Cell) (a : Nat) (b : Byte) : List Host.Cell := tblSet m a b 0

/-- Writes bytes from an address on. -/
def Memory.writeAll (m : List Host.Cell) (a : Nat) : List Nat → List Host.Cell
  | [] => m
  | b :: r => Memory.writeAll (Memory.write m a (BitVec.ofNat 8 b)) (a + 1) r

/-- Byte k of an n-byte unit, most significant first (R5). -/
def byteOf (n v k : Nat) : Nat := v / 256 ^ (n - 1 - k) % 256

/-- The newest value of an MRAM line: waiting in the buffer, else written. -/
def Device.mramLine (d : Device) (l : Nat) : Nat :=
  match tblGet d.mem.mramBuf l with
  | some v => v
  | none => ofBytes ((List.range 32).map (fun k => (Memory.read d.mem.mram (32 * l + k)).toNat))

/-- Writes a line: at once, or, within a millisecond of its last write, into the buffer, replacing what waits there. -/
def Device.writeLine (d : Device) (l v : Nat) : Device :=
  let recent := d.mem.mramAt.filter (fun e => decide (d.now < e.2 + fuMs))
  if (tblGet recent l).isSome ∨ (tblGet d.mem.mramBuf l).isSome then
    { d with mem := { d.mem with mramBuf := tblPut d.mem.mramBuf l v, mramAt := recent } }
  else { d with mem := { d.mem with mram := Memory.writeAll d.mem.mram (32 * l) (beBytes 32 v), mramAt := tblPut recent l d.now } }

/-- An n-byte unit with byte k replaced. -/
def putByte (n v k b : Nat) : Nat := v - byteOf n v k * 256 ^ (n - 1 - k) + b % 256 * 256 ^ (n - 1 - k)

/-- The lines that `len` bytes at `a` touch. -/
def linesOf (a len : Nat) : List Nat := if len = 0 then [] else (List.range ((a + len - 1) / 32 + 1 - a / 32)).map (· + a / 32)

/-- A line after the bytes of a write that fall into it. -/
def mergeLine (a : Nat) (bs : List Nat) (l v : Nat) : Nat :=
  (List.range 32).foldl (fun w k =>
    let x := 32 * l + k
    if a ≤ x ∧ x < a + bs.length then putByte 32 w k (bs.getD (x - a) 0) else w) v

/-- A byte of MRAM as the matrix reads it, and of HBM. -/
def Device.mramByte (d : Device) (a : Nat) : Nat :=
  match tblGet d.mem.mramBuf (a / 32) with
  | some v => byteOf 32 v (a % 32)
  | none => (Memory.read d.mem.mram a).toNat
def Device.hbmByte (d : Device) (a : Nat) : Nat := (Memory.read d.mem.hbm a).toNat

/-! ### The control matrix (R258 to R260, Table 10.7) -/

/-- Bytes in a target: the key store's 64 KiB, MRAM's 32 MiB, HBM's 144 GiB; block windows by `mapped`. -/
def targetBytes (target : Nat) : Nat := if target = 1 then 2 ^ 25 else if target = 2 then 144 * 2 ^ 30 else 65536

/-- The address lies in a region of Table 10.1. -/
def inRegion (lo hi a len : Nat) : Bool := decide (lo ≤ a ∧ a + len ≤ hi + 1)
def inRing (a len : Nat) : Bool := inRegion 0x20C0000000 0x21BFFFFFFF a len
def inFlowTable (a len : Nat) : Bool := inRegion 0x2000000000 0x207FFFFFFF a len
def inFlowCounters (a len : Nat) : Bool := inRegion 0x2080000000 0x20BFFFFFFF a len
def inImages (a len : Nat) : Bool := inRegion 0x2200000000 0x223FFFFFFF a len

/-- Table 10.7: masters 0 core, 1 dictionary server, 2 telemetry DMA, 3 crumb sweep, 4 mirror engine, 5 debug; targets 0 block windows,
1 MRAM, 2 HBM control, 3 key store. `named`: the request is what the cell's condition names (a clear of latched or swept counters, a
class-1 memory). -/
def Device.permits (d : Device) (master target : Nat) (write named : Bool) (a len : Nat) : Bool :=
  match master, target with
  | 0, _ => true
  | 1, 3 => false
  | 1, _ => true
  | 2, 0 => !write || named
  | 2, 2 => if write then inRing a len || (named && inFlowCounters a len) else inFlowTable a len || inFlowCounters a len
  | 3, 0 => named
  | 3, 1 => true
  | 3, 2 => true
  | 4, 0 => !write
  | 4, 1 => !write
  | 4, 2 => inImages a len
  | 5, 0 => d.on Reg.memDebugEnable
  | 5, 1 => d.on Reg.memDebugEnable && !write
  | 5, 2 => d.on Reg.memDebugEnable
  | _, _ => false

/-- Masters served before m, from the master after the one last granted (R259). -/
def Device.ahead (d : Device) (target m : Nat) (rivals : List Nat) : Nat :=
  let at_ (x : Nat) : Nat := (x + 6 - (tblGetD d.mem.parked target 0 + 1) % 6) % 6
  (rivals.filter (fun r => decide (r ≠ m ∧ at_ r < at_ m))).length

/-- The clocks that a grant takes beyond the transactions ahead: none for the master on which an idle target is parked (R259). -/
def Device.grantClocks (d : Device) (target m : Nat) (rivals : List Nat) : Nat :=
  if tblGet d.mem.parked target = some m ∧ rivals.all (· == m) then 0 else 1

/-- The default target answers (R260). -/
def Device.defaultTarget (d : Device) (master resp a : Nat) : Device :=
  let d := (d.bump Reg.memDecodeErrors).set Reg.memDecodeLast (master * 2 ^ 56 + resp * 2 ^ 48 + a % 2 ^ 48)
  if master = 5 then d else d.takeSeq.notice Reg.memDecodeLast [master, resp, a]

/-- The memory class behind a target. -/
def targetClass (target : Nat) : Nat := if target = 1 then 5 else if target = 2 then 4 else if target = 3 then 6 else 1

/-- The unit of a target's class that holds an address. -/
def unitOf (target a : Nat) : Nat := if target = 1 then a / 32 * 32 else if target = 2 then a / 64 * 64 else a

/-- The units that a request of n bytes spans: one poisoned part poisons the whole (R257). -/
def unitsOf (target a n : Nat) : List Nat := ((List.range n).map (fun k => unitOf target (a + k))).eraseDups

/-- A poisoned response reaches its consumer: rows 9 and 10 for the core (data, or with `named` an instruction fetch), 8 the dictionary
server, 11 the telemetry DMA, 12 the mirror engine (Table 10.6). -/
def Device.matrixConsumed (d : Device) (master : Nat) (named : Bool) : Device :=
  match master with
  | 0 => d.consumed (if named then 10 else 9) 0xFFF0
  | 1 => d.consumed 8 0xFFF0
  | 2 => d.consumed 11 0x9FF0
  | 4 => d.consumed 12 0x7FF0
  | _ => d

/-- The answer to a request. -/
def Device.matrixAnswer (d : Device) (master target resp ahead clocks : Nat) (data : List Nat) (poison : Bool) : Device :=
  d.send (.matrix master target resp ahead clocks data poison)

/-- A permitted read: the errors found on it, the data, the poison mark (R251, R255). -/
def Device.matrixRead (d : Device) (master target a len ahead : Nat) (clocks : Nat) (named : Bool) (errs symbol owner : Nat) : Device :=
  let cls := targetClass target
  let u := unitOf target a
  let stored := (unitsOf target a len).any (d.isPoisoned cls)
  let found := d.readFinds cls errs
  let d := if stored then d else d.tookBeyond cls errs
  let d := if stored then d.bump (Reg.memPoisonReads (cls - 1))
    else if found = 1 then d.correctable cls false (if cls = 4 then symbol else 0xFF) u owner
    else if found = 2 then (d.uncorrectable cls 1 false u owner).keyStoreError cls
    else d
  let poison := stored || found == 2
  let d := if poison then d.matrixConsumed master named else d
  let data := (List.range len).map (fun k => if target = 1 then d.mramByte (a + k) else if target = 2 then d.hbmByte (a + k) else 0)
  d.matrixAnswer master target 0 ahead clocks (if target = 1 ∨ target = 2 then data else []) poison

/-- A permitted write: an aligned granule of HBM or "size not supported" (R245); MRAM merged line by line (R248). -/
def Device.matrixWrite (d : Device) (master target a ahead clocks : Nat) (bs : List Nat) : Device :=
  if target = 2 then
    if a % 64 ≠ 0 ∨ bs.length ≠ 64 then d.matrixAnswer master target 3 ahead clocks [] false
    else
      let d := d.setPoison 4 a false
      ({ d with mem := { d.mem with hbm := Memory.writeAll d.mem.hbm a bs } }).matrixAnswer master target 0 ahead clocks [] false
  else if target = 1 then
    (d.each (linesOf a bs.length) (fun l x => (x.setPoison 5 (32 * l) false).writeLine l (mergeLine a bs l (x.mramLine l)))).matrixAnswer
      master target 0 ahead clocks [] false
  else ((d.each (List.range bs.length) (fun k x => x.setPoison (targetClass target) (a + k) false))).matrixAnswer master target 0 ahead clocks [] false

/-- MATRIX_REQUEST: one transaction of a master at a target. `mapped`: a block window implements the address; `errs`: the wrong bits or
symbols of the unit read, at `symbol` of an HBM granule; `rivals`: masters that request the target on the same clock. The core's own request waits for the end of a gap (R261). -/
def execMatrixRequest (master : Fin 6) (target : Fin 4) (write : Bool) (address : BitVec 48) (data : List Byte) (len : Fin 65)
    (named mapped : Bool) (errs : Nat) (symbol : Fin 72) (owner : Fin 16) (rivals : List (Fin 6)) (s : State) : Host.Outcome State Fault Refusal :=
  onDev s (fun d =>
    if d.dead then d
    else
      let d := if master = 0 then d.afterGap else d
      let a := address.toNat
      let bs := (data.take 64).map (·.toNat)
      let n := if write then bs.length else len.val
      let ahead := d.ahead target master (rivals.map (·.val))
      let clocks := d.grantClocks target master (rivals.map (·.val))
      if (target = 0 ∧ !mapped) ∨ (target ≠ 0 ∧ targetBytes target < a + n) then
        (d.defaultTarget master 1 a).matrixAnswer master target 1 ahead clocks [] false
      else if !d.permits master target write named a n then
        (d.defaultTarget master 2 a).matrixAnswer master target 2 ahead clocks [] false
      else
        let d := { d with mem := { d.mem with parked := tblPut d.mem.parked target master } }
        if write then d.matrixWrite master target a ahead clocks bs else d.matrixRead master target a n ahead clocks named errs symbol owner)

/-- MRAM_LINE_WRITE: a write that waits completes: a buffered line, one per line per millisecond (R248), or the line of a stored scalar's
record, which is then durable (R437); the new values of a bundle wait for its pre-images (R418). -/
def execMramLineWrite (which : MramLine) (s : State) : Host.Outcome State Fault Refusal :=
  onDev s (fun d =>
    match which with
    | .line address =>
      let l := address.toNat / 32
      match tblGet d.mem.mramBuf l with
      | some v =>
        if d.now < tblGetD d.mem.mramAt l 0 + fuMs ∧ (tblGet d.mem.mramAt l).isSome then d
        else { d with mem := { d.mem with mram := Memory.writeAll d.mem.mram (32 * l) (beBytes 32 v), mramBuf := tblDel d.mem.mramBuf l,
                                          mramAt := tblPut d.mem.mramAt l d.now } }
      | none => d
    | .record ref =>
      match tblGet d.store.live ref.toNat with
      | some r =>
        if d.sched.bundles.any (fun b => !b.preDurable && b.values.any (fun m => m.ref == ref.toNat)) then d
        else { d with store := { d.store with live := tblPut d.store.live ref.toNat { r with before := none, waits := false } } }
      | none => d)

/-- MEM_ERR_LOG_CLEAR written v: 1 empties the log (R262). -/
def applyErrLogClear (v : Nat) (d : Device) : Device := if v = 1 then { d with mem := { d.mem with log := [] } } else d

/-- MEM_ERR_LOG_CLEAR. -/
def execMemErrLogClear (q : Req) (v : Val) (s : State) : Host.Outcome State Fault Refusal :=
  onDev s (fun d => d.serve q 2 2 true Reg.memErrLogClear.ref (fun _ d =>
    d.plainWrite Reg.memErrLogClear q v (fun d => (applyErrLogClear v.raw d, okWrite))))

/-- The bytes of a character string in 16 bytes, zeros after it; longer names are cut (assumption 28). -/
def str16 (t : String) : List Nat :=
  let bs := (t.toList.take 16).map (·.toNat)
  bs ++ List.replicate (16 - bs.length) 0

/-- A region table: first byte, size, name (Table 10.8). -/
def regionTable (rs : List (Nat × Nat × String)) : List Nat := rs.flatMap (fun r => beBytes 8 r.1 ++ beBytes 8 r.2.1 ++ str16 r.2.2)

/-- MEM_HBM_MAP (Table 10.1). -/
def hbmMap : List Nat := regionTable
  [(0, 128 * 2 ^ 30, "Queue spill"), (0x2000000000, 2 * 2 ^ 30, "Flow table"), (0x2080000000, 2 ^ 30, "Flow counters"),
   (0x20C0000000, 4 * 2 ^ 30, "Telemetry ring"), (0x21C0000000, 2 ^ 30, "Hitless delay buffers"), (0x2200000000, 2 ^ 30, "Mirror images"),
   (0x2240000000, 7 * 2 ^ 30, "Reserved")]

/-- MEM_MRAM_MAP (Table 10.2). -/
def mramMap : List Nat := regionTable
  [(0, 0xC00000, "Image slot 0"), (0xC00000, 0xC00000, "Image slot 1"), (0x1800000, 0x400000, "Dictionary values"),
   (0x1C00000, 0x100000, "Calibration set"), (0x1D00000, 0x40000, "Wrapped keys"), (0x1D40000, 0x100000, "Starter history"),
   (0x1E40000, 0x40000, "Device records"), (0x1E80000, 0x180000, "Reserved")]

end Sys2Proof.Machine
end

