-- ==== Sys2Proof/Machine/TimeOps.lean ====
section
/-! DEFINITION. Operations of the timing block: the starter's model (R299), candidates and their states, the selection and the vote of R272
to R275, reference changes and pulls, entry to holdover, the advertised quality. Frequencies are in units of 10^-18 unless said. -/

namespace Sys2Proof.Machine

def Device.onTim (d : Device) (f : Tim → Tim) : Device := { d with tim := f d.tim }
def Device.onHo (d : Device) (f : Starter → Starter) : Device := { d with tim := { d.tim with ho := f d.tim.ho } }

/-- A rational to the nearest whole number. -/
def ratRound (q : Rat) : Int := (q + 1 / 2).floor

/-- y from a correction c: -c / (1 + c), in units of 10^-18 (R296). -/
def yOf (c : Int) : Rat := -(c : Rat) / (1 + (c : Rat) / 10 ^ 18)

/-! ### The model (R299) -/

/-- Fields of a sample (Table 12.1). -/
def smSeconds (w : Nat) : Nat := bits w 127 96
def smY (w : Nat) : Int := toSigned 40 (bits w 95 56)
def smTemp (w : Nat) : Int := toSigned 16 (bits w 55 40)
def smSource (w : Nat) : Nat := bits w 39 38
def smOutlier (w : Nat) : Bool := bitAt w 37
def smTraceable (w : Nat) : Bool := smSource w == 0 || smSource w == 2
def smUsable (w : Nat) : Bool := !smOutlier w && bits w 55 40 != 0x8000

/-- A bin's residual if it counts: at least 225 samples. -/
def binValue (m : HoModel) (k : Nat) : Rat :=
  match tblGet m.bins k with
  | some (r, n) => if 225 ≤ n then (r : Rat) * 100 else 0
  | none => 0

/-- R(T): between the centres of the two nearest bins; the end bin beyond the outermost centres. T in 10^-6 °C. -/
def binCorrection (m : HoModel) (t : Int) : Rat :=
  let x : Rat := ((t : Rat) / 1000000 + 3975 / 100) * 2
  let k := x.floor
  if k < 0 then binValue m 0
  else if 255 ≤ k then binValue m 255
  else
    let f := x - k
    binValue m k.toNat * (1 - f) + binValue m (k.toNat + 1) * f

/-- P(T) of R299, terms above the order 0. -/
def polyTerm (m : HoModel) (order : Nat) (t : Int) : Rat :=
  let x : Rat := (t : Rat) / 1000000 - (m.t0 : Rat) / 100
  (if 1 ≤ order then m.c1 * x else 0) + (if 2 ≤ order then m.c2 * x ^ 2 else 0) + (if 3 ≤ order then m.c3 * x ^ 3 else 0)

/-- y_pred at a device time in seconds and a temperature in 10^-6 °C. -/
def yPred (m : HoModel) (order : Nat) (t : Rat) (temp : Int) : Rat :=
  m.a + m.d * (t - (m.fitTime : Rat) / (fuSec : Rat)) / 86400 + polyTerm m order temp + binCorrection m temp

/-- The prediction at an instant (fu), with the filtered temperature; none while no model or no temperature is there. -/
def Device.predict (d : Device) (at_ : Rat) : Option Rat :=
  match d.tim.ho.model, d.tim.ho.filt with
  | some m, some t => some (yPred m (d.get Reg.timeHoOrder) at_ t)
  | _, _ => none

/-- The second at which a sample ended: SECONDS holds it modulo 2^32; the one nearest to `sec` is meant. -/
def sampleSec (sec w : Nat) : Int := sec + toSigned 32 ((smSeconds w + 2 ^ 32 - sec % 2 ^ 32) % 2 ^ 32)

/-- The prediction for a stored sample, at its end and mean temperature. -/
def Device.predictSample (d : Device) (w : Nat) : Option Rat :=
  d.tim.ho.model.map (fun m => yPred m (d.get Reg.timeHoOrder) (sampleSec (d.now / fuSec) w) (smTemp w * 10000))

/-- Samples that can be used: not OUTLIER, temperature valid. -/
def Device.usable (d : Device) : List Nat := d.tim.ho.history.filter smUsable

/-- A temperature lies in a bin of at least 225 samples, or within 1.0 °C of such a bin (R302). -/
def Device.tempLearned (d : Device) : Bool :=
  match d.tim.ho.model, d.tim.ho.filt with
  | some m, some t =>
    m.bins.any (fun e =>
      let lo : Int := -40000000 + 500000 * (e.1 : Int)
      decide (225 ≤ e.2.2) && decide (lo - 1000000 ≤ t ∧ t ≤ lo + 500000 + 1000000))
  | _, _ => false

/-- Holdover is steered by the starter: state Holdover and no class-F candidate Selected (R305, R307). -/
def Device.steered (d : Device) : Bool := d.get Reg.schedTimeState == 3 && d.get Reg.timeSelected == 0xFF

/-- TIME_HO_STATE as Tables 12.2 and R302 give it. -/
def Device.hoState (d : Device) : Nat :=
  if d.usable.length < 225 then 0
  else if d.steered then 3
  else if d.get Reg.timeHoReadyTotal * 3600 ≤ d.get Reg.timeHoLearnTime ∧ d.get Reg.timeHoReadyBoot * 3600 ≤ d.get Reg.timeHoBootTime ∧
    d.tempLearned = true ∧ d.tim.ho.fitted = true then 2
  else 1

/-- Publishes TIME_HO_STATE; a change is an event (R301). -/
def Device.publishHo (d : Device) : Device :=
  let s := d.hoState
  if d.get Reg.timeHoState = s then d else d.takeSeq.set Reg.timeHoState s

/-- A fault bit of TIME_HO_FAULTS; set during a holdover it ends the specification (R308). -/
def Device.hoFault (d : Device) (k : Nat) (b : Bool) : Device :=
  let d := if b && !bitAt (d.get Reg.timeHoFaults) k then d.onHo (fun h => { h with specHeld := false }) else d
  let d := if d.get Reg.schedTimeState = 3 then d.set Reg.timeHoInspec (b2n d.tim.ho.specHeld) else d
  d.setBit Reg.timeHoFaults k b

/-! ### Candidates (R263, R269 to R271) -/

/-- The class of a source (Table 11.1): 0 none, 1 T, 2 P, 3 F. -/
def Device.sourceClass (d : Device) (src : Nat) : Nat :=
  if src = 0 then 0
  else if src = 0x02 ∨ src = 0x03 then (if d.get (Reg.timeExtMode (src - 2)) = 0 then 2 else 3)
  else if 0x20 ≤ src ∧ src ≤ 0x27 then 3
  else 1

def Device.candClass (d : Device) (n : Nat) : Nat := d.sourceClass (d.get (Reg.timeCandSource n))

def Device.cand (d : Device) (n : Nat) : Cand := tblGetD d.tim.cands n ⟨true, 15, 0, 0⟩
def Device.putCand (d : Device) (n : Nat) (c : Cand) : Device := d.onTim (fun t => { t with cands := tblPut t.cands n c })

/-- The candidate that names a source. -/
def Device.candOf (d : Device) (src : Nat) : Option Nat :=
  if src = 0 then none else (List.range 16).find? (fun n => d.get (Reg.timeCandSource n) == src)

/-- Whether candidate n, Selected, is GNSS at QL 1, as Table 12.4 asks of the last Selected candidate before holdover: a class-F candidate and a QL
that takes the candidate out of the selection change nothing. -/
def Device.noteGnss1 (d : Device) (n : Nat) : Device :=
  if d.get Reg.timeSelected = n ∧ d.candClass n ≠ 3 ∧ d.get (Reg.timeCandQl n) < 15 then
    d.onHo (fun h => { h with lastGnss1 := d.get (Reg.timeCandSource n) == 1 && d.get (Reg.timeCandQl n) == 1 })
  else d

/-- The effective QL (R271). -/
def Device.refreshQl (d : Device) (n : Nat) : Device :=
  let d := d.set (Reg.timeCandQl n) (if d.get (Reg.timeCandSource n) = 0 then 15
    else if d.get (Reg.timeCandQlMode n) = 1 then d.get (Reg.timeCandQlFixed n) else (d.cand n).ql)
  d.noteGnss1 n

/-- A candidate's state changes, which its subscribers are told (R270): entries to Failed are counted, proofing starts with its time. -/
def Device.candState (d : Device) (n st : Nat) : Device :=
  if d.get (Reg.timeCandState n) = st then d
  else
    let was := d.get (Reg.timeCandState n)
    let d := d.set (Reg.timeCandState n) st
    let d := if st = 1 then d.bump (Reg.timeCandFails n) else d
    let d := if st = 2 then
        let p := d.get (if (d.cand n).first then Reg.timeProofFirst else Reg.timeProof)
        (d.putCand n { d.cand n with proofEnd := d.now + p * fuSec }).set (Reg.timeCandProofLeft n) p
      else d.set (Reg.timeCandProofLeft n) 0
    (if was = 2 ∧ st = 3 then d.putCand n { d.cand n with first := false } else d).notice (Reg.timeCandState n) [n, st]

/-! ### Pull (R277 to R279) -/

/-- The slope in force: TIME_ACQ_SLOPE until TIME_LOCK first reads Locked (R279), and in a standby while TWIN_TIME_DIFF lies outside
TWIN_ALIGN_WIN (R353). -/
def Device.slope (d : Device) : Nat :=
  let far := d.standby && decide (1000 * d.get Reg.twinAlignWin < (d.getI Reg.twinTimeDiff).natAbs)
  d.get (if d.tim.locked && !far then Reg.timeSlope else Reg.timeAcqSlope)

/-- The synthesiser corrects within ±50 ppm (R281), in units of 10^-15. -/
def clampLoop (c : Int) : Int := max (-50000000000) (min 50000000000 c)

/-- The synthesiser takes a correction. -/
def Device.setLoop (d : Device) (c : Int) : Device := d.setI Reg.timeLoopFreq (clampLoop c)

/-- Starts a pull of x ps, or ends it with 0. -/
def Device.startPull (d : Device) (x : Int) (slope : Nat) : Device :=
  (d.onTim (fun t => { t with pull := if x = 0 then none else some (x, d.now, slope) })).setI Reg.timePullLeft x

/-- Under software control TIME_LOCK keeps reading Software (R283). -/
def Device.setLock (d : Device) (v : Nat) : Device :=
  let d := if v = 2 then d.onTim (fun t => { t with locked := true }) else d
  if d.get Reg.timeLoopMode = 1 then d.set Reg.timeLock 5 else d.set Reg.timeLock v

/-! ### Learning is broken off (R297) -/

/-- Marks the newest sample OUTLIER. -/
def markLast (h : List Nat) : List Nat :=
  match h.reverse with
  | w :: r => (withBit w 37 true :: r).reverse
  | [] => []

/-- The second is no learning second: the sample in progress is dropped. -/
def Device.breakSample (d : Device) : Device := d.onHo (fun h => { h with secs := [] })

/-- A fault of the Selected candidate also discards the last complete sample before it. -/
def Device.faultSample (d : Device) : Device :=
  let d := d.breakSample
  match d.tim.ho.history.getLast? with
  | none => d
  | some w =>
    if smOutlier w then d
    else
      let h := markLast d.tim.ho.history
      let t := ((h.filter (fun v => smTraceable v && !smOutlier v)).getLast?).map (fun v => (sampleSec (d.now / fuSec) v).toNat * fuSec)
      (d.onHo (fun s => { s with history := h, lastTrace := t })).bump Reg.timeHoOutliers

/-! ### Holdover (R304, R305, R308) -/

/-- The phase-traceable samples of the anchor window: those that end within TIME_HO_ANCHOR seconds before the last of them ends. -/
def Device.anchorSamples (d : Device) : List Nat :=
  let l := d.tim.ho.history.filter (fun w => smTraceable w && !smOutlier w)
  match l.getLast? with
  | none => []
  | some w => l.filter (fun v => decide (smSeconds w < smSeconds v + d.get Reg.timeHoAnchor))

/-- The mean of a list of rationals. -/
def meanRat (l : List Rat) : Rat := if l.isEmpty then 0 else l.foldl (· + ·) 0 / (l.length : Nat)

/-- The anchor offset: the mean of y - y_pred over the window. -/
def Device.anchorOffset (d : Device) : Int :=
  ratRound (meanRat (d.anchorSamples.filterMap (fun w => (d.predictSample w).map (fun p => (smY w : Rat) * 100 - p))))

/-- The mean correction of the 16 s that ended 1 s before now (10^-15), from the means of whole seconds (R276). -/
def Device.bridgeC (d : Device) : Int :=
  let l := (d.tim.hist.filter (fun e => decide (e.1 + fuSec ≤ d.now))).reverse.take 16
  if l.isEmpty then d.getI Reg.timeLoopFreq else roundInt (l.foldl (fun a e => a + e.2) 0) (1000 * l.length)

/-- c in units of 10^-15 that cancels y (10^-18): -y / (1 + y). -/
def cancelC (y : Rat) : Int := ratRound (-y / (1 + y / 10 ^ 18) / 1000)

/-- The correction of holdover now: -y_hold / (1 + y_hold) for the middle of the interval up to the next PPS boundary; an Empty starter holds
the mean over the anchor window, or what Bridging holds (R305). -/
def Device.holdC (d : Device) : Int × Option Int :=
  let mid : Rat := ((d.now : Rat) + (nextMultiple fuSec d.now : Nat)) / 2 / (fuSec : Rat)
  if d.usable.length < 225 then
    let cs := d.anchorSamples.map (fun w => -(smY w : Rat) * 100 / (1 + (smY w : Rat) / 10 ^ 16))
    (if cs.isEmpty then (if d.get Reg.timeLock = 3 then d.getI Reg.timeLoopFreq else d.bridgeC) else ratRound (meanRat cs / 1000), none)
  else
    match d.predict mid with
    | some y => (cancelC (y + d.tim.ho.offset), some (ratRound ((y + d.tim.ho.offset) / 1000)))
    | none => (d.getI Reg.timeLoopFreq, none)

/-- The correction in use changes at the next calendar boundary (R283, R305). -/
def Device.correctNext (d : Device) (c : Int) : Device := d.onTim (fun t => { t with cNext := some c })

/-- Device time comes into Holdover, seen from the starter: whether the specification holds (R308). -/
def Device.holdSpec (d : Device) (ready : Bool) : Device :=
  d.onHo (fun h => { h with specHeld := ready && decide (d.get Reg.timeHoExpect ≤ d.get Reg.timeHoSpec) })

/-- The starter takes over (R304): the pull dropped, the states set, the offset taken; c follows at the next calendar boundary unless the
host keeps control (R306). -/
def Device.steer (d : Device) : Device :=
  let d := d.startPull 0 0
  let d := d.onHo (fun h => { h with offset := d.anchorOffset })
  let c := d.holdC
  let d := (d.set Reg.schedTimeState 3).setLock 4
  let d := match c.2 with
    | some y => d.setI Reg.timeHoPred y
    | none => d
  let d := if d.get Reg.timeLoopMode = 1 then d else d.correctNext c.1
  d.publishHo

/-- Entry to holdover (R304). -/
def Device.enterHoldover (d : Device) : Device :=
  let d := d.holdSpec (d.get Reg.timeHoState == 2)
  let d := (d.steer).bump Reg.timeHoEntries
  d.set Reg.timeHoInspec (b2n d.tim.ho.specHeld)

/-! ### Selection (R272 to R275) -/

/-- Rank: QL first, then priority, priority 0 after 15. -/
def Device.rank (d : Device) (n : Nat) : Nat :=
  let p := d.get (Reg.timeCandPriority n)
  d.get (Reg.timeCandQl n) * 32 + (if p = 0 then 16 else p)

/-- A candidate is Qualified or Selected. -/
def Device.candLive (d : Device) (n : Nat) : Bool := d.get (Reg.timeCandState n) == 3 || d.get (Reg.timeCandState n) == 5

/-- The candidates of class group F (true) or T and P. -/
def Device.candF (d : Device) (n : Nat) : Bool := d.candClass n == 3

/-- Two values lie within the limit of R274: phases in ps by TIME_AGREE, frequencies in 0.01 ppb by TIME_AGREE_FREQ. -/
def Device.within (d : Device) (f : Bool) (a b : Int) : Bool :=
  decide ((a - b).natAbs ≤ if f then d.get Reg.timeAgreeFreq * 10 else d.get Reg.timeAgree * 1000)

/-- What a candidate votes with: phase, or frequency. -/
def Device.voteValue (d : Device) (f : Bool) (n : Nat) : Int := if f then d.getI (Reg.timeCandFreq n) else d.getI (Reg.timeCandPhase n)

/-- Members of a tie disagree (R274). -/
def Device.disagree (d : Device) (tie : List Nat) : Bool :=
  tie.any (fun a => tie.any (fun b => !d.within (d.candF a) (d.voteValue (d.candF a) a) (d.voteValue (d.candF a) b)))

/-- The lowest of a list under a key, the first of equals. -/
def lowestBy (key : Nat → Nat) : List Nat → Option Nat
  | [] => none
  | n :: r =>
    match lowestBy key r with
    | none => some n
    | some m => if key n ≤ key m then some n else some m

/-- The starter clock's value as a voter: its phase (ps), or the frequency it has against device time (0.01 ppb). -/
def Device.starterVote (d : Device) (f : Bool) : List Int :=
  if d.get Reg.timeHoState = 2 ∨ d.get Reg.timeHoState = 3 then
    if f then
      match d.predict ((d.now : Rat) / (fuSec : Rat)) with
      | some y => [ratRound (((cancelC y - d.getI Reg.timeLoopFreq : Int) : Rat) / 10000)]
      | none => []
    else [d.tim.sPhase.getD 0 / 1000000]
  else []

/-- vote(tie) where members disagree: the winner; the others become Outvoted, each counted and notified (R275). -/
def Device.vote (d : Device) (tie : List Nat) : Device × Option Nat :=
  let f := (tie.head?.map d.candF).getD false
  let out := (List.range 16).filter (fun n => d.candLive n && !tie.contains n && d.candClass n != 0 && d.candF n == f)
  let others := d.starterVote f ++ (match lowestBy d.rank out with
    | some l => [d.voteValue f l]
    | none => [])
  let votes (c : Nat) : Nat :=
    ((tie.filter (· != c)).filter (fun v => d.within f (d.voteValue f v) (d.voteValue f c))).length +
      (others.filter (fun x => d.within f x (d.voteValue f c))).length
  let sel := d.get Reg.timeSelected
  let win := lowestBy (fun c => (20 - votes c) * 32 + (if c = sel then 0 else c + 1)) tie
  let d := if d.tim.sPhase.isNone then d.onTim (fun t => { t with sPhase := some 0 }) else d
  (d.each (tie.filter (fun c => some c != win)) (fun c x =>
    if x.get (Reg.timeCandState c) = 3 then ((x.takeSeq.candState c 4).bump Reg.timeOutvotes).notice Reg.timeOutvotes [c] else x), win)

/-- Outvoted candidates return when the disagreement within their rank has ended (R275). -/
def Device.unvote (d : Device) : Device :=
  let out := (List.range 16).filter (fun n => d.get (Reg.timeCandState n) == 4)
  let back := out.filter (fun n =>
    !d.disagree ((List.range 16).filter (fun m => (d.candLive m || m == n) && d.rank m == d.rank n && d.candF m == d.candF n)))
  let d := d.each back (fun n x => x.takeSeq.candState n 3)
  if out.isEmpty then d else if (out.filter (fun n => !back.contains n)).isEmpty then d.onTim (fun t => { t with sPhase := none }) else d

/-- The candidate the device wants (R272). -/
def Device.want (d : Device) : Device × Option Nat :=
  if d.standby then (d, d.candOf 0x40)
  else
    let e := (List.range 16).filter (fun n => d.candLive n && d.get (Reg.timeCandPriority n) != 0 && decide (d.get (Reg.timeCandQl n) < 15))
    let force := d.get Reg.timeForce
    if d.get Reg.timeSelMode = 1 ∧ e.contains force = true then (d, some force)
    else
      let e := if e.any (fun n => !d.candF n) then e.filter (fun n => !d.candF n) else e
      match lowestBy d.rank e with
      | none => (d, none)
      | some b =>
        let tie := e.filter (fun n => d.rank n == d.rank b)
        if tie.length = 1 then (d, some b)
        else if d.disagree tie then d.vote tie
        else
          let sel := d.get Reg.timeSelected
          (d, if tie.contains sel then some sel else tie.head?)

/-- The selection of R272. Holdover is entered from Traceable only: Table 2.1 speaks of the loss of every reference (assumption 31). -/
def Device.reselect (d : Device) : Device :=
  let r := d.unvote.want
  let d := r.1
  match r.2 with
  | none =>
    let sel := d.get Reg.timeSelected
    let d := if sel ≠ 0xFF then
        (if d.get (Reg.timeCandState sel) = 5 then d.candState sel 3 else d).set Reg.timeSelected 0xFF
      else d
    if d.get Reg.schedTimeState = 2 then d.enterHoldover
    else if d.get Reg.schedTimeState = 3 then (if sel ≠ 0xFF ∨ d.get Reg.timeLock = 3 then d.steer else d)
    else if d.get Reg.timeLock = 0 then d else (d.startPull 0 0).setLock 0
  | some w =>
    if w = d.get Reg.timeSelected ∨ d.sched.actions.any (fun a => a.cls == 4 && a.value == w) then d
    else
      let d := d.each (d.sched.actions.filter (fun a => a.cls == 4 && a.armed.isNone)) (fun a x => (x.dropAction a.handle).outcome a 3 none)
      d.scheduleOwn { newAction .pps .device 4 0 0 w with late1 := true }

/-- The Selected candidate is lost: Bridging until a change fires or holdover begins (R276). -/
def Device.loseSelected (d : Device) (n : Nat) : Device :=
  if d.get Reg.timeSelected ≠ n then d
  else
    let c := d.bridgeC
    let d := (d.set Reg.timeSelected 0xFF).setLock 3
    if d.get Reg.timeLoopMode = 1 then d else d.setLoop c

/-- A fault bit of a candidate changes (R269, R270). -/
def Device.setFault (d : Device) (n k : Nat) (b : Bool) : Device :=
  let d := d.setBit (Reg.timeCandFaults n) k b
  let st := d.get (Reg.timeCandState n)
  if d.get (Reg.timeCandSource n) = 0 then d
  else if d.get (Reg.timeCandFaults n) ≠ 0 then
    let d := if b && st == 5 then d.faultSample else d
    if st = 1 then d else ((d.candState n 1).loseSelected n).reselect
  else if st = 1 then (d.candState n 2).reselect
  else d

/-- A reference change to n fires (R276 to R279): Selected, the former one Qualified, a build-out of the candidate's phase, and at the first
acquisition a step to the nearest multiple of 12 800 ns, which takes the place of a host's step that still waits (R19, R20). `phase` in ps at that boundary. -/
def Device.takeCandidate (d : Device) (n : Nat) (phase : Int) : Device :=
  let old := d.get Reg.timeSelected
  let d := if old ≠ 0xFF ∧ old ≠ n ∧ d.get (Reg.timeCandState old) = 5 then d.takeSeq.candState old 3 else d
  let d := ((d.takeSeq.candState n 5).set Reg.timeSelected n).bump Reg.timeSwitches
  let ts := d.get Reg.schedTimeState
  let d := (d.onHo (fun h => { h with lastGnss1 := decide (2 ≤ ts) && h.lastGnss1, phases := [] })).noteGnss1 n
  let d := { d with sched := { d.sched with step := none } }
  if d.candF n then
    let d := if ts = 3 then d else (d.holdSpec (ts == 2 && d.get Reg.timeHoState == 2)).set Reg.schedTimeState 3
    ((d.startPull 0 0).setLock 1).publishHo
  else
    let first := decide (ts ≤ 1)
    let d := d.set Reg.schedTimeState 2
    let d := (d.set Reg.timeHoInspec 0).setLock 1
    let d := if d.get Reg.timeLoopMode = 1 then d
      else if first && d.on Reg.timeFirstStep && decide (6400000 < phase.natAbs) then
        let steps := roundInt phase 12800000
        (d.onTim (fun t => { t with stepBy := some (steps * (fuCycle : Nat)) })).startPull (phase - steps * 12800000) (d.get Reg.timeAcqSlope)
      else d.startPull phase (if first then d.get Reg.timeAcqSlope else d.slope)
    d.publishHo

/-! ### Advertised quality (R293, Table 12.4) -/

/-- The QL the device advertises. -/
def Device.advertised (d : Device) : Nat :=
  match d.get Reg.schedTimeState with
  | 2 => if d.get Reg.timeSelected = 0xFF then 6 else d.get (Reg.timeCandQl (d.get Reg.timeSelected))
  | 3 =>
    if d.get Reg.timeHoMax < d.get Reg.timeHoAge ∨ d.usable.length < 225 then 6
    else if d.on Reg.timeHoInspec then (if d.tim.ho.lastGnss1 then 2 else 3)
    else 4
  | _ => 6

/-- PTP clockClass sent for a QL (Tables 11.5 and 12.4). -/
def clockClassOf (ql : Nat) : Nat := [255, 6, 7, 135, 160, 165, 248].getD ql 255

/-- QL of a PTP clockClass (Table 11.5). -/
def qlOfClass (c : Nat) : Nat :=
  if c = 6 then 1 else if c = 7 then 2 else if c = 135 then 3 else if c = 140 ∨ c = 150 ∨ c = 160 then 4
  else if c = 165 then 5 else if c = 248 then 6 else 15

/-- SSM codes by name: PRC 0x02, SSU-A 0x04, SSU-B 0x08, EEC1 0x0B, DNU 0x0F; enhanced PRTC 0x20, ePRTC 0x21, eEEC 0x22, ePRC 0x23. The spec
names the levels of ITU-T G.8264 without their codes (PRESUMED, assumption 32). -/
def qlOfSsm (c : Nat) : Nat :=
  if c = 0x02 ∨ c = 0x20 ∨ c = 0x21 ∨ c = 0x23 then 1 else if c = 0x04 then 3 else if c = 0x08 then 4
  else if c = 0x0B ∨ c = 0x22 then 5 else 15

/-- The SSM code sent for a QL. -/
def ssmOfQl (enhanced : Bool) (ql : Nat) : Nat :=
  if ql = 1 then (if enhanced then 0x23 else 0x02) else if ql = 2 ∨ ql = 3 then 0x04 else if ql = 4 then 0x08
  else if ql = 5 ∨ ql = 6 then (if enhanced then 0x22 else 0x0B) else 0x0F

/-- STEPS the device sends: one more than the source's count while Traceable (R293). -/
def Device.stepsSent (d : Device) : Nat :=
  if d.get Reg.schedTimeState = 2 ∧ d.get Reg.timeSelected ≠ 0xFF then ((d.cand (d.get Reg.timeSelected)).steps + 1) % 256 else 0

end Sys2Proof.Machine
end

