-- ==== Sys2Proof/Machine/Timing.lean ====
section
/-! DEFINITION. Reference inputs, selection and clean-up (chapter 11), line time transfer apart; with the starter's work at every PPS boundary
(chapter 12). -/

namespace Sys2Proof.Machine

/-! ### The PPS boundary (R264, R288, R292; R296, R298, R304, R305, R311) -/

def Device.ptpPort (d : Device) (p : Nat) : PtpPort := tblGetD d.tim.ptp p ⟨none, none, none, none, none, none, [], false⟩
def Device.putPtp (d : Device) (p : Nat) (x : PtpPort) : Device := d.onTim (fun t => { t with ptp := tblPut t.ptp p x })

/-- The offsets theta found since the last PPS boundary, for the sources that exchange times: PTP, line time transfer and the mate link. -/
def Device.thetasOf (d : Device) (src : Nat) : Option (List Int) :=
  if 0x10 ≤ src ∧ src ≤ 0x17 then some (d.ptpPort (src - 0x10)).thetas
  else if src = 0x30 then some d.tim.lt.c0.thetas else if src = 0x31 then some d.tim.lt.c1.thetas else if src = 0x40 then some d.tim.mateThetas else none

/-- What the second gave of candidate n: for PTP, line time transfer and the mate link the phase is the mean of -theta over the exchanges completed in it,
none without one (R264, R267, R286, R353). -/
def Device.measOf (d : Device) (n : Nat) (m : CandMeas) : CandMeas :=
  match d.thetasOf (d.get (Reg.timeCandSource n)) with
  | none => m
  | some l =>
    { m with measured := !l.isEmpty, phase := if l.isEmpty then m.phase else roundInt (-(l.foldl (· + ·) 0)) l.length }

/-- The exchanges of the second have been used. -/
def Device.clearThetas (d : Device) : Device :=
  d.onTim (fun t => { t with lt := ⟨{ t.lt.c0 with thetas := [] }, { t.lt.c1 with thetas := [] }⟩, mateThetas := [],
                              ptp := t.ptp.map (fun e => (e.1, { e.2 with thetas := [] })) })

/-- The phases and frequencies measured over the second, less TIME_CAND_DELAY; the mask of the candidates measured. -/
def Device.takeMeas (d : Device) (meas : List CandMeas) : Device × Nat :=
  (List.range 16).foldl (fun (x : Device × Nat) n =>
    match meas[n]? with
    | some m =>
      let m := d.measOf n m
      let c := x.1.candClass n
      if m.measured ∧ c ≠ 0 then
        let y := if c = 3 then x.1 else x.1.setI (Reg.timeCandPhase n) (m.phase - x.1.getI (Reg.timeCandDelay n))
        (y.setI (Reg.timeCandFreq n) m.freq, x.2 + 2 ^ n)
      else x
    | none => x) (d, 0)

/-- TIME_MEAS (Table 11.8). -/
def Device.measRecord (d : Device) (valid : Nat) : Nat :=
  fuToTime96 d.now * 2 ^ 1632 + d.sched.cur % 2 ^ 64 * 2 ^ 1568 + valid * 2 ^ 1552 + d.get Reg.timeSelected * 2 ^ 1544 +
    d.get Reg.timeLock * 2 ^ 1536 +
    (List.range 16).foldl (fun a n =>
      a + d.get (Reg.timeCandPhase n) * 2 ^ (1472 - 64 * n) + d.get (Reg.timeCandFreq n) * 2 ^ (480 - 32 * n)) 0

/-- The loop follows a candidate under hardware control: its correction is what the loop filter makes of the measurements (R281). -/
def Device.following (d : Device) : Bool := d.get Reg.timeSelected != 0xFF && d.get Reg.timeLoopMode == 0

/-- The default loop bandwidth of a source in µHz (Table 11.6); of PTP as unassisted. -/
def Device.defaultBw (d : Device) (src : Nat) : Nat :=
  if src = 1 then 10000
  else if src = 2 ∨ src = 3 then (if d.get (Reg.timeExtMode (src - 2)) = 0 then 10000 else 100000)
  else if 0x20 ≤ src ∧ src ≤ 0x27 then 1000000
  else if src = 0x40 then 100000000
  else 100000

/-- The bandwidth of a candidate: TIME_CAND_BW, or its default (R281). -/
def Device.candBw (d : Device) (n : Nat) : Nat :=
  let b := d.get (Reg.timeCandBw n)
  if b = 0 then d.defaultBw (d.get (Reg.timeCandSource n)) else b

/-- The SyncE candidate that assists a Selected PTP candidate: while it is Qualified (R268). -/
def Device.assistOf (d : Device) (n : Nat) : Option Nat :=
  let a := d.get (Reg.timeCandAssist n)
  let src := d.get (Reg.timeCandSource n)
  let of_ := d.get (Reg.timeCandSource a)
  if 0x10 ≤ src ∧ src ≤ 0x17 ∧ a < 16 ∧ 0x20 ≤ of_ ∧ of_ ≤ 0x27 ∧ d.get (Reg.timeCandState a) = 3 then some a else none

/-- The bandwidth for phase and for frequency of the loop that follows candidate n: with an assist that of assisted PTP, and the assist's (R268, R281). -/
def Device.loopBw (d : Device) (n : Nat) : Nat × Nat :=
  match d.assistOf n with
  | some a => (10000, d.candBw a)
  | none => (d.candBw n, d.candBw n)

/-- A change of candidate or of bandwidth comes into the loop at a PPS boundary. -/
def Device.takeBw (d : Device) : Device := if d.following then d.onTim (fun t => { t with bw := d.loopBw (d.get Reg.timeSelected) }) else d

/-- The correction over the second that ends, kept for Bridging (17 s); while the loop follows, TIME_LOOP_FREQ is what it now uses. -/
def Device.loopSecond (d : Device) (mean now : Int) : Device × Int :=
  let c := if d.following then mean else d.getI Reg.timeLoopFreq * 1000
  let d := d.onTim (fun t => { t with hist := (t.hist ++ [(d.now, c)]).drop (t.hist.length + 1 - 20) })
  (if d.following then d.setLoop now else d, c)

/-- The starter clock runs on during a disagreement (R275). -/
def Device.starterClock (d : Device) (c : Int) : Device :=
  match d.tim.sPhase, d.predict ((d.now : Rat) / (fuSec : Rat)) with
  | some p, some y => d.onTim (fun t => { t with sPhase := some (p + ratRound (-y / (1 + y / 10 ^ 18)) - c) })
  | _, _ => d

/-- Offsets and frequencies whose arming point follows their write come into force (R292); the PPS outputs edge (R288), and the frequency outputs give their
frequency, an edge of it with PPS_OUT0's (R289). An
edge due before a new active unit drives is missed (R352). -/
def Device.ppsEdges (d : Device) : Device :=
  let due := d.tim.outNext.filter (fun e => decide (e.2.2 + fuArm < d.now))
  let d := d.onTim (fun t => { t with
    outForce := due.foldl (fun l e => tblPut l e.1 e.2.1) t.outForce
    outNext := t.outNext.filter (fun e => !decide (e.2.2 + fuArm < d.now)) })
  if d.driving = 0 then (if d.twin.enabled && d.get Reg.twinRole == 0 && !d.twin.drives then d.bump Reg.twinOutMissed else d)
  else
    let d := d.each ([0, 1].filter (fun k => bitAt d.driving (2 + k))) (fun k x => x.send (.freqOut k (tblGetD x.tim.outForce (2 + k) 10000000).toNat))
    (d.each [0, 1] (fun k x => x.send (.pps k (tblGetD x.tim.outForce k 0) (x.get (Reg.timePpsWidth k))))).onTim
      (fun t => { t with ppsAt := some d.now })

/-- The Selected candidate lies within its window: phase within TIME_LOCK_WIN, class F within TIME_AGREE_FREQ (R280). -/
def Device.inWindow (d : Device) (n : Nat) : Bool :=
  if d.candF n then decide ((d.getI (Reg.timeCandFreq n)).natAbs ≤ d.get Reg.timeAgreeFreq * 10)
  else decide ((d.getI (Reg.timeCandPhase n)).natAbs ≤ d.get Reg.timeLockWin * 1000)

/-- Seconds within the window with no pull; Locked is lost when the window is left. -/
def Device.lockSecond (d : Device) : Device :=
  let sel := d.get Reg.timeSelected
  if sel ≠ 0xFF ∧ d.inWindow sel = true ∧ d.tim.pull = none then d.onTim (fun t => { t with lockRun := t.lockRun + 1 })
  else
    let d := d.onTim (fun t => { t with lockRun := 0 })
    if d.get Reg.timeLock = 2 then d.setLock 1 else d

/-- Proofing times left, in whole seconds. -/
def Device.proofLeft (d : Device) : Device :=
  d.each (List.range 16) (fun n x =>
    if x.get (Reg.timeCandState n) = 2 then x.set (Reg.timeCandProofLeft n) (ceilDiv ((x.cand n).proofEnd - x.now) fuSec) else x)

/-- The temperature of the second: valid with at least 5 valid conversions, filtered (R298). -/
def Device.tempSecond (d : Device) : Device × Bool :=
  let l := d.tim.ho.temps
  if 5 ≤ l.length then
    let mean := roundInt (l.foldl (· + ·) 0) l.length
    let f := match d.tim.ho.filt with
      | some x => if d.get Reg.timeHoTempTau = 0 then mean else Config.lowPass x mean (d.get Reg.timeHoTempTau)
      | none => mean
    let d := d.onHo (fun h => { h with temps := [], tempLost := 0, filt := some f })
    ((d.setI Reg.timeHoTemp (roundInt f 10000)).hoFault 0 false, true)
  else (d.onHo (fun h => { h with temps := [], tempLost := h.tempLost + 1 }), false)

/-- The Locked condition of R280, under either control. -/
def Device.lockedCondition (d : Device) : Bool :=
  d.get Reg.timeSelected != 0xFF && (d.get Reg.timeLock == 2 || (d.get Reg.timeLoopMode == 1 && decide (10 ≤ d.tim.lockRun)))

/-- SOURCE of a learning second: 2 the mate while standby, 1 class F, 0 else (Table 12.1). -/
def Device.learnSource (d : Device) : Nat := if d.standby then 2 else if d.candF (d.get Reg.timeSelected) then 1 else 0

/-- A learning second is kept with its mean correction; any other second drops the sample in progress (R296, R297). -/
def Device.learnSecond (d : Device) (valid : Bool) (c : Int) : Device × Bool :=
  let ok := valid && d.on Reg.timeHoEnable && (d.lockedCondition || (d.standby && d.tim.mateState == 2))
  if !ok then (d.breakSample, false)
  else
    let src := d.learnSource
    let d := d.onHo (fun h => { h with
      secs := (if h.source = src then h.secs else []) ++ [(c, h.filt.getD 0)], source := src, sinceFit := h.sinceFit + 1 })
    (d.bump Reg.timeHoBootTime, true)

/-- The largest distance of phases (one a second) from the straight line fitted to them. -/
def lineSpread (l : List Int) : Rat :=
  let n : Rat := (l.length : Nat)
  let ps : List (Rat × Rat) := ((List.range l.length).zip l).map (fun e => (((e.1 : Nat) : Rat), (e.2 : Rat)))
  let sx := ps.foldl (fun a e => a + e.1) 0
  let sy := ps.foldl (fun a e => a + e.2) 0
  let sxx := ps.foldl (fun a e => a + e.1 * e.1) 0
  let sxy := ps.foldl (fun a e => a + e.1 * e.2) 0
  let den := n * sxx - sx * sx
  if den = 0 then 0
  else
    let b := (n * sxy - sx * sy) / den
    let a := (sy - b * sx) / n
    ps.foldl (fun m e => let r := e.2 - a - b * e.1; max m (if r < 0 then -r else r)) 0

/-- TIME_HO_EXPECT in ns, rounded up (R311). -/
def Device.expectation (d : Device) : Nat :=
  let l := d.tim.ho.phases
  let sA : Rat := if l.isEmpty then 0 else 2 * lineSpread l / (l.length : Nat)
  let e : Rat := (d.get Reg.timeLockWin : Nat) + 86400 * sA / 1000 + 86400 * ((d.get Reg.timeHoResid : Nat) : Rat) / 1000000 +
    43200 * ((d.get Reg.timeHoDriftSe : Nat) : Rat) / 1000000 + 293
  e.ceil.toNat

/-- Seconds since the last phase-traceable sample ended; 0 while such samples are taken (R304). -/
def Device.holdAge (d : Device) (learned : Bool) : Nat :=
  if learned && d.learnSource != 1 then 0
  else match d.tim.ho.lastTrace with
    | some t => (d.now - t) / fuSec
    | none => 0

/-- The phases of the anchor window, while Locked to a candidate with phase. -/
def Device.anchorPhase (d : Device) : Device :=
  let sel := d.get Reg.timeSelected
  if d.lockedCondition && !d.candF sel then
    d.onHo (fun h => { h with phases := (d.getI (Reg.timeCandPhase sel) :: h.phases).take (d.get Reg.timeHoAnchor) })
  else d

/-- The specification of R308 in a holdover of a given age. -/
def Device.specSecond (d : Device) (age : Nat) : Device :=
  if d.get Reg.schedTimeState = 3 then
    let d := if d.get Reg.timeHoSpecTime < age then d.onHo (fun h => { h with specHeld := false }) else d
    d.set Reg.timeHoInspec (b2n d.tim.ho.specHeld)
  else d

/-- y_hold and the correction while the starter steers (R305, R306). -/
def Device.steerSecond (d : Device) : Device :=
  let c := d.holdC
  let d := d.setI Reg.timeHoPred (c.2.getD (d.getI Reg.timeHoPred))
  if d.get Reg.timeLoopMode = 1 then d else d.setLoop c.1

/-- The prediction as TIME_HO_PRED shows it while the starter does not steer; an Empty starter makes none (Table 12.2). -/
def Device.predSecond (d : Device) : Device :=
  if d.get Reg.timeHoState = 0 then d
  else match d.predict ((d.now : Rat) / (fuSec : Rat)) with
  | some y => d.setI Reg.timeHoPred (ratRound (y / 1000))
  | none => d

/-- TIME_HO_EXPECT while Traceable and Locked (R311). -/
def Device.expectSecond (d : Device) : Device :=
  if d.get Reg.schedTimeState == 2 && d.lockedCondition then
    d.set Reg.timeHoExpect (if d.get Reg.timeHoState = 2 then d.expectation else 0xFFFFFFFF)
  else d

/-- The starter at a PPS boundary: phases, age, faults, specification, prediction and correction (R302, R304 to R308, R311). -/
def Device.starterSecond (d : Device) (learned : Bool) : Device :=
  let d := d.anchorPhase
  let age := d.holdAge learned
  let d := d.set Reg.timeHoAge age
  let d := d.hoFault 1 (!d.tempLearned && d.tim.ho.filt.isSome)
  let d := d.specSecond age
  (if d.steered then d.steerSecond else d.predSecond).publishHo.expectSecond

/-- PPS_BOUNDARY: at a whole second of device time. `loopMean` is the mean correction of the loop over the second (10^-18), `loopNow` the one
in use now (10^-15), while the loop follows a candidate. -/
def execPpsBoundary (meas : List CandMeas) (loopMean loopNow : Int) (s : State) : Host.Outcome State Fault Refusal :=
  onDev s (fun d =>
    if d.dead ∨ d.now % fuSec ≠ 0 then d
    else
      let d := { d.takeSeq with eop := { d.eop with vlanCount := [] } }.ppsTrims
      let m := d.takeMeas meas
      let l := m.1.clearThetas.loopSecond loopMean loopNow
      let d := (((l.1.starterClock l.2).ppsEdges).lockSecond).proofLeft
      let t := d.tempSecond
      let k := t.1.learnSecond t.2 l.2
      let d := (k.1.starterSecond k.2).reselect.takeBw
      d.set Reg.timeMeas (d.measRecord m.2))

/-- TOD_TX_START: 1 ms after the PPS_OUT0 edge the message that names it goes out, with the advertised QL (R290). -/
def execTodTxStart (s : State) : Host.Outcome State Fault Refusal :=
  onDev s (fun d =>
    match d.tim.ppsAt with
    | some t => if bitAt d.driving 4 then d.send (.tod (fuToTime96 t) d.advertised (d.get Reg.timeTodBaud)) else d
    | none => d)

/-! ### Sources (R265 to R268) -/

/-- The received QL of the candidate that names a source changes. -/
def Device.sourceQl (d : Device) (src ql : Nat) : Device :=
  match d.candOf src with
  | none => d
  | some n => ((d.putCand n { d.cand n with ql := ql }).refreshQl n).reselect

/-- GNSS_PPS_EDGE: a pulse is timestamped on the edge TIME_GNSS_EDGE selects (R265). -/
def execGnssPpsEdge (rising : Bool) (at_ : Nat) (s : State) : Host.Outcome State Fault Refusal :=
  onDev s (fun d =>
    if d.dead ∨ rising ≠ (d.get Reg.timeGnssEdge == 0) then d else d.onTim (fun t => { t with gnssEdge := some at_, gnssPulses := t.gnssPulses + 1 }))

/-- QL of a GNSS status (Table 11.5). -/
def gnssQl (st : Nat) : Nat := if st = 1 then 1 else if st = 2 then 2 else 15

/-- A ToD message pairs with a pulse and names its time: the seconds disagree where they do not follow the last ones by the pulses since (Table 11.3). -/
def Tim.pairPulse (t : Tim) (pulse seconds : Nat) : Tim :=
  { t with gnssPaired := some pulse, gnssPulses := 0, gnssSecs := some seconds,
           gnssBad := match t.gnssSecs with
             | some x => seconds != x + t.gnssPulses
             | none => false }

/-- GNSS_TOD_MESSAGE: a message complete within 500 ms of a pulse not yet paired is paired with it; status and QL follow (R265). An invalid
or late one is counted. -/
def execGnssTodMessage (valid : Bool) (status : Fin 4) (seconds : Nat) (s : State) : Host.Outcome State Fault Refusal :=
  onDev s (fun d =>
    if d.dead then d
    else
      let pulse := d.tim.gnssEdge.filter (fun t => decide (d.now ≤ t + 500 * fuMs) && d.tim.gnssPaired != some t)
      match valid, pulse with
      | true, some t =>
        let d := (d.takeSeq.onTim (·.pairPulse t seconds)).set Reg.timeGnssStatus status
        d.sourceQl 0x01 (gnssQl status)
      | _, _ => d.bump Reg.timeGnssTodErrors)

/-- EXT_REF_EDGE: an edge at EXT_REF0 or EXT_REF1 is timestamped (R266). -/
def execExtRefEdge (k : Fin 2) (at_ : Nat) (s : State) : Host.Outcome State Fault Refusal :=
  onDev s (fun d => if d.dead then d else d.onTim (fun t => { t with extEdge := tblPut t.extEdge k.val at_ }))

/-- A PTP port runs: a client port and a role other than off. -/
def Device.ptpRuns (d : Device) (p : Nat) : Bool := d.get (Reg.timePtpLane p) != 0xFF && d.get (Reg.timePtpRole p) != 0

/-- The portState a port takes from what the BMCA decides (codes of IEEE 1588: 3 DISABLED, 4 LISTENING, 6 MASTER, 9 SLAVE): a master-only port is
never SLAVE, a slave-only port never MASTER, and no port enters MASTER while Unset (R267, R293). -/
def ptpVerdict (role timeState now v : Nat) : Nat :=
  if role = 0 then 3
  else if role = 2 ∧ v ≠ 6 then (if timeState = 0 then 4 else 6)
  else if v = 6 ∧ role = 3 then 4
  else if v = 6 ∧ timeState = 0 then (if now = 6 then 6 else 4)
  else v

/-- Path delay in ps from the four times of an exchange: ((t2 - t1) + (t4 - t3)) / 2. -/
def pathDelay (t1 t2 t3 t4 : Nat) : Int := roundInt ((((t2 : Int) - t1) + ((t4 : Int) - t3)) * 1000) (2 * 65536)

/-- A Sync completes: the offset from the master, t2 - t1 less the path delay and TIME_PTP_ASYM, once the delay has been measured (assumption 173). -/
def Device.ptpSync (d : Device) (p t1 t2 : Nat) : Device :=
  let x := d.ptpPort p
  let theta := roundInt (((t2 : Int) - t1) * 1000) 65536 - d.getI (Reg.timePtpMeanDelay p) - d.getI (Reg.timePtpAsym p)
  d.putPtp p { x with t1 := some t1, t2 := some t2, syncAt := some t2, awaits := none,
                      thetas := if x.measured ∧ d.get (Reg.timePtpState p) = 9 then x.thetas ++ [theta] else x.thetas }

/-- Where a PTP port sends, and its domain (Table 11.2). -/
def Device.ptpTo (d : Device) (p : Nat) : List Nat :=
  [if d.get (Reg.timePtpDest p) = 0 then 0x011B19000000 else 0x0180C200000E, d.get (Reg.timePtpDomain p)]

/-- PTP_MESSAGE: a message on a running PTP port (R267). Messages not well formed, of another domain or of a kind not supported are discarded
and counted. -/
def execPtpMessage (port : Fin 8) (m : PtpMsg) (s : State) : Host.Outcome State Fault Refusal :=
  onDev s (fun d =>
    let p := port.val
    let x := d.ptpPort p
    if d.dead ∨ !d.ptpRuns p then d
    else if !m.good ∨ m.domain ≠ d.get (Reg.timePtpDomain p) ∨ m.kind = 5 then d.bump (Reg.timePtpRxErrors p)
    else
      match m.kind.val with
      | 0 => d.putPtp p (if m.twoStep then { x with awaits := some (m.seqId, m.arrival) }
          else x) |> fun (y : Device) => if m.twoStep then y else y.ptpSync p m.time m.arrival
      | 1 =>
        match x.awaits with
        | some (n, a) => if n = m.seqId then d.ptpSync p m.time a
            else d.bump (Reg.timePtpRxErrors p)
        | none => d.bump (Reg.timePtpRxErrors p)
      | 2 =>
        match x.t1, x.t2, x.t3 with
        | some t1, some t2, some t3 => (d.putPtp p { x with t3 := none, measured := true }).setI (Reg.timePtpMeanDelay p) (pathDelay t1 t2 t3 m.time)
        | _, _, _ => d.bump (Reg.timePtpRxErrors p)
      | 3 => if d.get (Reg.timePtpState p) = 6 then d.send (.ptp p 9 (d.ptpTo p ++ [fuToTime96 m.arrival])) else d
      | _ =>
        let d := (d.putPtp p { x with announceAt := some m.arrival }).takeSeq.set (Reg.timePtpClassRx p) m.clockClass
        let d := d.set (Reg.timePtpState p)
          (ptpVerdict (d.get (Reg.timePtpRole p)) (d.get Reg.schedTimeState) (d.get (Reg.timePtpState p)) m.verdict)
        let d := match d.candOf (0x10 + p) with
          | some n => d.putCand n { d.cand n with steps := m.steps % 256 }
          | none => d
        d.sourceQl (0x10 + p) (qlOfClass m.clockClass))

/-- PTP_MESSAGE_TRANSMIT: a MASTER port sends Sync (0) with device time and Announce (1) with its clockClass and steps; a SLAVE port sends
Delay_Req (2) (R267, R293). -/
def execPtpMessageTransmit (port : Fin 8) (kind : Fin 3) (s : State) : Host.Outcome State Fault Refusal :=
  onDev s (fun d =>
    let p := port.val
    if d.dead ∨ !d.ptpRuns p then d
    else if d.get (Reg.timePtpState p) = 6 ∧ kind = 0 then d.send (.ptp p 0 (d.ptpTo p ++ [fuToTime96 d.now]))
    else if d.get (Reg.timePtpState p) = 6 ∧ kind = 1 then
      d.send (.ptp p 11 (d.ptpTo p ++ [clockClassOf d.advertised, d.get (Reg.timePtpLocalPrio p), d.stepsSent]))
    else if d.get (Reg.timePtpState p) = 9 ∧ kind = 2 then (d.putPtp p { d.ptpPort p with t3 := some d.now }).send (.ptp p 1 (d.ptpTo p))
    else d)

/-- The SSM code of a SyncE port changes, and with it the QL of its candidate (R268). -/
def Device.ssmReceived (d : Device) (p code : Nat) : Device := (d.set (Reg.timeSynceQlRx p) code).sourceQl (0x20 + p) (qlOfSsm code)

/-- ESMC_MESSAGE: the port takes the QL; the enhanced code where TIME_SYNCE_ENHANCED is set and the message has it (R268). -/
def execEsmcMessage (port : Fin 8) (good : Bool) (ssm : BitVec 4) (enhanced : Option (BitVec 8)) (s : State) :
    Host.Outcome State Fault Refusal :=
  onDev s (fun d =>
    if d.dead ∨ d.get (Reg.timeSynceLane port) = 0xFF then d
    else if !good then d.bump (Reg.timeSynceEsmcErrors port)
    else
      match enhanced with
      | some e => d.takeSeq.ssmReceived port (if d.on (Reg.timeSynceEnhanced port) then e.toNat else ssm.toNat)
      | none => d.takeSeq.ssmReceived port ssm.toNat)

/-- ESMC_TIMEOUT: no message for 5 s: QL DNU (R268). -/
def execEsmcTimeout (port : Fin 8) (s : State) : Host.Outcome State Fault Refusal :=
  onDev s (fun d =>
    if d.dead then d
    else if d.get (Reg.timeSynceLane port) = 0xFF ∨ d.get (Reg.timeSynceQlRx port) = 0x0F then d.takeSeq.stale
    else d.takeSeq.ssmReceived port 0x0F)

/-- ESMC_MESSAGE_TRANSMIT: a port with TIME_SYNCE_ESMC_TX sends the advertised QL, or DNU towards the source of the Selected candidate
(R268). -/
def execEsmcMessageTransmit (port : Fin 8) (s : State) : Host.Outcome State Fault Refusal :=
  onDev s (fun d =>
    let p := port.val
    if d.dead ∨ d.get (Reg.timeSynceLane p) = 0xFF ∨ !d.on (Reg.timeSynceEsmcTx p) then d
    else
      let sel := d.get Reg.timeSelected
      let own := sel != 0xFF && d.get (Reg.timeCandSource sel) == 0x20 + p
      d.send (.esmc p (if own then 0x0F else ssmOfQl (d.on (Reg.timeSynceEnhanced p)) d.advertised)))

/-! ### Candidates and selection (R263, R269 to R280) -/

/-- An instant lies within a span before now. -/
def recent (now span : Nat) (t : Option Nat) : Bool :=
  match t with
  | some x => decide (now ≤ x + span)
  | none => false

/-- The far end's reference group, the one with the lowest-numbered subcarrier in use, is in Sync (R130). -/
def Device.farInSync (d : Device) (c : Nat) : Bool :=
  match (List.range 16).find? (fun k => d.get (Reg.lineRxLoad c k) != 0) with
  | some k => d.get (Reg.frmAlignState c (d.groupOfSc c k)) == 4
  | none => false

/-- Fault [0] (Table 11.3). -/
def Device.noSignal (d : Device) (src : Nat) : Bool :=
  if src = 1 then !recent d.now (1500 * fuMs) d.tim.gnssEdge
  else if src = 2 ∨ src = 3 then
    !recent d.now (if d.get (Reg.timeExtMode (src - 2)) = 0 then 1500 * fuMs else 3 * fuSec / d.get (Reg.timeExtFreq (src - 2))) (tblGet d.tim.extEdge (src - 2))
  else if 0x10 ≤ src ∧ src ≤ 0x17 then !recent d.now (3 * fuSec / 16) (d.ptpPort (src - 0x10)).syncAt
  else if 0x20 ≤ src ∧ src ≤ 0x27 then
    d.get (Reg.lanePortState (d.get (Reg.timeSynceLane (src - 0x20)) % 32)) != 2
  else if src = 0x30 ∨ src = 0x31 then
    d.get (Reg.timeLtMode (src - 0x30)) == 0 || d.get (Reg.lineRxState (src - 0x30)) != 3 || !d.farInSync (src - 0x30) || !recent d.now fuSec (d.tim.lt.at (src - 0x30)).exchangeAt
  else d.get Reg.twinState != 3

/-- Fault [3]: no time of day (Table 11.3). -/
def Device.noTimeOfDay (d : Device) (src : Nat) : Bool :=
  if src = 1 then !recent d.now (2 * fuSec) d.tim.gnssPaired || d.tim.gnssBad
  else if 0x10 ≤ src ∧ src ≤ 0x17 then !recent d.now (3 * fuSec / 8) (d.ptpPort (src - 0x10)).announceAt
  else if src = 0x30 ∨ src = 0x31 then !recent d.now (2 * fuSec) (d.tim.lt.at (src - 0x30)).infoAt || (d.tim.lt.at (src - 0x30)).stampBad
  else false

/-- A condition of Table 11.3 on a candidate as the state shows it; a phase jump between two measurements it does not show. -/
def Device.faultHolds (d : Device) (n k : Nat) : Option Bool :=
  let src := d.get (Reg.timeCandSource n)
  match k with
  | 0 => some (d.noSignal src)
  | 1 => some (decide (1000 * d.get (Reg.timeFreqLimit) < (d.getI (Reg.timeCandFreq n)).natAbs))
  | 2 => if d.candF n then some false else none
  | _ => some (d.noTimeOfDay src)

/-- The faults of Table 11.3 that the state shows when a source is named: no signal, no time of day. -/
def Device.faultsShown (d : Device) (src : Nat) : Nat := b2n (d.noSignal src) + 8 * b2n (d.noTimeOfDay src)

/-- CANDIDATE_FAULT_CHANGE: a condition of Table 11.3 appears or ends; stale where the state shows otherwise (R32). -/
def execCandidateFaultChange (cand : Fin 16) (fault : Fin 4) (declare : Bool) (s : State) : Host.Outcome State Fault Refusal :=
  onDev s (fun d =>
    if d.dead ∨ d.get (Reg.timeCandSource cand) = 0 ∨ bitAt (d.get (Reg.timeCandFaults cand)) fault = declare then d
    else if d.faultHolds cand fault = some (!declare) then d.takeSeq.stale
    else d.takeSeq.setFault cand fault declare)

/-- PROOFING_EXPIRY: the candidate becomes Qualified (R270); stale in any other state. -/
def execProofingExpiry (cand : Fin 16) (s : State) : Host.Outcome State Fault Refusal :=
  onDev s (fun d =>
    if d.dead then d
    else
      let d := d.takeSeq
      if d.get (Reg.timeCandState cand) = 2 then (d.candState cand 3).reselect else d.stale)

/-- A source code of Table 11.1. -/
def sourceCode (v : Nat) : Bool :=
  decide (v ≤ 0x03 ∨ (0x10 ≤ v ∧ v ≤ 0x17) ∨ (0x20 ≤ v ∧ v ≤ 0x27) ∨ v = 0x30 ∨ v = 0x31 ∨ v = 0x40)

/-- Why a source is refused (R263). -/
def candSourceCheck (n v : Nat) (d : Device) : Option Err :=
  if !sourceCode v then some (err stInvalidValue)
  else
    match (List.range 16).find? (fun m => m != n && v != 0 && d.get (Reg.timeCandSource m) == v) with
    | some m => some (errObj stInUse (Reg.timeCandSource m).ref)
    | none =>
      if (0x10 ≤ v ∧ v ≤ 0x17 ∧ d.get (Reg.timePtpLane (v - 0x10)) = 0xFF) ∨ (0x20 ≤ v ∧ v ≤ 0x27 ∧ d.get (Reg.timeSynceLane (v - 0x20)) = 0xFF) ∨
        ((v = 0x30 ∨ v = 0x31) ∧ d.on (Reg.hubEnable (v - 0x30)) = true) ∨ (v = 0x31 ∧ d.on Reg.frmBondMode = true) then
        some (err stInvalidCombination)
      else if d.get (Reg.timeCandState n) = 5 then some (err stNotPermitted)
      else none

/-- Effect of a write of TIME_CAND_SOURCE (R263, R270): Disabled, or Failed or Proofing by the faults the state shows. -/
def applyCandSource (n v : Nat) (d : Device) : Device :=
  let d := d.putValue (Reg.timeCandSource n) v
  let d := d.putCand n ⟨true, 15, 0, 0⟩
  if v = 0 then (((d.set (Reg.timeCandFaults n) 0).candState n 0).refreshQl n).reselect
  else
    let bad := d.faultsShown v
    let d := (d.candState n 0).set (Reg.timeCandFaults n) bad
    let d := if v = 1 then d.putCand n { d.cand n with ql := gnssQl (d.get Reg.timeGnssStatus) }
      else if 0x10 ≤ v ∧ v ≤ 0x17 then d.putCand n { d.cand n with ql := qlOfClass (d.get (Reg.timePtpClassRx (v - 0x10))) }
      else if 0x20 ≤ v ∧ v ≤ 0x27 then d.putCand n { d.cand n with ql := qlOfSsm (d.get (Reg.timeSynceQlRx (v - 0x20))) }
      else d
    (((d.candState n (if bad ≠ 0 then 1 else 2)).refreshQl n)).reselect

/-- TIME_CAND_SOURCE. -/
def execTimeCandSource (q : Req) (cand : Fin 16) (v : Val) (s : State) : Host.Outcome State Fault Refusal :=
  onDev s (fun d => d.serve q 2 1 true (Reg.timeCandSource cand).ref (fun _ d =>
    d.plainWriteR (Reg.timeCandSource cand) .any q v (fun d =>
      match candSourceCheck cand v.raw d with
      | some e => (d, .fail e)
      | none => d.withhold q (Reg.timeCandSource cand).ref (applyCandSource cand v.raw d, okWrite))))

/-- TIME_FORCE creates a reference change (R276). -/
def writeTimeForce (q : Req) (v : Val) (d : Device) : Device × Reply :=
  if valueCheck Reg.timeForce .any v = none ∧ 15 < v.raw then d.refuseAction (err stInvalidValue)
  else d.actionWrite Reg.timeForce q v .pps 4 []

/-- TIME_FORCE. -/
def execTimeForce (q : Req) (v : Val) (s : State) : Host.Outcome State Fault Refusal :=
  onDev s (fun d => d.serve q 2 1 true Reg.timeForce.ref (fun _ d => writeTimeForce q v d))

/-- REFERENCE_CHANGE: a change fires on its PPS boundary: a Qualified candidate becomes Selected; otherwise the change fails and the selection
runs again (R276). -/
def execReferenceChange (handle : BitVec 32) (phase : Int) (poison : Bool) (s : State) : Host.Outcome State Fault Refusal :=
  onDev s (fun d =>
    match d.action? handle.toNat with
    | none => d
    | some a =>
      if a.cls = 4 ∧ d.mayFire a = true then
        (d.fire handle.toNat 4 poison (fun a x =>
          if x.get (Reg.timeCandState a.value) = 3 then
            let x := if a.origin = .device then x else x.putValue Reg.timeForce a.value
            .ok (x.takeCandidate a.value phase)
          else .error (err stNotPermitted))).reselect
      else d)

/-- PULL_COMPLETE: the build-out is zero (R277); stale with no pull. -/
def execPullComplete (s : State) : Host.Outcome State Fault Refusal :=
  onDev s (fun d =>
    if d.dead then d
    else
      let d := d.takeSeq
      if d.tim.pull.isSome then d.startPull 0 0 else d.stale)

/-- LOCK_WINDOW_REACHED: within the window for 10 s with no pull: Locked (R280). -/
def execLockWindowReached (s : State) : Host.Outcome State Fault Refusal :=
  onDev s (fun d =>
    if d.dead then d
    else
      let d := d.takeSeq
      if d.get Reg.timeLock = 1 ∧ d.get Reg.timeSelected ≠ 0xFF ∧ d.tim.pull = none then (d.setLock 2).publishHo else d.stale)

/-! ### The loop in software (R283, R284) -/

/-- TIME_LOOP_MODE creates an action of kind PPS. -/
def writeLoopMode (q : Req) (v : Val) (d : Device) : Device × Reply :=
  if valueCheck Reg.timeLoopMode .any v = none ∧ 1 < v.raw then d.refuseAction (err stInvalidValue)
  else d.actionWrite Reg.timeLoopMode q v .pps 8 []

/-- TIME_LOOP_MODE. -/
def execTimeLoopMode (q : Req) (v : Val) (s : State) : Host.Outcome State Fault Refusal :=
  onDev s (fun d => d.serve q 2 1 true Reg.timeLoopMode.ref (fun _ d => writeLoopMode q v d))

/-- TIME_LOOP_MODE becomes 1: the filter stops, no pull runs, TIME_LOCK reads Software. -/
def applyLoopEntry (d : Device) : Device :=
  ((d.putValue Reg.timeLoopMode 1).startPull 0 0).set Reg.timeLock 5

/-- TIME_LOOP_MODE becomes 0: the integrator is loaded from TIME_SW_FREQ, the Selected candidate's phase becomes a build-out. -/
def applyLoopExit (phase : Int) (d : Device) : Device :=
  let d := d.putValue Reg.timeLoopMode 0
  let d := (d.onTim (fun t => { t with cNext := none })).setLoop (d.getI Reg.timeSwFreq)
  let sel := d.get Reg.timeSelected
  if sel ≠ 0xFF then (if d.candF sel then d.startPull 0 0 else d.startPull phase d.slope).setLock 1
  else if d.get Reg.schedTimeState = 3 then ((d.startPull 0 0).setLock 4).correctNext d.holdC.1
  else if d.get Reg.schedTimeState = 2 then (d.startPull 0 0).setLock 3
  else (d.startPull 0 0).setLock 0

/-- SOFTWARE_LOOP_ENTRY: the write of 1 fires. -/
def execSoftwareLoopEntry (handle : BitVec 32) (poison : Bool) (s : State) : Host.Outcome State Fault Refusal :=
  onDev s (fun d => d.fireOn handle.toNat 8 Reg.timeLoopMode.ref 1 poison (fun _ x => .ok (applyLoopEntry x)))

/-- SOFTWARE_LOOP_EXIT: the write of 0 fires; `phase` of the Selected candidate in ps. -/
def execSoftwareLoopExit (handle : BitVec 32) (phase : Int) (poison : Bool) (s : State) : Host.Outcome State Fault Refusal :=
  onDev s (fun d => d.fireOn handle.toNat 8 Reg.timeLoopMode.ref 0 poison (fun _ x => .ok (applyLoopExit phase x)))

/-- TIME_SW_FREQ written: under software control it takes effect at the next calendar boundary. -/
def applySwFreq (v : Nat) (d : Device) : Device :=
  let d := d.putValue Reg.timeSwFreq v
  if d.get Reg.timeLoopMode = 1 then d.correctNext (toSigned 64 v) else d

/-- TIME_SW_FREQ: within ±5·10^10. -/
def execTimeSwFreq (q : Req) (v : Val) (s : State) : Host.Outcome State Fault Refusal :=
  onDev s (fun d => d.serve q 2 1 true Reg.timeSwFreq.ref (fun _ d =>
    d.plainWriteR Reg.timeSwFreq (.span (-50000000000) 50000000000) q v (fun d =>
      d.withhold q Reg.timeSwFreq.ref (applySwFreq v.raw d, okWrite))))

/-- TIME_SW_PHASE written: it replaces what is left of the pull, at TIME_SLOPE. -/
def applySwPhase (v : Nat) (d : Device) : Device := d.startPull (toSigned 64 v) (d.get Reg.timeSlope)

/-- TIME_SW_PHASE. -/
def execTimeSwPhase (q : Req) (v : Val) (s : State) : Host.Outcome State Fault Refusal :=
  onDev s (fun d => d.serve q 2 1 true Reg.timeSwPhase.ref (fun _ d =>
    d.plainWrite Reg.timeSwPhase q v (fun d => d.withhold q Reg.timeSwPhase.ref (applySwPhase v.raw d, okWrite))))

/-- SW_WATCHDOG_EXPIRY: an action of the device returns the loop to hardware control, with a notice (R284). -/
def execSwWatchdogExpiry (s : State) : Host.Outcome State Fault Refusal :=
  onDev s (fun d =>
    if d.dead then d
    else
      let d := d.takeSeq
      if d.get Reg.timeLoopMode = 1 then
        (d.scheduleOwn (newAction .pps .device 8 Reg.timeLoopMode.ref 0 0)).notice Reg.timeLoopMode [0]
      else d.stale)

/-! ### Outputs (R292) -/

/-- The object of TIME_PPS_OFFSET or TIME_FREQ_OUT, its range, and its place among the outputs. -/
def outObj (freq : Bool) (k : Nat) : Obj := if freq then Reg.timeFreqOut k else Reg.timePpsOffset k
def outRange (freq : Bool) : Range := if freq then .span 0 250000000 else .span (-1000000) 1000000

/-- A write waits for the next PPS boundary whose arming point follows it. -/
def applyOut (freq : Bool) (k v : Nat) (d : Device) : Device :=
  let o := outObj freq k
  let d := d.putValue o v
  d.onTim (fun t => { t with outNext := tblPut t.outNext (k + 2 * b2n freq) (o.asInt v, d.now) })

/-- TIME_PPS_OFFSET and TIME_FREQ_OUT. -/
def execTimePpsOffset (q : Req) (freq : Bool) (k : Fin 2) (v : Val) (s : State) : Host.Outcome State Fault Refusal :=
  onDev s (fun d => d.serve q 2 1 true (outObj freq k).ref (fun _ d =>
    d.plainWriteR (outObj freq k) (outRange freq) q v (fun d => d.withhold q (outObj freq k).ref (applyOut freq k v.raw d, okWrite))))

end Sys2Proof.Machine
end

