-- ==== Sys2Proof/Machine/LineTime.lean ====
section
/-! DEFINITION. Line time transfer (R285 to R287): marks, TT_INFO, TT_RETURN, offset and mean delay. -/

namespace Sys2Proof.Machine

/-- An interval of 62.5 ms in fu. -/
def fuMark : Nat := fuSec / 16

def Device.putLt (d : Device) (c : Nat) (x : LineTime) : Device := d.onTim (fun t => { t with lt := t.lt.put c x })

/-- TX_FREQ: the transmit laser's frequency in MHz. -/
def Device.txFreq (d : Device) (c : Nat) : Int :=
  match (d.itlaPorts c 0).head? with
  | some n => (d.get (Reg.lineItlaFreq n) : Int) + d.getI (Reg.lineItlaFtf n)
  | none => 0

/-! ### Messages (Table 11.7) -/

/-- The 64 bytes of TT_INFO. -/
def ttInfoWord (frame tick state ql steps : Nat) (loop : Bool) (source offset freq : Nat) : Nat :=
  0x10 * 2 ^ 504 + frame % 2 ^ 48 * 2 ^ 456 + tick % 2 ^ 96 * 2 ^ 360 + state % 256 * 2 ^ 352 + ql % 256 * 2 ^ 344 + steps % 256 * 2 ^ 336 +
    b2n loop * 2 ^ 335 + source % 2 ^ 64 * 2 ^ 264 + offset % 2 ^ 32 * 2 ^ 232 + freq % 2 ^ 32 * 2 ^ 200

/-- The 64 bytes of TT_RETURN. -/
def ttReturnWord (frame rx : Nat) (cd : Int) (valid : Bool) : Nat :=
  0x11 * 2 ^ 504 + frame % 2 ^ 48 * 2 ^ 456 + rx % 2 ^ 96 * 2 ^ 360 + ofSigned 32 cd * 2 ^ 328 + b2n valid * 2 ^ 327

def ttFrame (w : Nat) : Nat := bits w 503 456
def ttTime (w : Nat) : Nat := bits w 455 360
def ttState (w : Nat) : Nat := bits w 359 352
def ttQl (w : Nat) : Nat := bits w 351 344
def ttSteps (w : Nat) : Nat := bits w 343 336
def ttLoop (w : Nat) : Bool := bitAt w 335
def ttOffset (w : Nat) : Nat := bits w 263 232
def ttFreq (w : Nat) : Nat := bits w 231 200
def ttCd (w : Nat) : Int := toSigned 32 (bits w 359 328)
def ttCdValid (w : Nat) : Bool := bitAt w 327

/-- The local dispersion estimate has been Tracking for at least 1 s (R285). -/
def Device.cdTracked (d : Device) (c : Nat) : Bool := d.get (Reg.lineRxCdState c) == 3 && decide ((d.rx.at c).cdAt + fuSec ≤ d.now)

/-- A time-class message of group g is taken: the group is in Sync, or its slot is discarded (R132). -/
def Device.takesTime (d : Device) (c g : Nat) : Bool := d.get (Reg.frmAlignState c g) == 4

/-- TT_MARK_INTERVAL: the reference group's frame that ticked last is the first of its interval: it is marked and its block 1 carries TT_INFO
(R285). `txOffset` in ps from the tick to the transmit reference plane. -/
def execTtMarkInterval (c : CarrierNo) (txOffset : BitVec 32) (s : State) : Host.Outcome State Fault Refusal :=
  onDev s (fun d =>
    let tick := (d.frm.at c).tickAt
    let l := d.tim.lt.at c
    match d.txReference c with
    | none => d
    | some g =>
      if d.dead ∨ d.get (Reg.lineTxState c) = 0 ∨ tick = 0 ∨ l.marks.any (fun m => m.interval == tick / fuMark) = true then d
      else
        let frame := ((d.txg c g).frameCount + 2 ^ 48 - 1) % 2 ^ 48
        let d := d.putLt c { l with marks := (⟨frame, tick, txOffset.toNat, tick / fuMark⟩ :: l.marks).take 16 }
        let sel := d.get Reg.timeSelected
        let loop := sel != 0xFF && d.get (Reg.timeCandSource sel) == 0x30 + c.val
        let w := ttInfoWord frame (fuToTime96 tick) (d.get Reg.schedTimeState) d.advertised d.stepsSent loop (Config.unstated d.free) txOffset.toNat (d.txFreq c).toNat
        ({ d with free := d.free + 1 }.post c ⟨17, [g], false, 0, w⟩).send (.ttInfo c g w))

/-- TT_INFO: the measurement of the marked frame, whose block 0 came at `arrival`, is kept and TT_RETURN goes back in the next time-class slot of the reference
group, unless the frame's stamp disagrees or the half failed (R285, R286); the candidate of the line takes the far end's QL, 15 for LOOP or Unset (R271). -/
def execTtInfo (c : CarrierNo) (g : ScNo) (msg : BitVec 512) (failedHalf : Bool) (arrival : Nat) (s : State) : Host.Outcome State Fault Refusal :=
  onDev s (fun d =>
    let w := msg.toNat
    if d.dead ∨ d.on (Reg.hubEnable c) = true ∨ slotType w ≠ 0x10 then d
    else if !d.takesTime c g then d.bump (Reg.frmSlotDiscards c)
    else
      let d := d.takeSeq
      let bad := (d.rxg c g).stamp != ttStamp (time96ToFu (ttTime w))
      let d := if failedHalf then d else d.putLt c { d.tim.lt.at c with stampBad := bad }
      if failedHalf ∨ bad then d.bump (Reg.timeLtDiscards c)
      else
        let l := d.tim.lt.at c
        let k : LtMeas := ⟨ttFrame w, time96ToFu (ttTime w), ttOffset w, arrival, arrival / fuMark⟩
        let d := d.putLt c { l with kept := (k :: l.kept).take 16, infoAt := some d.now }
        let d := (d.set (Reg.timeLtFarFreq c) (ttFreq w)).set (Reg.timeLtFarQl c) (ttQl w)
        let v := ttReturnWord (ttFrame w) (fuToTime96 arrival) (d.getI (Reg.lineRxCd c)) (d.cdTracked c)
        let d := match d.txReference c with
          | some h => (d.post c ⟨1, [h], false, 0, v⟩).send (.ttReturn c h v)
          | none => d
        let d := match d.candOf (0x30 + c) with
          | some n => d.putCand n { d.cand n with steps := ttSteps w }
          | none => d
        d.sourceQl (0x30 + c) (if ttLoop w ∨ ttState w = 0 then 15 else ttQl w))

/-- Picoseconds of a count of fu. -/
def psOf (t : Int) : Rat := (t : Rat) * 1000 / 65536

/-- A wavelength in nm from a frequency in MHz. -/
def lambda (mhz : Int) : Rat := 299792458000 / (mhz : Rat)

/-- A in ps (R287): none where the measurement must be discarded or mode 0 gives none. -/
def Device.asymmetry (d : Device) (c : Nat) (farCd : Int) (valid : Bool) : Option Int :=
  match d.get (Reg.timeLtMode c) with
  | 1 =>
    if valid then
      some (ratRound ((((d.getI (Reg.lineRxCd c) + farCd : Int) : Rat) / 2) * (lambda (d.get (Reg.timeLtFarFreq c)) - lambda (d.txFreq c))) +
        d.getI (Reg.timeLtAsymFixed c))
    else none
  | 2 => some (d.getI (Reg.timeLtAsym c))
  | _ => none

/-- Offset and mean delay in ps of a completed exchange (R286). -/
def exchange (m : LtMeas) (h : LtMark) (rxTime a refer : Int) : Int × Int :=
  let dfl := psOf ((m.arrival : Int) - m.tick) - (m.offset : Nat)
  let dlf := psOf (rxTime - h.tick) - (h.offset : Nat) + psOf refer
  (ratRound ((dfl - dlf - a) / 2), ratRound ((dfl + dlf) / 2))

/-- TT_RETURN: the far end's arrival of a marked frame is paired with the measurement of the same interval; offset, mean delay and A follow. A
half that failed, no partner, or a dispersion estimate not valid in mode 1: discarded (R286, R287). -/
def execTtReturn (c : CarrierNo) (g : ScNo) (msg : BitVec 512) (failedHalf : Bool) (s : State) : Host.Outcome State Fault Refusal :=
  onDev s (fun d =>
    let w := msg.toNat
    if d.dead ∨ d.on (Reg.hubEnable c) = true ∨ slotType w ≠ 0x11 then d
    else if !d.takesTime c g then d.bump (Reg.frmSlotDiscards c)
    else
      let d := d.takeSeq
      let l := d.tim.lt.at c
      let h := l.marks.find? (fun m => m.frame == ttFrame w)
      let g := h.bind (fun h => l.kept.find? (fun m => m.interval == h.interval))
      match failedHalf, h, g with
      | false, some h, some g =>
        let d := d.setI (Reg.timeLtFarCd c) (ttCd w)
        match d.asymmetry c (ttCd w) (ttCdValid w && d.cdTracked c) with
        | some a =>
          let rx := time96ToFu (ttTime w)
          let r := exchange g h rx a (Config.ttRefer (d.getI (Reg.lineRxClockOffset c)) g.arrival h.tick)
          let d := d.putLt c { l with exchangeAt := some d.now, marks := l.marks.filter (· != h), kept := l.kept.filter (· != g), thetas := l.thetas ++ [r.1] }
          (((d.setI (Reg.timeLtAsymUsed c) a).setI (Reg.timeLtOffset c) r.1).setI (Reg.timeLtMeanDelay c) r.2).bump (Reg.timeLtExchanges c)
        | none => d.bump (Reg.timeLtDiscards c)
      | _, _, _ => d.bump (Reg.timeLtDiscards c))

end Sys2Proof.Machine
end

