-- ==== Sys2Proof/Machine/LineTx.lean ====
section
/-! DEFINITION. Transmit enable and squelch of a carrier (chapter 03, R61 to R65). -/

namespace Sys2Proof.Machine

/-- Effect of a write of LINE_TX_ENABLE (R62): 1 in Off starts the carrier, 0 returns it to Off. -/
def applyTxEnable (c v : Nat) (d : Device) : Device :=
  let d := d.putValue (Reg.lineTxEnable c) v
  if v = 1 then (if d.get (Reg.lineTxState c) = 0 then d.startTx c else d) else d.stopTx c

/-- LINE_TX_ENABLE_ON: LINE_TX_ENABLE written 1 (R62). -/
def execLineTxEnableOn (q : Req) (c : CarrierNo) (s : State) : Host.Outcome State Fault Refusal :=
  onDev s (fun d => d.serve q 2 1 true (Reg.lineTxEnable c).ref (fun _ d =>
    d.plainWriteR (Reg.lineTxEnable c) .any q ⟨1, 1⟩ (fun d =>
      d.withhold q (Reg.lineTxEnable c).ref (applyTxEnable c 1 d, okWrite))))

/-- LINE_TX_ENABLE_OFF: LINE_TX_ENABLE written 0 (R62). -/
def execLineTxEnableOff (q : Req) (c : CarrierNo) (s : State) : Host.Outcome State Fault Refusal :=
  onDev s (fun d => d.serve q 2 1 true (Reg.lineTxEnable c).ref (fun _ d =>
    d.plainWriteR (Reg.lineTxEnable c) .any q ⟨1, 0⟩ (fun d =>
      d.withhold q (Reg.lineTxEnable c).ref (applyTxEnable c 0 d, okWrite))))

/-- TX_ACTIVE_ENTRY: from Starting to Active once every condition of R62 holds and no squelch cause is present. -/
def execTxActiveEntry (c : CarrierNo) (s : State) : Host.Outcome State Fault Refusal :=
  onDev s (fun d =>
    if !d.dead ∧ d.get (Reg.lineTxState c) = 1 ∧ d.get (Reg.lineTxCauses c) = 0 ∧ d.txConditions c then
      (d.takeSeq.set (Reg.lineTxState c) 3).notice (Reg.lineTxState c) [3]
    else d)

/-- TX_START_TIMEOUT: LINE_TX_START_LIMIT ran out in Starting: an event, the state stays (R62). Stale outside Starting. -/
def execTxStartTimeout (c : CarrierNo) (s : State) : Host.Outcome State Fault Refusal :=
  onDev s (fun d =>
    if d.dead then d
    else
      let d := d.takeSeq
      if d.get (Reg.lineTxState c) = 1 then d.notice (Reg.lineTxStartLimit c) [d.get (Reg.lineTxStartLimit c)] else d.stale)

/-- Effect of a write of LINE_TX_SQUELCH: cause [0] (Table 3.5). -/
def applyTxSquelch (c v : Nat) (d : Device) : Device :=
  let d := d.putValue (Reg.lineTxSquelch c) v
  if v = 1 then d.setTxCause c 0 else d.clearTxCause c 0

/-- LINE_TX_SQUELCH_SET: LINE_TX_SQUELCH written 1 (R63). -/
def execLineTxSquelchSet (q : Req) (c : CarrierNo) (s : State) : Host.Outcome State Fault Refusal :=
  onDev s (fun d => d.serve q 2 1 true (Reg.lineTxSquelch c).ref (fun _ d =>
    d.plainWriteR (Reg.lineTxSquelch c) .any q ⟨1, 1⟩ (fun d =>
      d.withhold q (Reg.lineTxSquelch c).ref (applyTxSquelch c 1 d, okWrite))))

/-- LINE_TX_SQUELCH_CLEAR: LINE_TX_SQUELCH written 0 (R64). -/
def execLineTxSquelchClear (q : Req) (c : CarrierNo) (s : State) : Host.Outcome State Fault Refusal :=
  onDev s (fun d => d.serve q 2 1 true (Reg.lineTxSquelch c).ref (fun _ d =>
    d.plainWriteR (Reg.lineTxSquelch c) .any q ⟨1, 0⟩ (fun d =>
      d.withhold q (Reg.lineTxSquelch c).ref (applyTxSquelch c 0 d, okWrite))))

/-- TXOFF_N_LOW: a low level of 20 ns sets cause [1] on both carriers (R64). A hardware path: it acts in a control restart too. -/
def execTxoffNLow (s : State) : Host.Outcome State Fault Refusal :=
  onDev s (fun d => if d.dead then d else (d.takeSeq.setTxCause 0 1).setTxCause 1 1)

/-- TXOFF_N_CLEAR: TXOFF_N high for 10 ms without a break clears cause [1] on both carriers (R64). -/
def execTxoffNClear (s : State) : Host.Outcome State Fault Refusal :=
  onDev s (fun d =>
    if d.dead then d
    else
      let d := d.takeSeq
      if bitAt (d.get (Reg.lineTxCauses 0)) 1 ∨ bitAt (d.get (Reg.lineTxCauses 1)) 1 then (d.clearTxCause 0 1).clearTxCause 1 1
      else d.stale)

/-- DAC_SYNTH_LOCK_LOSS: the synthesiser of a carrier's DAC clock loses lock: cause [3] (Table 3.5). -/
def execDacSynthLockLoss (c : CarrierNo) (s : State) : Host.Outcome State Fault Refusal :=
  onDev s (fun d => if d.dead then d else d.takeSeq.setTxCause c 3)

/-- DAC_SYNTHESISER_RELOCK: the synthesiser regains lock: cause [3] clears (R63, R64). -/
def execDacSynthesiserRelock (c : CarrierNo) (s : State) : Host.Outcome State Fault Refusal :=
  onDev s (fun d => if d.dead then d else d.takeSeq.clearTxCause c 3)

end Sys2Proof.Machine
end

