-- ==== Sys2Proof/Machine/Hub.lean ====
section
/-! DEFINITION. Hub mode: grants, burst reception, policing, discovery and ranging, leaf states (chapter 07). -/

namespace Sys2Proof.Machine

/-! ### Accessors and layouts (Tables 7.1, 7.3, 7.7) -/

/-- Burst length in units: 65 + 16 * ceil(B * W / (32 * c)) (R158). -/
def burstLen (blocks code overhead : Nat) : Nat := 65 + 16 * ceilDiv (blocks * innerLength overhead) (32 * effCode code)

/-- A record with its LENGTH set (Table 7.1). -/
def withLength (overhead w : Nat) : Nat := w / 2 ^ 16 * 2 ^ 16 + burstLen (grBlocks w) (grCode w) overhead

/-- A record without its LENGTH, as the host gives it. -/
def bareRecord (w : Nat) : Nat := w / 2 ^ 16 * 2 ^ 16

/-- Burst header fields (Table 7.3). -/
def huLast (w : Nat) : Nat := bits w 123 120
def huRdi (w : Nat) : Bool := bitAt w 119
def huAis (w : Nat) : Bool := bitAt w 118
def huLeaf (w : Nat) : Nat := bits w 111 104
def huSeq (w : Nat) : Nat := bits w 103 72
def huDsSnr (w : Nat) : Nat := bits w 71 56

/-- A leaf's record in a table. -/
def recordFor (rs : List Nat) (l : Nat) : Option Nat := rs.find? (fun r => grLeaf r == l)

/-! ### Hub mode and downstream codes (R150, R151) -/

/-- HUB_ENABLE written v. -/
def hubEnableCheck (c v : Nat) (d : Device) : Option Err :=
  if !d.carrierOff c then some (err stNotPermitted)
  else if v = 1 && d.on Reg.frmBondMode then some (err stInvalidCombination)
  else d.loadCheck d.poolLoad

/-- Effect of a write of HUB_ENABLE: the group layout follows, and every subcarrier path is Idle; outside hub mode discovery is off. -/
def applyHubEnable (c v : Nat) (d : Device) : Device :=
  let d := (d.putValue (Reg.hubEnable c) v).layout
  let d := { d with hub := d.hub.put c { d.hub.at c with paths := [], registers := [], messages := [] } }
  let d := if v = 0 then (d.set (Reg.hubDiscState c) 0).set (Reg.hubDiscSc c) 0xFF else d
  d.each (List.range 16) (fun k x => x.set (Reg.hubUsState c k) 0)

/-- HUB_ENABLE (R150). -/
def execHubEnable (q : Req) (c : CarrierNo) (v : Val) (s : State) : Host.Outcome State Fault Refusal :=
  onDev s (fun d => d.serve q 2 1 true (Reg.hubEnable c).ref (fun _ d =>
    d.plainWriteR (Reg.hubEnable c) .any q v (fun d =>
      match hubEnableCheck c v.raw d with
      | some e => (d, .fail e)
      | none => d.withhold q (Reg.hubEnable c).ref (applyHubEnable c v.raw d, okWrite))))

/-- HUB_DS_CODE written: an action of class 0x0002 that needs the downstream path awake (R151, R172). -/
def writeDsCode (q : Req) (c sc : Nat) (v : Val) (d : Device) : Device × Reply :=
  if !codeOk v.raw then d.refuseAction (err stInvalidValue)
  else d.actionWrite (Reg.hubDsCode c sc) q v (d.lineKind c) 0x0002 [resHubPath c sc 0]

/-- HUB_DS_CODE. -/
def execHubDsCode (q : Req) (c : CarrierNo) (sc : ScNo) (v : Val) (s : State) : Host.Outcome State Fault Refusal :=
  onDev s (fun d => d.serve q 2 1 true (Reg.hubDsCode c sc).ref (fun _ d => writeDsCode q c sc v d))

/-! ### Grant tables (R155, R156) -/

/-- No element occurs twice. -/
def allDiff : List Nat → Bool
  | [] => true
  | x :: r => !r.contains x && allDiff r

/-- Two bursts on a subcarrier, in either order, keep the guard, the gap round the cycle included. -/
def burstsApart (guard overhead a b : Nat) : Bool :=
  let ea := grStart a + burstLen (grBlocks a) (grCode a) overhead
  let eb := grStart b + burstLen (grBlocks b) (grCode b) overhead
  if grStart a ≤ grStart b then decide (ea + guard ≤ grStart b ∧ eb + guard ≤ grStart a + 13000)
  else decide (eb + guard ≤ grStart a ∧ ea + guard ≤ grStart b + 13000)

/-- Every pair of a list satisfies p. -/
def allPairs (p : Nat → Nat → Bool) : List Nat → Bool
  | [] => true
  | x :: r => r.all (p x) && allPairs p r

/-- The checks of R155 on one subcarrier's records. -/
def scRecordsOk (guard overhead : Nat) (rs : List Nat) : Bool :=
  decide (rs.length ≤ 8) && (rs.all (fun r => !grCont r) || rs.length == 1) &&
    (rs.filter (fun r => !grCont r)).all (fun r =>
      decide (grStart r + burstLen (grBlocks r) (grCode r) overhead ≤ 13000 ∧
        burstLen (grBlocks r) (grCode r) overhead + guard ≤ 13000)) &&
    allPairs (burstsApart guard overhead) (rs.filter (fun r => !grCont r))

/-- Why a grant table is refused (R155). -/
def grantCheck (c : Nat) (bs : List Nat) (d : Device) : Option Err :=
  let rs := recordsOf 8 bs
  if bs.length % 8 ≠ 0 ∨ rs.any (fun r => decide (127 < grLeaf r)) then some (err stInvalidValue)
  else if rs.any (fun r => !codeOk (grCode r) || grCode r == 0) then some (err stInvalidValue)
  else if !allDiff (rs.map grLeaf) then some (err stInvalidCombination)
  else if rs.any (fun r => ! [2, 3, 4, 5].contains (d.get (Reg.hubLeafState (leafIx c (grLeaf r))))) then some (err stInvalidCombination)
  else if !(List.range 16).all (fun k => scRecordsOk (d.get (Reg.hubGuard c)) (d.overhead c) (rs.filter (fun r => grSc r == k))) then
    some (err stInvalidCombination)
  else if !allDiff ((rs.filter grCont).map (fun r => grLeaf r % 16)) then some (err stInvalidCombination)
  else none

/-- HUB_GRANT_NEXT written: checked whole and held (R155). LENGTH is ignored and kept at 0. -/
def applyGrantNext (c : Nat) (bs : List Nat) (d : Device) : Device × Reply :=
  match grantCheck c bs d with
  | some e => (d, .fail e)
  | none => (d.putDomain (Reg.hubGrantNext c).ref ((recordsOf 8 bs).flatMap (fun r => beBytes 8 (clearBits r 22 0))), .ok [])

/-- HUB_GRANT_NEXT. -/
def execHubGrantNext (q : Req) (c : CarrierNo) (crc : BitVec 32) (s : State) : Host.Outcome State Fault Refusal :=
  onDev s (fun d => d.serve q 5 1 true (Reg.hubGrantNext c).ref (fun _ d => d.takeBlock q (Reg.hubGrantNext c).ref crc.toNat (applyGrantNext c)))

/-- The records of the next grant table. -/
def Device.grantsNext (d : Device) (c : Nat) : List Nat := recordsOf 8 (d.dom (Reg.hubGrantNext c).ref)

/-- The receive paths that the next table names (Table 20.4). -/
def Device.grantNeeds (d : Device) (c : Nat) : List Nat := (d.grantsNext c).map (fun r => resHubPath c (grSc r) 1)

/-- HUB_GRANT_TABLE written: an action of class 0x000A that needs the upstream paths its records name (R156, R172). -/
def writeGrantTable (q : Req) (c : Nat) (v : Val) (d : Device) : Device × Reply :=
  d.actionWrite (Reg.hubGrantTable c) q v (d.lineKind c) 0x000A (d.grantNeeds c)

/-- HUB_GRANT_TABLE. -/
def execHubGrantTable (q : Req) (c : CarrierNo) (v : Val) (s : State) : Host.Outcome State Fault Refusal :=
  onDev s (fun d => d.serve q 2 1 true (Reg.hubGrantTable c).ref (fun _ d => writeGrantTable q c v d))

/-- The carrier of a grant switch: the host's names HUB_GRANT_TABLE, a removal carries it. -/
def grantCarrier (a : Action) : Nat := if a.target = 0 then a.args.headD 0 else a.target / 256 - 0x2802

/-- The first calendar cycle that begins at or after a tick. -/
def cycleAt (t : Nat) : Nat := ceilTo fuCycle t / fuCycle

/-- The tables that reception passes through: the one in force last of all. -/
def Device.grantsLast (d : Device) (c : Nat) : List Nat :=
  match (d.hub.at c).switches.getLast? with
  | some s => s.records
  | none => d.grantsActive c

/-- The records a switch brings: the next table without Quarantined leaves (R166), or the present one without the removed leaves. -/
def Device.grantsOf (d : Device) (a : Action) : List Nat :=
  let c := grantCarrier a
  if a.target = 0 then (d.grantsLast c).filter (fun r => !(a.args.drop 1).contains (grLeaf r))
  else (d.grantsNext c).filter (fun r => d.get (Reg.hubLeafState (leafIx c (grLeaf r))) != 6)

/-- A hub message without its TAG (Tables 7.6, 7.7): fields of given widths, packed from bit 495 down. -/
def hubWord (t leaf : Nat) (fields : List (Nat × Nat)) : Nat :=
  t * 2 ^ 504 + leaf * 2 ^ 496 + (fields.foldl (fun (s : Nat × Nat) e => (s.1 + e.1 % 2 ^ e.2 * 2 ^ (s.2 - e.2), s.2 - e.2)) (0, 496)).1

/-- A message is of a TYPE and for leaf l. -/
def hubMsgFor (t l : Nat) (m : SlotMsg) : Bool := slotType m.word == t && bits m.word 503 496 == l

/-- A hub-class message goes to a leaf on its downstream subcarrier, into one hub-class slot or, where `till` is given, into every one until then. Its tag is
made as it leaves. -/
def Device.hubSend (d : Device) (c l t till : Nat) (fields : List (Nat × Nat)) : Device :=
  let k := d.get (Reg.hubLeafDsSc (leafIx c l))
  let d := d.send (.hub c k t l (fields.map (·.1)))
  if k < 16 then d.post c ⟨3, [k], till != 0, till, hubWord t l fields⟩ else d

/-- Preparation of a grant switch at its arming: HUB_GRANT_FROM, and from now to the launch cycle GRANT to every leaf whose record changes (R156). A removal
keeps the table's number. -/
def prepareGrant (a : Action) (boundary : Nat) (d : Device) : Device :=
  let c := grantCarrier a
  let launch := cycleAt boundary + d.get (Reg.hubGrantLead c)
  let from_ := launch + d.get (Reg.hubEqCycles c)
  let new := (d.grantsOf a).map bareRecord
  let old := (d.grantsLast c).map bareRecord
  let table := if a.target = 0 then d.get (Reg.hubGrantTable c) else a.value
  let d := d.set (Reg.hubGrantFrom c) (fuToTime96 (from_ * fuCycle))
  let changed := (List.range 128).filter (fun l => decide (recordFor new l ≠ recordFor old l))
  d.each changed (fun l x => x.hubSend c l 0x23 (launch * fuCycle) [((recordFor new l).getD (l * 2 ^ 56), 64), (from_, 32), (table, 8)])

/-- A grant switch fires (R156, R166): the table is in force under its number, for launch and reception from their cycles; an earlier switch that
would not begin before it is superseded whole. Its notice names the leaves dropped for quarantine (Device.switchDrops). -/
def fireGrant (a : Action) (d : Device) : Except Err Device :=
  let c := grantCarrier a
  let new := d.grantsOf a
  let n := cycleAt (a.armed.getD d.now)
  let launch := n + d.get (Reg.hubGrantLead c)
  let receive := launch + d.get (Reg.hubEqCycles c)
  let table := if a.target = 0 then d.get (Reg.hubGrantTable c) else a.value
  let d := if a.target = 0 then d else d.putValue (Reg.hubGrantTable c) a.value
  let h := d.hub.at c
  .ok { d with hub := d.hub.put c { h with switches := h.switches.filter (fun s => decide (s.receive < receive)) ++ [⟨table, new, launch, receive⟩] } }

/-- HUB_GRANT_TABLE_SWITCH: an action of class 0x000A fires. -/
def execHubGrantTableSwitch (handle : BitVec 32) (poison : Bool) (s : State) : Host.Outcome State Fault Refusal :=
  onDev s (fun d => d.fire handle.toNat 0x000A poison fireGrant)

/-! ### Leaf states and defects (Tables 7.5, 7.8) -/

/-- HUB_DS_CANDIDATE of a subcarrier: R93's code for the lowest DS_SNR among its Active leaves (R152). -/
def Device.dsCandidate (d : Device) (c k : Nat) : Device :=
  let ls := (List.range 128).filter (fun l => d.get (Reg.hubLeafState (leafIx c l)) == 3 && d.get (Reg.hubLeafDsSc (leafIx c l)) == k &&
    d.get (Reg.hubLeafDsSnr (leafIx c l)) != 0xFFFF)
  match ls with
  | [] => d
  | l :: r =>
    let snr := r.foldl (fun m x => min m (d.get (Reg.hubLeafDsSnr (leafIx c x)))) (d.get (Reg.hubLeafDsSnr (leafIx c l)))
    d.set (Reg.hubDsCandidate c k) (ruleCode snr ((d.get (Reg.lineLoadMargin c) * 10 : Nat)) (d.gap c) (d.get (Reg.lineLoadMaxcode c))
      (!bitAt (d.get (Reg.lineLoadMask c)) k) (d.on (Reg.lineLoadUniform c)))

/-- A leaf changes state: an event (R171); its downstream subcarrier's candidate follows the leaves now Active (R152). -/
def Device.leafState (d : Device) (c l st : Nat) : Device :=
  let old := d.get (Reg.hubLeafState (leafIx c l))
  if old = st then d
  else
    let d := (d.takeSeq.set (Reg.hubLeafState (leafIx c l)) st).notice (Reg.hubLeafState (leafIx c l)) [st]
    if old = 3 ∨ st = 3 then d.dsCandidate c (d.get (Reg.hubLeafDsSc (leafIx c l))) else d

/-- The defects of a leaf as reported: LLOS masks every other. -/
def maskLeaf (raw : Nat) : Nat := if bitAt raw 1 then 2 else raw

/-- What a leaf's defects put on its slices: Missed fill, LLOS and LAIS SF with slice-group AIS, LSD SD. -/
def leafFlags (eff : Nat) : Nat :=
  (if bitAt eff 1 || bitAt eff 2 then 5 else 0) ||| (if bitAt eff 0 then 8 else 0) ||| (if bitAt eff 4 then 2 else 0)

/-- Slots a leaf's record carries. -/
def Device.leafCount (d : Device) (c rec : Nat) : Nat :=
  if grCont rec then lineSlots [grCode rec] (d.overhead c) else 251 * grBlocks rec

/-- The line slots from the leaf's slot a up to b: port, first, count; slots of 4 016 and above lie above every window (R157). -/
def leafSpan (c l a b : Nat) : List (Nat × Nat × Nat) :=
  let p := 0x20 + 16 * c + l % 16
  (if a < 4016 then [(p, l / 16 * 4016 + a, min b 4016 - a)] else []) ++ (if 4016 < b then [(p, 32128 + (max a 4016 - 4016), b - max a 4016)] else [])

/-- Publishes a burst leaf's defects: each change an event, and the actions on its slices; slots shed keep theirs (R148, R157). -/
def Device.publishLeaf (d : Device) (c l : Nat) : Device :=
  let x := d.leafOf c l
  let o := Reg.hubLeafDefects (leafIx c l)
  let old := d.get o
  let new := maskLeaf x.raw
  let d := d.each ((List.range 5).filter (fun k => bitAt old k != bitAt new k)) (fun k y =>
    y.takeSeq.notice o [k, b2n (bitAt new k), new])
  let d := d.set o new
  let f := leafFlags new
  let own := match recordFor (d.grantsActive c) l with
    | some r => if f = 0 ∨ grCont r then [] else (leafSlots c 0 r).map (fun s => (s.1, s.2.1, s.2.2, f))
    | none => []
  let gone := match x.shed with
    | some s => (leafSpan c l s.1 s.2).map (fun r => (r.1, r.2.1, r.2.2, 5))
    | none => []
  d.affect (causeLeaf c l) (own ++ gone)

/-- A leaf is forgotten: its defects and runs end. -/
def Device.forgetLeaf (d : Device) (c l : Nat) : Device :=
  let x := d.leafOf c l
  (d.putLeaf c l { leafNew with nonce := x.nonce, burstCount := x.burstCount }).publishLeaf c l

/-- A leaf is sent DISABLE and leaves for a state. -/
def Device.disableLeaf (d : Device) (c l reason st : Nat) : Device :=
  (((d.hubSend c l 0x25 0 [(reason, 8)]).leafState c l st).forgetLeaf c l)

/-- A violation of a leaf (R165, R166): counted; at HUB_POLICE_LIMIT within 1 s the leaf is Quarantined, told so for 100 ms, and removed from the
table in force by an action of the device. -/
def Device.violation (d : Device) (c l : Nat) : Device :=
  if 127 < l then d
  else
    let d := d.bump (Reg.hubLeafViolations (leafIx c l))
    let x := d.leafOf c l
    let times := x.violations.filter (fun t => decide (d.now < t + fuSec)) ++ [d.now]
    let d := d.putLeaf c l { x with violations := times }
    let st := d.get (Reg.hubLeafState (leafIx c l))
    if d.get (Reg.hubPoliceLimit c) ≤ times.length ∧ 2 ≤ st ∧ st ≤ 5 then
      let d := (d.hubSend c l 0x25 (d.afterGap.now + 100 * fuMs) [(2, 8)]).leafState c l 6
      d.scheduleOwn { newAction (d.lineKind c) .device 0x000A 0 0 0 with args := [c, l] }
    else d

/-- A granted cycle of a leaf without a valid burst (Table 7.5). -/
def Device.leafMissed (d : Device) (c l : Nat) : Device :=
  if 127 < l then d
  else
    let d := d.bump (Reg.hubLeafMissed (leafIx c l))
    let x := d.leafOf c l
    let n := x.missRun + 1
    let lost := decide (d.get (Reg.hubLossCycles c) ≤ n)
    let raw := withBit x.raw 0 true
    let d := d.putLeaf c l { x with missRun := n, okRun := 0, raw := if lost then withBit raw 1 true else raw }
    let st := d.get (Reg.hubLeafState (leafIx c l))
    let d := if lost ∧ (st = 3 ∨ st = 5) then d.leafState c l 4 else d
    d.publishLeaf c l

/-! ### Grant switch at reception (R156, R157, R171) -/

/-- A leaf's slots after a switch: fewer slots shed the rest, counted and noticed; more give the shed ones back (R148, R157). -/
def Device.leafResize (d : Device) (c l : Nat) (old new : Option Nat) : Device :=
  let n0 := (old.map (d.leafCount c)).getD 0
  let n1 := (new.map (d.leafCount c)).getD 0
  let x := d.leafOf c l
  let d := d.putLeaf c l { x with shed := shedAfter n0 n1 x.shed }
  if n1 < n0 then (d.bump (Reg.frmShedCount c)).notice (Reg.frmShedCount c) [c, l, n1] else d

/-- One leaf meets a new table: its old window is stale for 64 cycles, a withdrawn Active leaf dozes. -/
def Device.leafSwitch (d : Device) (c cycle : Nat) (old new : List Nat) (l : Nat) : Device :=
  let a := recordFor old l
  let b := recordFor new l
  if a = b then d
  else
    let d := d.leafResize c l a b
    let d := d.putLeaf c l { d.leafOf c l with oldGrant := a, staleUntil := cycle + 64 }
    let d := if b.isNone ∧ d.get (Reg.hubLeafState (leafIx c l)) = 3 then d.leafState c l 5 else d
    d.publishLeaf c l

/-- GRANT_UPSTREAM_CYCLE: the hub begins to receive under the earliest fired switch (R156). -/
def execGrantUpstreamCycle (c : CarrierNo) (s : State) : Host.Outcome State Fault Refusal :=
  onDev s (fun d =>
    let h := d.hub.at c
    match h.switches with
    | [] => d
    | sw :: rest =>
      let d := d.takeSeq
      let old := d.grantsActive c
      let d := { d with hub := d.hub.put c { h with switches := rest } }
      let new := sw.records.map (withLength (d.overhead c))
      let d := d.setDom (Reg.hubGrantActive c).ref (new.flatMap (beBytes 8))
      let d := d.each (List.range 128) (fun l x => x.leafSwitch c sw.receive old new l)
      if d.get (Reg.lineRxState c) = 0 then d else d.setRxCodes c (d.hubRxCodes c))

/-! ### Burst receiver (Table 7.4) -/

/-- BURST_WINDOW_OPEN: a granted leaf's window, or the discovery window (128), opens: the path is Armed, and starts from what it stored of the leaf (R160). -/
def execBurstWindowOpen (c : CarrierNo) (sc : ScNo) (leaf : Fin 129) (s : State) : Host.Outcome State Fault Refusal :=
  onDev s (fun d =>
    let p := d.pathOf c sc
    let granted := (d.grantsActive c).any (fun r => grLeaf r == leaf.val && grSc r == sc.val && !grCont r)
    let open_ := if leaf.val = 128 then d.get (Reg.hubDiscState c) == 1 && d.get (Reg.hubDiscSc c) == sc.val && decide (d.now < p.till) else granted
    if d.on (Reg.hubEnable c) && open_ then
      let d := d.putPath c sc { p with leaf := leaf, windowOpen := true, start := if leaf.val = 128 then none else (d.leafOf c leaf).start }
      if d.get (Reg.hubUsState c sc) = 0 then d.set (Reg.hubUsState c sc) 1 else d
    else d)

/-- A preamble whose symbol 0 lies at `pos` falls into the path's open window: START ± HUB_ARRIVE_TOL units, anywhere in the discovery window (Table 7.4). -/
def Device.inBurstWindow (d : Device) (c : Nat) (p : HubPath) (pos : Int) : Bool :=
  p.windowOpen && (if p.leaf = 128 then decide (d.now < p.till)
    else match recordFor (d.grantsActive c) p.leaf with
      | some r => decide ((pos - (16 * grStart r : Nat)).natAbs ≤ 16 * d.get (Reg.hubArriveTol c))
      | none => false)

/-- A correlation in 1/65 536 is a detection (R161). -/
def Device.detects (d : Device) (c corr : Nat) : Bool := decide (256 * d.get (Reg.hubDetThresh c) ≤ corr)

/-- BURST_DETECTION: correlator A detects a preamble in the window: its symbol 0 lies `pos` symbols after the start of the cycle (R161). -/
def execBurstDetection (c : CarrierNo) (sc : ScNo) (power : Int) (corr : Nat) (pos : Int) (s : State) : Host.Outcome State Fault Refusal :=
  onDev s (fun d =>
    let p := d.pathOf c sc
    if d.get (Reg.hubUsState c sc) = 1 ∧ d.detects c corr = true ∧ d.inBurstWindow c p pos = true then
      (d.putPath c sc { p with burst := p.leaf, power := power, pos := pos, second := none }).set (Reg.hubUsState c sc) 2
    else d)

/-- BURST_B_DETECTION: a second preamble: in Detected a capture when stronger by more than HUB_CAPTURE, else held; in Receiving a
collision (R162). -/
def execBurstBDetection (c : CarrierNo) (sc : ScNo) (power : Int) (corr : Nat) (pos : Int) (s : State) : Host.Outcome State Fault Refusal :=
  onDev s (fun d =>
    let p := d.pathOf c sc
    let st := d.get (Reg.hubUsState c sc)
    if d.detects c corr = false then d
    else if st = 2 then
      if p.power + d.get (Reg.hubCapture c) < power then (d.putPath c sc { p with power := power, pos := pos, second := none }).bump (Reg.hubCaptures c sc)
      else d.putPath c sc { p with second := some (power, pos) }
    else if st = 3 then d.bump (Reg.hubCollisions c sc)
    else d)

/-- The record under which a path receives: that of the granted leaf; in the discovery window one block at code 32 (R168). -/
def Device.recordOf (d : Device) (c l : Nat) : Nat :=
  if l = 128 then 32 * 2 ^ 24 else (recordFor (d.grantsActive c) l).getD (32 * 2 ^ 24)

/-- BURST_SYNC_FOUND: at `shift` symbols from where the detection predicts it, hard decisions that differ from HUB_SYNC in at most HUB_SYNC_TOL bits, within ±2
symbols: the sync word is found, RSSI latched, and the burst's codewords follow (R161). -/
def execBurstSyncFound (c : CarrierNo) (sc : ScNo) (word : BitVec 64) (shift rssi : Int) (s : State) : Host.Outcome State Fault Refusal :=
  onDev s (fun d =>
    if d.get (Reg.hubUsState c sc) = 2 ∧ differing (bitsDown 64 word.toNat) (bitsDown 64 (d.get (Reg.hubSync c))) ≤ d.get (Reg.hubSyncTol c) ∧ shift.natAbs ≤ 2 then
      let p := d.pathOf c sc
      let b : HubBurst := { id := p.nextId, leaf := p.burst, record := d.recordOf c p.burst, pos := p.pos + shift, rssi := rssi, ratios := [], taken := 0,
                            blocks := [], errors := 0, bits := 0, report := none }
      (d.putPath c sc { p with second := none, bursts := p.bursts ++ [b], nextId := p.nextId + 1 }).set (Reg.hubUsState c sc) 3
    else d)

/-- BURST_SYNC_MISSED: re-arm: a detection of B whose sync position lies ahead becomes current; else Armed while the window is open,
Idle with the burst missed once it has closed (R162). -/
def execBurstSyncMissed (c : CarrierNo) (sc : ScNo) (s : State) : Host.Outcome State Fault Refusal :=
  onDev s (fun d =>
    let p := d.pathOf c sc
    if d.get (Reg.hubUsState c sc) ≠ 2 then d
    else
      match p.second.filter (fun (x : Int × Int) => decide (p.pos + 2 < x.2)) with
      | some x => d.putPath c sc { p with power := x.1, pos := x.2, second := none }
      | none =>
        let d := d.putPath c sc { p with second := none }
        if p.windowOpen then d.set (Reg.hubUsState c sc) 1 else (d.set (Reg.hubUsState c sc) 0).leafMissed c p.burst)

/-- BURST_WINDOW_CLOSE: the window closes, the discovery window once its K + 2 cycles are over (R168); without a detection the burst is missed (Table 7.4). -/
def execBurstWindowClose (c : CarrierNo) (sc : ScNo) (s : State) : Host.Outcome State Fault Refusal :=
  onDev s (fun d =>
    let p := d.pathOf c sc
    if !p.windowOpen || (p.leaf == 128 && decide (d.now < p.till)) then d
    else
      let d := d.putPath c sc { p with windowOpen := false }
      if d.get (Reg.hubUsState c sc) = 1 then (d.set (Reg.hubUsState c sc) 0).leafMissed c p.leaf else d)

/-! ### Burst results (R163 to R165, R170) -/

/-- C of the burst that BURST_SEQ names: the last accepted one, or the smallest above it with those low bits (R324). -/
def nextBurstCount (last seq : Nat) : Nat :=
  if last % 2 ^ 32 < seq then last / 2 ^ 32 * 2 ^ 32 + seq else (last / 2 ^ 32 + 1) * 2 ^ 32 + seq

/-- HUB_LEAF_SNR and HUB_LEAF_CANDIDATE from the valid bursts of the last LINE_RX_SNR_WINDOW ms; a subcarrier that LINE_LOAD_MASK leaves out has code 0
(R93, R163). -/
def Device.leafSnr (d : Device) (c sc l snr : Nat) : Device :=
  let x := d.leafOf c l
  let win := d.get (Reg.lineRxSnrWindow c) * fuMs
  let list := x.snrs.filter (fun e => decide (d.now < e.1 + win)) ++ [(d.now, snr)]
  let mean := roundDiv (sumOf (list.map (·.2))) list.length
  let code := ruleCode mean ((d.get (Reg.lineLoadMargin c) * 10 : Nat)) (d.gap c) (d.get (Reg.lineLoadMaxcode c)) (!bitAt (d.get (Reg.lineLoadMask c)) sc)
    (d.on (Reg.lineLoadUniform c))
  ((d.putLeaf c l { x with snrs := list }).set (Reg.hubLeafSnr (leafIx c l)) mean).set (Reg.hubLeafCandidate (leafIx c l)) code

/-- TRIM to a leaf: its EQD, the frequency offset, RDI of its upstream, and as it leaves the anchor (R154, R164, R170). It takes the place of one that has not
left. -/
def Device.sendTrim (d : Device) (c l : Nat) : Device :=
  let i := leafIx c l
  let eff := d.get (Reg.hubLeafDefects i)
  let rdi := match recordFor (d.grantsActive c) l with
    | some r => if grCont r then (d.txg c (grSc r)).rdi else bitAt eff 1 || bitAt eff 2
    | none => false
  (d.unpost c (hubMsgFor 0x24 l)).hubSend c l 0x24 0 [(d.get (Reg.hubLeafEqd i), 32), (d.get (Reg.hubLeafFreq i), 16), (b2n rdi, 8)]

/-- The defect runs of a leaf after a valid burst. -/
def leafGood (loss : Nat) (x : HubLeaf) (w : Nat) : HubLeaf :=
  let n := x.okRun + 1
  let a := runOf (huAis w) x.aisOn
  let b := runOf (!huAis w) x.aisOff
  let e := runOf (huRdi w) x.rdiOn
  let f := runOf (!huRdi w) x.rdiOff
  let raw := withBit x.raw 0 false
  let raw := if loss ≤ n then withBit raw 1 false else raw
  let raw := if 3 ≤ a then withBit raw 2 true else if 3 ≤ b then withBit raw 2 false else raw
  let raw := if 3 ≤ e then withBit raw 3 true else if 3 ≤ f then withBit raw 3 false else raw
  { x with okRun := n, missRun := 0, aisOn := a, aisOff := b, rdiOn := e, rdiOff := f, raw := raw }

/-- The payload units of block k of a burst as cells of its leaf's window: descrambled; poisoned under an invalid header or a marked half (R119, R133, R136, R157,
R159). -/
def burstCells (l k : Nat) (b : RxBlock) : List (Nat × SliceBlock) :=
  let w := b.units.headD 0
  let good := !b.fail0 && hcrcOk w && bhBlock w == k
  (List.range 251).map (fun u =>
    (l / 16 * 4016 + 251 * k + u, ⟨b.units.getD (u + 5) 0 ^^^ scramblerUnit (255 * k + u + 5), !good || (if u + 5 < 128 then b.mark0 else b.mark1)⟩))

/-- The overhead slot of block k of a burst, descrambled. -/
def burstSlot (k : Nat) (b : RxBlock) : Nat :=
  ((List.range 4).map (fun i => (b.units.getD (i + 1) 0 ^^^ scramblerUnit (255 * k + i + 1)) * 2 ^ (384 - 128 * i))).foldl (· + ·) 0

/-- The blocks of a burst in order. -/
def HubBurst.inOrder (b : HubBurst) : List (Nat × RxBlock) := sortBy (fun x y => decide (x.1 < y.1)) b.blocks

/-- The overhead slots of a burst: discards are counted (R132), messages wait to be checked (R324). -/
def Device.burstSlots (d : Device) (c sc l count : Nat) (b : HubBurst) : Device :=
  d.each b.inOrder (fun e x =>
    let w := burstSlot e.1 e.2
    let x := x.slotSeen c 3 (slotType w) e.2.fail0 true
    if e.2.fail0 ∨ slotType w = 0 ∨ slotKnown 3 (slotType w) = false then x
    else { x with hub := x.hub.put c { x.hub.at c with messages := (x.hub.at c).messages ++ [⟨l, sc, e.1, count, b.pos, w⟩] } })

/-- A valid burst of leaf l with block-0 header w (R163, R170, R171): the leaf's stored state and objects, its slots, its slices for the fabric. `offset` is its
arrival offset from START in symbols. -/
def Device.validBurst (d : Device) (c sc l w : Nat) (b : HubBurst) (m : BurstReport) : Device :=
  let i := leafIx c l
  let offset : Int := b.pos - (16 * grStart b.record : Nat)
  let d := (d.bump (Reg.hubLeafBursts i)).setI (Reg.hubLeafRssi i) b.rssi
  let d := (d.setI (Reg.hubLeafFreq i) m.freq).set (Reg.hubLeafDsSnr i) (huDsSnr w)
  let x := leafGood (d.get (Reg.hubLossCycles c)) (d.leafOf c l) w
  let count := nextBurstCount x.burstCount (huSeq w)
  let failed := b.blocks.any (fun e => e.2.fail0 || e.2.fail1)
  let x := { x with errors := x.errors + b.errors, bits := x.bits + b.bits, msErrors := x.msErrors + b.errors, msBits := x.msBits + b.bits,
                    msBursts := x.msBursts + 1, msFailed := x.msFailed + b2n failed, burstCount := count, start := some ⟨m.freq, m.timing, m.taps⟩,
                    offset := offset }
  let d := (d.putLeaf c l x).leafSnr c sc l m.snr.toNat
  let d := (d.burstSlots c sc l count b).cellsArrive (0x20 + 16 * c + l % 16) (b.inOrder.flatMap (fun e => burstCells l e.1 e.2))
  let st := d.get (Reg.hubLeafState i)
  let d := if st = 2 ∨ st = 5 ∨ (st = 4 ∧ !bitAt x.raw 1) then (d.leafState c l 3).unpost c (hubMsgFor 0x22 l) else d
  let d := (d.publishLeaf c l).dsCandidate c (d.get (Reg.hubLeafDsSc i))
  if 16 * d.get (Reg.hubRangeTrim c) < offset.natAbs then
    (d.setI (Reg.hubLeafEqd i) ((d.get (Reg.hubLeafEqd i) : Int) - offset)).sendTrim c l
  else d

/-- A burst of leaf l that began at `unit` lies in its previous window within 64 cycles after a switch (R165). -/
def Device.staleBurst (d : Device) (c sc l unit : Nat) : Bool :=
  let x := d.leafOf c l
  match x.oldGrant with
  | some r => decide (d.now / fuCycle < x.staleUntil) && grSc r == sc &&
      decide (unit ≤ grStart r + d.get (Reg.hubArriveTol c) ∧ grStart r ≤ unit + d.get (Reg.hubArriveTol c))
  | none => false

/-- A burst that leaf l was not granted: stale, or a violation (R165). -/
def Device.foreignBurst (d : Device) (c sc l unit : Nat) : Device :=
  if 127 < l then d
  else if d.staleBurst c sc l unit then d.bump (Reg.hubLeafStale (leafIx c l))
  else d.violation c l

/-- A discovery burst: a REGISTER in block 0's slot waits for its checks (R168, R169). -/
def Device.discoveryBurst (d : Device) (c sc w : Nat) (b : HubBurst) (b0 : RxBlock) : Device :=
  let r := burstSlot 0 b0
  if slotType r = 0x21 then
    { d with hub := d.hub.put c { d.hub.at c with registers := (d.hub.at c).registers ++ [⟨128, sc, 0, huSeq w, b.pos, r⟩] } }
  else d.slotSeen c 3 (slotType r) false true

/-- A burst that has ended and whose blocks are all there, or whose codewords never came, is judged: valid, a violation, or missed (R163, R165). -/
def Device.judgeBurst (d : Device) (c sc : Nat) (b : HubBurst) (m : BurstReport) : Device :=
  match tblGet b.blocks 0 with
  | none => d.leafMissed c b.leaf
  | some b0 =>
    let w := b0.units.headD 0
    if b0.fail0 || !hcrcOk w || bhBlock w != 0 then d.leafMissed c b.leaf
    else if b.leaf = 128 then d.discoveryBurst c sc w b b0
    else if huLeaf w ≠ b.leaf ∨ huLast w ≠ bits b.record 51 48 then (d.foreignBurst c sc (huLeaf w) (b.pos / 16).toNat).leafMissed c b.leaf
    else d.validBurst c sc b.leaf w b m

/-- Judges a burst once its report and its B blocks are there, or once it has ended short of its codewords. -/
def Device.burstDone (d : Device) (c sc id : Nat) : Device :=
  let p := d.pathOf c sc
  match p.bursts.find? (fun (b : HubBurst) => b.id == id) with
  | none => d
  | some b =>
    match b.report with
    | none => d
    | some m =>
      if b.blocks.length < b.taken then d
      else (d.putPath c sc { p with bursts := p.bursts.filter (fun (x : HubBurst) => x.id != id) }).judgeBurst c sc b m

/-- BURST_END: after LENGTH units the path returns to Idle, or to Armed while a window is open, as a discovery window is after every burst; the burst is judged
once its blocks are delivered (R163, R168). -/
def execBurstEnd (c : CarrierNo) (sc : ScNo) (m : BurstReport) (s : State) : Host.Outcome State Fault Refusal :=
  onDev s (fun d =>
    if d.get (Reg.hubUsState c sc) ≠ 3 then d
    else
      let d := d.takeSeq
      let p := d.pathOf c sc
      let d := d.set (Reg.hubUsState c sc) (if p.windowOpen then 1 else 0)
      match p.bursts.find? (fun (b : HubBurst) => b.report.isNone) with
      | none => d
      | some b => (d.putBurst c sc { b with report := some m }).burstDone c sc b.id)

/-- A delivered block of a burst joins it (R161, R163). Blocks of status 3 add nothing to its pre-FEC BER (R120). -/
def Device.burstBlock (d : Device) (c sc id : Nat) (w : Stopped) (r : Decoded) : Device :=
  match (d.pathOf c sc).bursts.find? (fun (b : HubBurst) => b.id == id) with
  | none => d
  | some b =>
    let counts := blockStatus w.reason r != 3
    let b := { b with blocks := tblPut b.blocks w.word.block (d.rxBlockOf c r), errors := b.errors + (if counts then (preErrors w r).length else 0),
                      bits := b.bits + (if counts then innerLength w.word.overhead else 0) }
    (d.putBurst c sc b).burstDone c sc id

/-- BLOCK_DELIVERY: exactly at ready + D the block of a stopped codeword leaves for the framer, or for its burst, with its status (R111, R118). The carrier's
counters advance while it passes soft decisions (R115). -/
def execBlockDelivery (num : Nat) (s : State) : Host.Outcome State Fault Refusal :=
  onDev s (fun d =>
    match d.fec.stopped.find? (fun w => w.word.num == num) with
    | none => d
    | some w =>
      if d.comes (deliveryAt w.word) then
        let d := d.moveTo (deliveryAt w.word)
        let d := { d with fec := { d.fec with stopped := d.fec.stopped.filter (fun y => y.word.num != num) } }
        let c := w.word.carrier
        let g := w.word.group
        let r := decodedOf w
        let d := if d.passesSoft c then d.tally w (blockStatus w.reason r) r else d
        match w.word.burst with
        | some id => d.takeSeq.burstBlock c g id w r
        | none =>
          if 2 ≤ d.get (Reg.frmAlignState c g) ∧ bitAt (d.groupMask c) g = true then
            d.putRxg c g { d.rxg c g with blocks := (d.rxg c g).blocks ++ [d.rxBlockOf c r] }
          else d
      else d)

/-- ROGUE_BURST: the rogue watch finds a preamble in Idle: without a valid header counted per subcarrier, else a violation of the leaf it
names unless stale (R165). -/
def execRogueBurst (c : CarrierNo) (sc : ScNo) (corr : Nat) (header : Option (BitVec 128)) (unit : Nat) (s : State) : Host.Outcome State Fault Refusal :=
  onDev s (fun d =>
    if !d.on (Reg.hubEnable c) || !d.on (Reg.hubRogueWatch c) || d.get (Reg.hubUsState c sc) != 0 || !d.detects c corr then d
    else
      let d := d.takeSeq
      match header with
      | none => d.bump (Reg.hubRogue c sc)
      | some h => if hcrcOk h.toNat then d.foreignBurst c sc (huLeaf h.toNat) unit else d.bump (Reg.hubRogue c sc))

/-! ### Discovery and ranging (R168 to R170) -/

/-- The subcarriers that a table in force or pending names: received, fired, or next under a pending switch. -/
def Device.scsGranted (d : Device) (c : Nat) : List Nat :=
  let pend := if d.sched.actions.any (fun a => a.cls == 0x000A && a.target == (Reg.hubGrantTable c).ref) then d.grantsNext c else []
  (d.grantsActive c ++ (d.hub.at c).switches.flatMap (·.records) ++ pend).map grSc

/-- DISCOVERY_PERIOD: the lowest subcarrier of HUB_DISC_MASK that no table names is opened and DISCOVER sent with a new DISC_ID; with none,
HUB_DISC_STATE reads 2 (R168). DISCOVER leaves in the block-3 slot of one frame of every subcarrier that sends; the path stays Armed for K + 2 cycles. -/
def execDiscoveryPeriod (c : CarrierNo) (s : State) : Host.Outcome State Fault Refusal :=
  onDev s (fun d =>
    if d.dead || !d.on (Reg.hubEnable c) then d
    else
      let d := d.takeSeq
      if d.get (Reg.hubDiscPeriod c) = 0 then (d.set (Reg.hubDiscState c) 0).set (Reg.hubDiscSc c) 0xFF
      else
        let used := d.scsGranted c
        match (List.range 16).find? (fun k => bitAt (d.get (Reg.hubDiscMask c)) k && !used.contains k) with
        | none => (d.set (Reg.hubDiscState c) 2).set (Reg.hubDiscSc c) 0xFF
        | some k =>
          let id := ((d.hub.at c).discId + 1) % 65536
          let d := { d with hub := d.hub.put c { d.hub.at c with discId := id } }
          let d := (d.set (Reg.hubDiscState c) 1).set (Reg.hubDiscSc c) k
          let p := { d.pathOf c k with leaf := 128, windowOpen := true, start := none, till := nextMultiple fuCycle d.now + (d.get (Reg.hubEqCycles c) + 2) * fuCycle }
          let d := (d.putPath c k p).set (Reg.hubUsState c k) 1
          let on := (List.range 16).filter (fun j => d.get (Reg.lineTxLoad c j) != 0)
          let d := (d.unpost c (hubMsgFor 0x20 0xFF)).post c ⟨19, on, false, 0, hubWord 0x20 0xFF [(id, 16), (k, 8), (d.get (Reg.hubEqCycles c), 8)]⟩
          d.each on (fun j x => x.send (.hub c j 0x20 0xFF [id, k, x.get (Reg.hubEqCycles c)])))

/-- REGISTER fields (Table 7.7), packed from bit 495 down. -/
def rgSerial (w : Nat) : Nat := bits w 495 432
def rgNonce (w : Nat) : Nat := bits w 431 368
def rgDiscId (w : Nat) : Nat := bits w 367 352
def rgBackoff (w : Nat) : Nat := bits w 351 344
def rgDsSc (w : Nat) : Nat := bits w 343 336
def rgBurstHi (w : Nat) : Nat := bits w 335 308

/-- The tag of an upstream message under either half of its leaf's pair (R167, R324, Table 13.2). -/
def Device.upTagOk (d : Device) (c l cg counter : Nat) (m : UpMsg) : Bool :=
  let k := d.get (Reg.hubLeafKey (leafIx c l))
  let x := d.pair k
  let w := m.word
  k != 0xFFFF && [x.cur, x.next].any (fun (h : KeyHalf) => h.state != 0 &&
    gcmTag h.key (ivOf c m.sc cg 1 0 h.epoch counter) [w / 2 ^ 384 % 2 ^ 128, w / 2 ^ 256 % 2 ^ 128, w / 2 ^ 128 % 2 ^ 128] 384 [] 0 == w % 2 ^ 128)

/-- A REGISTER that came in a discovery burst: the checks of R169 in their order; accepted, the leaf is Assigned with RTT and EQD, and ASSIGN is sent until its
first valid burst, for at most 100 ms. -/
def Device.register (d : Device) (c : Nat) (m : UpMsg) : Device :=
  let w := m.word
  match (List.range 128).find? (fun l => d.on (Reg.hubLeafEnable (leafIx c l)) && d.get (Reg.hubLeafState (leafIx c l)) == 1 &&
      d.get (Reg.hubLeafSerial (leafIx c l)) == rgSerial w) with
  | none => (d.bump (Reg.hubRegUnknown c)).notice (Reg.hubRegUnknown c) [rgSerial w]
  | some l =>
    let i := leafIx c l
    let x := d.leafOf c l
    if !d.upTagOk c l 0xFFF (rgNonce w) m || x.nonce == some (rgNonce w) || rgDiscId w != (d.hub.at c).discId then d.bump (Reg.hubRegAuthfail c)
    else
      let rtt : Int := m.pos - (64 * rgBackoff w : Nat)
      let eqd : Int := (d.get (Reg.hubEqCycles c) * 208000 : Nat) - rtt
      if eqd < 0 then d.bump (Reg.hubRegRange c)
      else
        let d := d.putLeaf c l { leafNew with nonce := some (rgNonce w), burstCount := rgBurstHi w * 2 ^ 32 + m.count, shed := x.shed }
        let d := ((d.set (Reg.hubLeafDsSc i) (rgDsSc w)).setI (Reg.hubLeafRtt i) rtt).setI (Reg.hubLeafEqd i) eqd
        (d.leafState c l 2).hubSend c l 0x22 (d.now + 100 * fuMs) [(rgSerial w, 64), (rgNonce w, 64), (l, 8), (d.get (Reg.hubLeafEqd i), 32)]

/-- REGISTER: the control core checks the REGISTER that has waited longest (R169, R173). -/
def execRegister (c : CarrierNo) (s : State) : Host.Outcome State Fault Refusal :=
  onDev s (fun d =>
    match (d.hub.at c).registers with
    | [] => d
    | m :: r =>
      if d.dead || !d.on (Reg.hubEnable c) then d
      else ({ d with hub := d.hub.put c { d.hub.at c with registers := r } }).coreSeq.register c m)

/-- UPSTREAM_HUB_MESSAGE: the message of a leaf's burst that has waited longest: its tag is checked under the burst's C; a failing one is a violation (R165,
R324). No upstream type but REGISTER is defined: a right one has no effect. -/
def execUpstreamHubMessage (c : CarrierNo) (s : State) : Host.Outcome State Fault Refusal :=
  onDev s (fun d =>
    match (d.hub.at c).messages with
    | [] => d
    | m :: r =>
      if d.dead || !d.on (Reg.hubEnable c) then d
      else
        let d := { d with hub := d.hub.put c { d.hub.at c with messages := r } }.takeSeq
        if d.upTagOk c m.leaf (0x800 + m.leaf) (16 * m.count + m.block) m then d else d.violation c m.leaf)

/-- LEAF_TRIM_PERIOD: once per second TRIM to every Active leaf (R170). -/
def execLeafTrimPeriod (c : CarrierNo) (s : State) : Host.Outcome State Fault Refusal :=
  onDev s (fun d =>
    if d.dead || !d.on (Reg.hubEnable c) then d
    else
      d.coreSeq.each ((List.range 128).filter (fun l => d.get (Reg.hubLeafState (leafIx c l)) == 3)) (fun l x => x.sendTrim c l))

/-! ### Leaf entries (R171) -/

/-- LEAF_ASSIGN_TIMEOUT: no valid burst within 100 ms of the first granted cycle: to Absent. -/
def execLeafAssignTimeout (c : CarrierNo) (leaf : LeafNo) (s : State) : Host.Outcome State Fault Refusal :=
  onDev s (fun d =>
    if d.dead then d
    else if d.get (Reg.hubLeafState (leafIx c leaf)) = 2 then (d.takeSeq.leafState c leaf 1).forgetLeaf c leaf
    else d.takeSeq.stale)

/-- LEAF_DEREG_TIMEOUT: HUB_DEREG_TIME seconds in Lost: DISABLE reason 3, to Absent. -/
def execLeafDeregTimeout (c : CarrierNo) (leaf : LeafNo) (s : State) : Host.Outcome State Fault Refusal :=
  onDev s (fun d =>
    if d.dead then d
    else if d.get (Reg.hubLeafState (leafIx c leaf)) = 4 then d.coreSeq.disableLeaf c leaf 3 1
    else d.takeSeq.stale)

/-- Effect of a write of HUB_LEAF_ENABLE: 1 takes a Disabled entry to Absent; 0 disables it, with DISABLE reason 1 unless it was Disabled
or Absent. -/
def applyLeafEnable (c l v : Nat) (d : Device) : Device :=
  let i := leafIx c l
  let st := d.get (Reg.hubLeafState i)
  let d := d.putValue (Reg.hubLeafEnable i) v
  if v = 1 then (if st = 0 then d.leafState c l 1 else d)
  else if st = 0 then d
  else if st = 1 then d.leafState c l 0
  else d.disableLeaf c l 1 0

/-- HUB_LEAF_ENABLE_ON. -/
def execHubLeafEnableOn (q : Req) (c : CarrierNo) (leaf : LeafNo) (s : State) : Host.Outcome State Fault Refusal :=
  onDev s (fun d => d.serve q 2 1 true (Reg.hubLeafEnable (leafIx c leaf)).ref (fun _ d =>
    d.plainWriteR (Reg.hubLeafEnable (leafIx c leaf)) .any q ⟨1, 1⟩ (fun d =>
      d.withhold q (Reg.hubLeafEnable (leafIx c leaf)).ref (applyLeafEnable c leaf 1 d, okWrite))))

/-- HUB_LEAF_ENABLE_OFF. -/
def execHubLeafEnableOff (q : Req) (c : CarrierNo) (leaf : LeafNo) (s : State) : Host.Outcome State Fault Refusal :=
  onDev s (fun d => d.serve q 2 1 true (Reg.hubLeafEnable (leafIx c leaf)).ref (fun _ d =>
    d.plainWriteR (Reg.hubLeafEnable (leafIx c leaf)) .any q ⟨1, 0⟩ (fun d =>
      d.withhold q (Reg.hubLeafEnable (leafIx c leaf)).ref (applyLeafEnable c leaf 0 d, okWrite))))

/-- Effect of a write of HUB_DISC_PERIOD: 0 turns discovery off (R168). -/
def applyDiscPeriod (c v : Nat) (d : Device) : Device :=
  let d := d.putValue (Reg.hubDiscPeriod c) v
  if v = 0 then
    let d := if d.get (Reg.hubDiscState c) = 1 then
        let k := d.get (Reg.hubDiscSc c)
        d.putPath c k { d.pathOf c k with till := d.now }
      else d
    (d.set (Reg.hubDiscState c) 0).set (Reg.hubDiscSc c) 0xFF
  else d

/-- Effect of a write of HUB_US_CD: the dispersion stage of a hub carrier that receives compensates it, as LINE_RX_CD reports (R81, R160). -/
def applyUsCd (c v : Nat) (d : Device) : Device :=
  let d := d.putValue (Reg.hubUsCd c) v
  if d.on (Reg.hubEnable c) ∧ d.get (Reg.lineRxState c) = 3 then d.setI (Reg.lineRxCd c) (d.getI (Reg.hubUsCd c)) else d

/-- HUB_EQ_CYCLES is refused while a leaf is Assigned to Dozing; HUB_LEAF_SERIAL outside Disabled (Table 7.9). -/
def eqCyclesCheck (c : Nat) (d : Device) : Option Err :=
  if (List.range 128).any (fun l => [2, 3, 4, 5].contains (d.get (Reg.hubLeafState (leafIx c l)))) then some (err stNotPermitted) else none

/-- HUB_LEAF_SERIAL of instance i. -/
def leafSerialCheck (i : Nat) (d : Device) : Option Err :=
  if d.get (Reg.hubLeafState i) = 0 then none else some (err stNotPermitted)

/-! ### The millisecond of R123 -/

/-- The leaves' millisecond: the SD criteria over the leaf's bursts (Table 7.5). -/
def leafSd (th set clr setMs clrMs : Nat) (l : HubLeaf) : HubLeaf :=
  if l.msBursts = 0 then l
  else
    let above (pct : Nat) : Bool := decide (pct * th * l.msBits < l.msErrors * 10 ^ 12)
    let bad := l.msFailed != 0
    let s := bad || (l.msBits != 0 && above set)
    let k := !bad && l.msBits != 0 && !above clr
    let sr := if s then l.sdSet + 1 else 0
    let kr := if k then l.sdClr + 1 else 0
    { l with sdSet := sr, sdClr := kr,
             raw := if setMs ≤ sr then withBit l.raw 4 true else if clrMs ≤ kr then withBit l.raw 4 false else l.raw,
             msErrors := 0, msBits := 0, msBursts := 0, msFailed := 0 }

/-- The leaves of a carrier at the end of the millisecond; those whose LSD changes publish it. -/
def Device.leavesMs (d : Device) (c : Nat) : Device :=
  let h := d.hub.at c
  let f := leafSd (thresholdOf (d.overhead c)) (d.get (Reg.frmSdSet c)) (d.get (Reg.frmSdClr c)) (d.get (Reg.frmSdSetMs c)) (d.get (Reg.frmSdClrMs c))
  let new : List (Nat × HubLeaf) := h.leaves.map (fun e => (e.1, f e.2))
  let moved := (h.leaves.filter (fun e => (f e.2).raw != e.2.raw)).map (·.1)
  ({ d with hub := d.hub.put c { h with leaves := new } }).each moved (fun l y => y.publishLeaf c l)

/-- FEC_MS_INTERVAL_END: every 1 ms of device time the framer receives the BER and failed frames of each carrier (R123); every second
FEC_POOL_MEAN (R122). -/
def execFecMsIntervalEnd (s : State) : Host.Outcome State Fault Refusal :=
  onDev s (fun d =>
    if d.dead then d
    else
      let d := ((d.msEnd 0).msEnd 1).poolArea
      let d := (d.leavesMs 0).leavesMs 1
      if d.fec.ms + 1 < 1000 then { d with fec := { d.fec with ms := d.fec.ms + 1 } }
      else ({ d with fec := { d.fec with ms := 0, area := 0 } }).set Reg.fecPoolMean (roundDiv (100 * d.fec.area) fuSec))

end Sys2Proof.Machine
end

