-- ==== Sys2Proof/Machine/Sha.lean ====
section
/-! DEFINITION. SHA-384 (FIPS 180-4), by which an image's DIGEST is checked (R466). A message is a byte list, a word a number below 2^64. -/

namespace Sys2Proof.Machine

/-- The first 80 primes. -/
def shaPrimes : List Nat := ((List.range 408).map (· + 2)).filter (fun n => (List.range (n - 2)).all (fun k => n % (k + 2) != 0))

/-- The largest number below 2^80 whose n-th power is at most x. -/
def shaRoot (n x : Nat) : Nat := (List.range 80).foldl (fun r k => if (r + 2 ^ (79 - k)) ^ n ≤ x then r + 2 ^ (79 - k) else r) 0

/-- The round constants: 64 bits behind the point of the cube roots of the first 80 primes. -/
def shaRounds : List Nat := shaPrimes.map (fun p => shaRoot 3 (p * 2 ^ 192) % 2 ^ 64)

/-- The start value of SHA-384: 64 bits behind the point of the square roots of the ninth to sixteenth primes. -/
def shaStart : List Nat := ((shaPrimes.drop 8).take 8).map (fun p => shaRoot 2 (p * 2 ^ 128) % 2 ^ 64)

/-- A word rotated right by k. -/
def rotr64 (x k : Nat) : Nat := x / 2 ^ k + x % 2 ^ k * 2 ^ (64 - k)

/-- The next word of the schedule, the words before it newest first. -/
def shaNext (l : List Nat) : Nat :=
  let u := l.getD 14 0
  let v := l.getD 1 0
  ((rotr64 v 19 ^^^ rotr64 v 61 ^^^ v / 2 ^ 6) + l.getD 6 0 + (rotr64 u 1 ^^^ rotr64 u 8 ^^^ u / 2 ^ 7) + l.getD 15 0) % 2 ^ 64

/-- The 80 words of a block's schedule. -/
def shaSchedule (block : List Nat) : List Nat :=
  ((List.range 64).foldl (fun l _ => shaNext l :: l) (recordsOf 8 block).reverse).reverse

/-- One round on the working words a to h. -/
def shaRound (s : List Nat) (kw : Nat × Nat) : List Nat :=
  match s with
  | [a, b, c, d, e, f, g, h] =>
    let t1 := h + (rotr64 e 14 ^^^ rotr64 e 18 ^^^ rotr64 e 41) + ((e &&& f) ^^^ ((2 ^ 64 - 1 - e) &&& g)) + kw.1 + kw.2
    let t2 := (rotr64 a 28 ^^^ rotr64 a 34 ^^^ rotr64 a 39) + ((a &&& b) ^^^ (a &&& c) ^^^ (b &&& c))
    [(t1 + t2) % 2 ^ 64, a, b, c, (d + t1) % 2 ^ 64, e, f, g]
  | _ => s

/-- The hash words after a block of 128 bytes. -/
def shaBlock (h block : List Nat) : List Nat :=
  List.zipWith (fun x y => (x + y) % 2 ^ 64) h ((shaRounds.zip (shaSchedule block)).foldl shaRound h)

/-- A message with its padding: the bit 1, zeros, the length in bits in 128 bits. -/
def shaPadded (m : List Nat) : List Nat := m ++ [0x80] ++ List.replicate ((239 - m.length % 128) % 128) 0 ++ beBytes 16 (8 * m.length)

/-- The blocks of 128 bytes of a padded message. Fuel bounds their number. -/
def shaBlocks : Nat → List Nat → List (List Nat)
  | 0, _ => []
  | n + 1, l => if l.isEmpty then [] else l.take 128 :: shaBlocks n (l.drop 128)

/-- SHA-384 of a message: the first six hash words as one number. -/
def sha384 (m : List Nat) : Nat :=
  let p := shaPadded m
  (((shaBlocks (p.length / 128) p).foldl shaBlock shaStart).take 6).foldl (fun a w => a * 2 ^ 64 + w) 0

end Sys2Proof.Machine
end

