-- ==== Sys2Proof/Machine/Holdover.lean ====
section
/-! DEFINITION. The starter (chapter 12): temperature conversions, learning samples, retrace, the fit of the model, import and clear. -/

namespace Sys2Proof.Machine

/-! ### Temperature (R298) -/

/-- The pairs of TIME_HO_THERM_TABLE: code, temperature in 0.01 °C. -/
def Device.thermTable (d : Device) : List (Int × Int) :=
  (recordsOf 6 (d.dom Reg.timeHoThermTable.ref)).map (fun w => (toSigned 32 (w / 65536), toSigned 16 (w % 65536)))

/-- Linear interpolation between neighbouring pairs, in 10^-6 °C; none outside the table's codes. -/
def interpolate : List (Int × Int) → Int → Option Int
  | (c0, t0) :: (c1, t1) :: r, x =>
    if c0 ≤ x ∧ x ≤ c1 then
      some (if c1 = c0 then t0 * 10000 else ratRound ((t0 * 10000 : Int) + ((t1 - t0) * 10000 * (x - c0) : Int) / ((c1 - c0 : Int) : Rat)))
    else interpolate ((c1, t1) :: r) x
  | [(c, t)], x => if x = c then some (t * 10000) else none
  | [], _ => none

/-- THERM_CONVERSION: a conversion on the starter's channel with the corrections in force: valid unless over range or outside the table. None comes before the
reference is ready, nor while a self-calibration runs (R389, R391). -/
def execThermConversion (code : Int) (beyond : Bool) (s : State) : Host.Outcome State Fault Refusal :=
  onDev s (fun d =>
    let code := d.corrected (clampCode code)
    if d.dead ∨ d.get Reg.timeHoThermChan = 0xFF ∨ d.get Reg.monRefState ≠ 2 ∨ d.mon.work = .selfCal then d
    else if beyond then d.result (d.get Reg.timeHoThermChan % 32) code true
    else
      let d := d.result (d.get Reg.timeHoThermChan % 32) code false
      match interpolate d.thermTable code with
      | some t => d.onHo (fun h => { h with temps := h.temps ++ [t] })
      | none => d)

/-- TEMP_INVALID_TIMEOUT: no valid second for 10 s: fault [0]. -/
def execTempInvalidTimeout (s : State) : Host.Outcome State Fault Refusal :=
  onDev s (fun d =>
    if d.dead then d
    else
      let d := d.takeSeq
      if 10 ≤ d.tim.ho.tempLost then d.hoFault 0 true else d.stale)

/-! ### Samples (R297, R299, R300) -/

/-- The largest whole number not above the square root of a rational. -/
def sqrtRat (q : Rat) : Nat := Nat.sqrt (q.num.toNat / q.den)

/-- The standard deviation of a list, squared. -/
def variance (l : List Rat) : Rat := let m := meanRat l; meanRat (l.map (fun x => (x - m) * (x - m)))

/-- A word of Table 12.1. -/
def sampleWord (sec : Nat) (y temp : Int) (source : Nat) (outlier boot : Bool) (spread : Nat) : Nat :=
  sec % 2 ^ 32 * 2 ^ 96 + ofSigned 40 y * 2 ^ 56 + ofSigned 16 temp * 2 ^ 40 + source * 2 ^ 38 + b2n outlier * 2 ^ 37 + b2n boot * 2 ^ 36 +
    spread % 2 ^ 16 * 2 ^ 16

/-- The bin of a temperature in 0.01 °C: bin k covers -40.0 + 0.5 k to -39.5 + 0.5 k °C. -/
def binOf (t : Int) : Option Nat := if -4000 ≤ t ∧ t < 8800 then some ((t + 4000) / 50).toNat else none

/-- A sample moves its bin's running mean; the count is capped at 4 096. -/
def binSample (sec order : Nat) (m : HoModel) (w : Nat) : HoModel :=
  match binOf (smTemp w) with
  | none => m
  | some k =>
    let b := tblGetD m.bins k (0, 0)
    let n := min (b.2 + 1) 4096
    let base : Rat := m.a + m.d * ((sampleSec sec w : Rat) - (m.fitTime : Rat) / (fuSec : Rat)) / 86400 + polyTerm m order (smTemp w * 10000)
    let r := (smY w : Rat) - base / 100
    { m with bins := tblPut m.bins k (ratRound ((b.1 : Rat) + (r - b.1) / (n : Nat)), n) }

/-- The model record of R312. -/
def modelBytes (m : HoModel) : List Nat :=
  beBytes 4 m.gen ++ beBytes 12 (fuToTime96 m.fitTime) ++ beBytes 8 (ofSigned 64 m.a) ++ beBytes 8 (ofSigned 64 m.d) ++
    beBytes 8 (ofSigned 64 m.c1) ++ beBytes 8 (ofSigned 64 m.c2) ++ beBytes 8 (ofSigned 64 m.c3) ++ beBytes 2 (ofSigned 16 m.t0) ++
    beBytes 1 m.order ++ beBytes 4 m.learn ++
    (List.range 256).flatMap (fun k => let b := tblGetD m.bins k (0, 0); beBytes 4 (ofSigned 32 b.1) ++ beBytes 4 b.2)

/-- The model record as it goes to the twin (R315). -/
def Device.mirrorModel (d : Device) : Device :=
  match d.tim.ho.model with
  | some m => d.journalModel (modelBytes m)
  | none => d

/-- A fitted model goes to whichever copy holds the lower generation, an unwritten one first, and becomes the one in use (R312). -/
def Device.writeModel (d : Device) (m : HoModel) : Device :=
  let gen (k : Nat) : Nat := ((tblGet d.tim.ho.copies k).map (fun x => x.gen + 1)).getD 0
  d.onHo (fun h => { h with model := some m, copies := tblPut h.copies (if gen 0 ≤ gen 1 then 0 else 1) m })

/-- LEARNING_SAMPLE_COMPLETE: 16 learning seconds form a sample; it joins the ring of 37 800, is checked against the prediction, and moves its
bin. -/
def execLearningSampleComplete (s : State) : Host.Outcome State Fault Refusal :=
  onDev s (fun d =>
    let h := d.tim.ho
    if d.dead ∨ h.secs.length < 16 then d
    else
      let l := h.secs.take 16
      let ys := l.map (fun e => yOf e.1)
      let w0 := sampleWord (d.now / fuSec) (ratRound (meanRat ys / 100)) (roundInt (l.foldl (fun a e => a + e.2) 0) (16 * 10000)) h.source false h.bootNext
        (sqrtRat (variance ys / 10 ^ 8))
      let out := decide (225 ≤ d.usable.length) && (match d.predictSample w0 with
        | some p => let e := (smY w0 : Rat) * 100 - p
                    decide (((d.get Reg.timeHoOutlier : Nat) : Rat) * 100000 < (if e < 0 then -e else e))
        | none => false)
      let w := withBit w0 37 out
      let hist := (h.history ++ [w]).drop (h.history.length + 1 - 37800)
      let d := d.onHo (fun x => { x with
        secs := x.secs.drop 16
        history := hist
        bootNext := false
        outRun := if out then x.outRun + 1 else 0
        lastTrace := if smTraceable w then some d.now else x.lastTrace
        model := if out then x.model else x.model.map (fun m => binSample (d.now / fuSec) (d.get Reg.timeHoOrder) m w) })
      let d := if out then d.bump Reg.timeHoOutliers else d
      (d.set Reg.timeHoLearnTime (d.get Reg.timeHoLearnTime + (if h.history.length < 37800 then 16 else 0))).publishHo)

/-- OSCILLATOR_RETRACE: after 64 consecutive outliers A alone is refitted from the run, its first sample is marked BOOT, and the learning time
since power-up starts again (R300). -/
def execOscillatorRetrace (s : State) : Host.Outcome State Fault Refusal :=
  onDev s (fun d =>
    let h := d.tim.ho
    if d.dead ∨ h.outRun < 64 then d
    else
      let d := d.takeSeq
      let before := h.history.take (h.history.length - h.outRun)
      let run := h.history.drop (h.history.length - h.outRun)
      let order := d.get Reg.timeHoOrder
      let model := h.model.map (fun m =>
        { m with gen := (m.gen + 1) % 2 ^ 32, a := ratRound (meanRat (run.map (fun w =>
            (smY w : Rat) * 100 - (yPred m order (sampleSec (d.now / fuSec) w) (smTemp w * 10000) - m.a)))) })
      let run := match run with
        | w :: r => withBit w 36 true :: r
        | [] => []
      let d := d.onHo (fun x => { x with history := before ++ run, outRun := 0, fitted := false })
      let d := match model with
        | some m => d.writeModel m
        | none => d
      ((d.set Reg.timeHoBootTime 0).publishHo.mirrorModel).notice Reg.timeHoState [d.get Reg.timeHoState])

/-! ### The fit (R299) -/

/-- Solves n linear equations, each a list of n coefficients and the right side; none where they do not determine the unknowns. -/
def solveLinear : Nat → List (List Rat) → Option (List Rat)
  | 0, _ => some []
  | n + 1, rows =>
    match rows.find? (fun r => r.headD 0 != 0) with
    | none => none
    | some p0 =>
      let p := p0.map (· / p0.headD 1)
      let rest := (rows.erase p0).map (fun r => (List.zipWith (fun a b => a - r.headD 0 * b) r p).tail)
      match solveLinear n rest with
      | none => none
      | some xs => some ((p.getLastD 0 - (List.zipWith (· * ·) p.tail xs).foldl (· + ·) 0) :: xs)

/-- The row of a sample in the design of R299: 1, days since the fit, powers of T - T0 up to the order. -/
def designRow (fitSec : Nat) (t0 : Int) (order w : Nat) : List Rat :=
  let x : Rat := ((smTemp w - t0 : Int) : Rat) / 100
  [1, ((sampleSec fitSec w - fitSec : Int) : Rat) / 86400] ++ (List.range order).map (fun k => x ^ (k + 1))

/-- The normal equations of a least-squares fit, with a right side per sample. -/
def normalRows (rows : List (List Rat)) (ys : List Rat) (n : Nat) : List (List Rat) :=
  (List.range n).map (fun i =>
    (List.range n).map (fun j => rows.foldl (fun a r => a + r.getD i 0 * r.getD j 0) 0) ++
      [(rows.zip ys).foldl (fun a e => a + e.1.getD i 0 * e.2) 0])

/-- The normal equations with the unit vector of unknown k on the right. -/
def unitRows (rows : List (List Rat)) (n k : Nat) : List (List Rat) :=
  (normalRows rows [] n).zipIdx.map (fun e => e.1.dropLast ++ [if e.2 = k then 1 else 0])

/-- The largest magnitude of the mean residual (10^-18) over any 3 600 s of samples within the last 24 h. -/
def worstResidual (l : List (Nat × Rat)) (nowSec : Nat) : Rat :=
  let l := l.filter (fun e => decide (nowSec ≤ e.1 + 86400))
  let last := (l.getLast?.map (·.1)).getD 0
  (l.map (fun e =>
    if last < e.1 + 3584 then 0
    else
      let m := meanRat ((l.filter (fun f => decide (e.1 ≤ f.1 ∧ f.1 < e.1 + 3600))).map (·.2))
      if m < 0 then -m else m)).foldl max 0

/-- The model fitted at an instant, the standard error of D squared (none: the samples do not determine the terms). -/
def Device.fitModel (d : Device) : Option (HoModel × Rat) :=
  let l := d.usable
  let sec := d.now / fuSec
  let t0 := roundInt (l.foldl (fun a w => a + smTemp w) 0) l.length
  let order := d.get Reg.timeHoOrder
  let n := 2 + order
  let rows := l.map (designRow sec t0 order)
  let ys := l.map (fun w => (smY w : Rat) * 100)
  match solveLinear n (normalRows rows ys n) with
  | none => none
  | some b =>
    let rss := (rows.zip ys).foldl (fun a e =>
      let r := e.2 - (List.zipWith (· * ·) e.1 b).foldl (· + ·) 0
      a + r * r) 0
    let v := match solveLinear n (unitRows rows n 1) with
      | some z => rss / ((l.length - n : Nat) : Rat) * z.getD 1 0
      | none => 0
    let old := d.tim.ho.model
    let m : HoModel := ⟨((old.map (·.gen)).getD 0 + 1) % 2 ^ 32, d.now / fuSec * fuSec, ratRound (b.getD 0 0), ratRound (b.getD 1 0), ratRound (b.getD 2 0),
      ratRound (b.getD 3 0), ratRound (b.getD 4 0), t0, order, d.get Reg.timeHoLearnTime, (old.map (·.bins)).getD []⟩
    some (if old.isSome then m else l.foldl (binSample sec order) m, v)

/-- MODEL_FIT: after 3 600 s of learning the model is refitted and published (R299, R311, R312). Samples that do not determine the terms leave
the model as it was. -/
def execModelFit (s : State) : Host.Outcome State Fault Refusal :=
  onDev s (fun d =>
    if d.dead ∨ d.tim.ho.sinceFit < 3600 then d
    else
      let d := d.coreSeq.onHo (fun h => { h with sinceFit := 0 })
      match d.fitModel with
      | none => d
      | some (m, v) =>
        let d := (d.writeModel m).onHo (fun h => { h with fitted := true })
        let d := (d.setI Reg.timeHoDrift (roundInt m.d 1000)).set Reg.timeHoDriftSe (roundDiv (sqrtRat v) 1000)
        let res := d.usable.filterMap (fun w => (d.predictSample w).map (fun p => (smSeconds w, (smY w : Rat) * 100 - p)))
        let d := d.set Reg.timeHoResid (ratRound (worstResidual res (d.now / fuSec % 2 ^ 32) / 1000)).toNat
        d.publishHo.expectSecond.mirrorModel)

/-! ### Keeping the starter (R312 to R315) -/

/-- Bytes of a model record. -/
def modelSize : Nat := 63 + 2048

/-- n bytes at an offset as a number. -/
def at_ (bs : List Nat) (o n : Nat) : Nat := ofBytes ((bs.drop o).take n)

/-- Reads a model record. -/
def modelOf (bs : List Nat) : HoModel :=
  let i (o n : Nat) : Int := toSigned (8 * n) (at_ bs o n)
  ⟨at_ bs 0 4, time96ToFu (at_ bs 4 12), i 16 8, i 24 8, i 32 8, i 40 8, i 48 8, i 56 2, at_ bs 58 1, at_ bs 59 4,
    ((recordsOf 8 (bs.drop 63)).zipIdx.filter (fun e => e.1 != 0)).map (fun e => (e.2, toSigned 32 (e.1 / 2 ^ 32), e.1 % 2 ^ 32))⟩

/-- TIME_HO_HISTORY: the ring, oldest first, then the model record. -/
def Device.historyBytes (d : Device) : List Nat :=
  d.tim.ho.history.flatMap (beBytes 16) ++ (d.tim.ho.model.map modelBytes).getD []

/-- TIME_HO_IMPORT: history and model in that layout replace the stored ones (R314). -/
def importHistory (bs : List Nat) (d : Device) : Device × Reply :=
  if d.get Reg.timeHoState = 3 then (d, .fail (err stNotPermitted))
  else if bs.length < modelSize ∨ (bs.length - modelSize) % 16 ≠ 0 ∨ 37800 * 16 < bs.length - modelSize ∨
      !time96Valid (at_ (bs.drop (bs.length - modelSize)) 4 12) then (d, .fail (err stInvalidValue))
  else
    let h := (recordsOf 16 (bs.take (bs.length - modelSize))).map (fun w => clearBits (clearBits w 35 32) 15 0)
    let m := modelOf (bs.drop (bs.length - modelSize))
    let d := d.onHo (fun x => { x with history := h, model := some m, copies := [(0, m)], secs := [] })
    (((d.set Reg.timeHoBootTime 0).set Reg.timeHoLearnTime (16 * h.length)).publishHo.mirrorModel, .ok [])

/-- TIME_HO_IMPORT. -/
def execTimeHoImport (q : Req) (crc : BitVec 32) (s : State) : Host.Outcome State Fault Refusal :=
  onDev s (fun d => d.serve q 5 2 true Reg.timeHoImport.ref (fun _ d => d.takeBlock q Reg.timeHoImport.ref crc.toNat importHistory))

/-- TIME_HO_CLEAR written v (R314). -/
def clearHistory (v : Nat) (d : Device) : Device × Reply :=
  if d.get Reg.timeHoState = 3 then (d, .fail (err stNotPermitted))
  else if v = 1 then
    ((((d.onHo (fun h => { h with history := [], secs := [] })).set Reg.timeHoLearnTime 0)).publishHo, okWrite)
  else (d, okWrite)

/-- TIME_HO_CLEAR. -/
def execTimeHoClear (q : Req) (v : Val) (s : State) : Host.Outcome State Fault Refusal :=
  onDev s (fun d => d.serve q 2 2 true Reg.timeHoClear.ref (fun _ d =>
    d.plainWrite Reg.timeHoClear q v (fun d => d.withhold q Reg.timeHoClear.ref (clearHistory v.raw d))))

/-- R315: with one OCXO shared, a unit whose starter is Empty or Learning takes the twin's model and learning time. -/
def Device.adoptModel (d : Device) (bs : List Nat) : Device :=
  let d := d.setDom Reg.timeHoTwinModel.ref bs
  if d.on Reg.timeHoSharedOsc ∧ d.get Reg.timeHoState ≤ 1 ∧ bs.length = modelSize then
    let m := modelOf bs
    ((d.onHo (fun h => { h with model := some m })).set Reg.timeHoLearnTime m.learn).publishHo
  else d

end Sys2Proof.Machine
end

