-- ==== Sys2Proof/Machine/Packet.lean ====
section
/-! DEFINITION. Packet adaptation: packet ports, classification, the flow table, queues, admission, draining, flush and watermarks
(chapter 09), and the bank swap, which moves the channels (R229, R233). -/

namespace Sys2Proof.Machine

/-! ### Overbooked queues (R233) -/

/-- Rates of a group's ingress queues. -/
def Device.groupRate (d : Device) (g : Nat) : Nat :=
  sumOf (((d.enabledQueues 0).filter (fun e => qcGroup e.2.cfg == g)).map (fun e => qcRate e.2.cfg))

/-- Active ingress queues whose group's channel is too small become Overbooked, and Overbooked ones with enough capacity Active again. -/
def Device.rebook (d : Device) : Device :=
  d.each (d.enabledQueues 0) (fun e x =>
    let y := x.queue e.1
    let beyond := decide (x.fab.active.channelCap (qcGroup y.cfg) < x.groupRate (qcGroup y.cfg))
    if qcDir y.cfg ≠ 0 then x
    else if y.state = 1 ∧ beyond then x.putQueue e.1 { y with state := 3 }
    else if y.state = 3 ∧ !beyond then x.putQueue e.1 { y with state := 1 }
    else x)

/-- The banks change places: channels, conflicts and Overbooked queues follow the new bank (R187, R229, R233). -/
def Device.swapBanks (d : Device) (gen : Nat) : Device :=
  let x := d.exchange gen
  (x.count Reg.pktChConflicts x.fab.active.channelConflicts).rebook

/-- SLICE_MAP_BANK_SWAP: the armed swap fires after its pass (R187). -/
def execSliceMapBankSwap (handle : BitVec 32) (poison : Bool) (s : State) : Host.Outcome State Fault Refusal :=
  onDev s (fun d =>
    if d.fab.passed then
      let x := d.fire handle.toNat 0x0001 poison (fun a x => .ok (x.swapBanks a.value))
      if poison ∧ (x.action? handle.toNat).isNone ∧ x.get Reg.fabMapNextState = 2 then x.undoPass else x
    else d)

/-! ### Packet ports (R212) -/

/-- Ports in packet mode. -/
def Device.packetPorts (d : Device) : List Nat := (List.range 32).filter (fun p => d.get (Reg.pktPortMode p) == 1)

/-- PKT_PORT_MODE of port p written v (R212). -/
def portModeCheck (p v : Nat) (d : Device) : Option Err :=
  if v = 1 then
    if d.fab.active.inOf p ≠ 0 ∨ d.fab.active.outOf p ≠ 0 ∨ d.fab.next.inOf p ≠ 0 ∨ d.fab.next.outOf p ≠ 0 then
      some (errObj stInUse Reg.fabMapActive.ref)
    else if d.flexMember p then some (errObj stInUse Reg.laneFlexeActive.ref)
    else if 3200000 < sumOf ((d.packetPorts.filter (· != p) ++ [p]).map (fun k => macRate (d.get (Reg.lanePortType k)))) then
      some (err stInvalidCombination)
    else none
  else if d.pkt.queues.any (fun e => qcEnable e.2.cfg && qcPort e.2.cfg == p) then some (errObj stInUse Reg.pktQConfig.ref)
  else none

/-- Rates and capacities of packet ports follow. -/
def Device.portRates (d : Device) : Device :=
  let d := d.each (List.range 32) (fun p x => x.set (Reg.pktPortCapacity p) (if x.get (Reg.pktPortMode p) = 1 then x.portCapacity p else 0))
  d.set Reg.pktPortRateUsed (sumOf (d.packetPorts.map (fun k => macRate (d.get (Reg.lanePortType k)))))

/-- Effect of a write of PKT_PORT_MODE. -/
def applyPortMode (p v : Nat) (d : Device) : Device := ((d.putValue (Reg.pktPortMode p) v).portRates).refreshPort p

/-- PKT_PORT_MODE. -/
def execPktPortMode (q : Req) (port : PortNo) (v : Val) (s : State) : Host.Outcome State Fault Refusal :=
  onDev s (fun d => d.serve q 2 1 true (Reg.pktPortMode port).ref (fun _ d =>
    d.plainWriteR (Reg.pktPortMode port) (.span 0 1) q v (fun d =>
      match portModeCheck port v.raw d with
      | some e => (d, .fail e)
      | none => d.withhold q (Reg.pktPortMode port).ref (applyPortMode port v.raw d, okWrite))))

/-! ### Parsing and flow keys (R215, R216) -/

/-- n bytes of a frame from an offset, as a number; 0 where the frame ends before. -/
def field (bs : List Nat) (at_ n : Nat) : Nat := if at_ + n ≤ bs.length then ofBytes ((bs.drop at_).take n) else 0

/-- The frame holds n bytes from an offset. -/
def holds (bs : List Nat) (at_ n : Nat) : Bool := decide (at_ + n ≤ bs.length)

/-- A VLAN tag at an offset. -/
def tagAt (bs : List Nat) (at_ : Nat) : Bool := holds bs at_ 4 && (field bs at_ 2 == 0x8100 || field bs at_ 2 == 0x88A8)

/-- Where the type after the tags lies. -/
def typeAt (bs : List Nat) : Nat := if tagAt bs 12 then (if tagAt bs 16 then 20 else 16) else 12

/-- OUTER_VID, PCP, INNER_VID. -/
def outerVid (bs : List Nat) : Nat := if tagAt bs 12 then field bs 14 2 % 4096 else 0
def outerPcp (bs : List Nat) : Nat := if tagAt bs 12 then field bs 14 2 / 8192 else 0
def innerVid (bs : List Nat) : Nat := if tagAt bs 12 && tagAt bs 16 then field bs 18 2 % 4096 else 0

/-- The frame carries an IPv4, an IPv6 header or an MPLS stack. -/
def isV4 (bs : List Nat) : Bool := field bs (typeAt bs) 2 == 0x0800 && holds bs (typeAt bs + 2) 20
def isV6 (bs : List Nat) : Bool := field bs (typeAt bs) 2 == 0x86DD && holds bs (typeAt bs + 2) 40
def isMpls (bs : List Nat) : Bool := (field bs (typeAt bs) 2 == 0x8847 || field bs (typeAt bs) 2 == 0x8848) && holds bs (typeAt bs + 2) 4

/-- A protocol whose ports are taken: 6, 17, 132. -/
def portProto (p : Nat) : Bool := p == 6 || p == 17 || p == 132

/-- Where the transport header of an IPv4 packet lies. -/
def v4Next (bs : List Nat) : Nat := typeAt bs + 2 + 4 * (field bs (typeAt bs + 2) 1 % 16)

/-- SPORT and DPORT of an IPv4 packet, both as 32 bits; 0 beyond the first fragment. -/
def v4Ports (bs : List Nat) : Nat :=
  if portProto (field bs (typeAt bs + 11) 1) && field bs (typeAt bs + 8) 2 % 8192 == 0 then field bs (v4Next bs) 4 else 0

/-- SPORT and DPORT of an IPv6 packet from its fixed header's NEXT_HDR. -/
def v6Ports (bs : List Nat) : Nat := if portProto (field bs (typeAt bs + 8) 1) then field bs (typeAt bs + 42) 4 else 0

/-- A GTP-U packet: IPv4, UDP to port 2152, its header present. -/
def isGtp (bs : List Nat) : Bool :=
  isV4 bs && field bs (typeAt bs + 11) 1 == 17 && v4Ports bs % 65536 == 2152 && holds bs (v4Next bs + 8) 8

/-- The fields of a key type as (value, width) in the order of Table 9.1; none where a needed header is missing. -/
def keyFields (ty : Nat) (bs : List Nat) : Option (List (Nat × Nat)) :=
  let t := typeAt bs
  match ty with
  | 1 => some [(outerVid bs, 12), (outerPcp bs, 3)]
  | 2 => some [(outerVid bs, 12), (innerVid bs, 12)]
  | 3 => some [(field bs 0 6, 48), (outerVid bs, 12)]
  | 4 => if isV4 bs then some [(field bs (t + 14) 4, 32), (field bs (t + 18) 4, 32), (field bs (t + 11) 1, 8), (v4Ports bs, 32),
      (field bs (t + 3) 1 / 4, 6)] else none
  | 5 => if isV6 bs then some [(field bs (t + 10) 16, 128), (field bs (t + 26) 16, 128), (field bs (t + 8) 1, 8), (v6Ports bs, 32),
      (field bs (t + 2) 2 / 64 % 64, 6)] else none
  | 6 => if isMpls bs then some [(field bs (t + 2) 4 / 4096, 20), (field bs (t + 2) 4 / 512 % 8, 3)] else none
  | 7 => if isGtp bs then some [(field bs (t + 18) 4, 32), (field bs (v4Next bs + 12) 4, 32)] else none
  | _ => none

/-- Packs fields downward from bit `top`, exclusive. -/
def packFields : Nat → List (Nat × Nat) → Nat
  | _, [] => 0
  | top, (v, w) :: r => v % 2 ^ w * 2 ^ (top - w) + packFields (top - w) r

/-- The 320-bit key of a type: TYPE, PORT, the fields from bit 310 downward (R215). -/
def flowKey (ty port : Nat) (bs : List Nat) : Option Nat :=
  (keyFields ty bs).map (fun l => ty * 2 ^ 316 + port * 2 ^ 311 + packFields 311 l)

/-- The two candidate positions of a key among the 33 554 432 entries (R217). -/
def flowAt (i : Fin 2) (k : Nat) : Nat := Config.flowHash i k % 33554432

/-- The keys that a port tries on a frame. -/
def Device.triedKeys (d : Device) (port : Nat) (bs : List Nat) : List Nat :=
  let keys := d.get (Reg.pktPortKeys port)
  [keys % 16, keys / 16 % 16].filterMap (fun ty => flowKey ty port bs)

/-- A lookup meets stored poison: in the entry at h1 or h2 of a key tried (R217; Table 10.1). -/
def Device.poisonedLookup (d : Device) (port : Nat) (bs : List Nat) : Bool :=
  (d.triedKeys port bs).any (fun k => [0, 1].any (fun i => (tblGet d.mem.poisoned (4 * 2 ^ 48 + (0x2000000000 + 64 * flowAt i k))).isSome))

/-- The first key type of a port whose key is found; an entry that is not in use (VALID 0) is not found. -/
def Device.lookup (d : Device) (port : Nat) (bs : List Nat) : Option (Nat × Flow) :=
  (d.triedKeys port bs).findSome? (fun k => ((tblGet d.pkt.flows k).filter (·.valid)).map (fun f => (k, f)))

/-! ### Ingress (R213 to R217, R226) -/

/-- The reception of a frame as it stands. -/
def Device.openRx (d : Device) (p : Nat) (f : RxFrame) : Device := { d with pkt := { d.pkt with rx := tblPut d.pkt.rx p f } }
def Device.closeRx (d : Device) (p : Nat) : Device := { d with pkt := { d.pkt with rx := tblDel d.pkt.rx p } }

/-- The queue is an enabled ingress queue of a port. -/
def takesFrom (cfg p : Nat) : Bool := qcEnable cfg && qcDir cfg == 0 && qcPort cfg == p

/-- The words of an open item leave the tail of its queue (R225). -/
def Device.dropOpen (d : Device) (f : RxFrame) : Device :=
  match f.queue with
  | some q => if f.written = 0 then d else d.putQueue q ((d.queue q).rewind f.written)
  | none => d

/-- A frame's item begins in its queue: the words of its bytes so far are written, but the last, whose tag waits for the end of the frame (R224). A Disabled queue
takes none (Table 9.5). -/
def Device.beginItem (d : Device) (p q : Nat) (flow : Option Nat) (bs : List Nat) : Device :=
  let x := d.queue q
  if x.state ≠ 0 ∧ takesFrom x.cfg p then
    let l := (itemWords bs).dropLast
    (d.putQueue q (l.foldl PktQueue.push x)).openRx p ⟨some q, flow, false, bs, l.length⟩
  else d.openRx p ⟨some q, flow, false, bs, 0⟩

/-- A frame without a flow takes the miss action of its port: codes 2 and 3 name no action, and drop (R215). -/
def Device.missAction (d : Device) (p : Nat) (bs : List Nat) : Device :=
  let m := d.get (Reg.pktPortMiss p)
  if bits m 31 30 = 1 then d.beginItem p (m % 2 ^ 18) none bs else (d.countPort p 5).openRx p ⟨none, none, false, bs, 0⟩

/-- A frame of the management VLAN (Table 17.2) is taken out before classification (R213). -/
def Device.managementFrame (d : Device) (p : Nat) (bs : List Nat) : Bool :=
  bitAt (d.get Reg.eopVlanPorts) p && tagAt bs 12 && outerVid bs == d.get Reg.eopMgmtVid && field bs (typeAt bs) 2 == 0x88B5

/-- A port classifies a frame: in packet mode, not failed, and the frame no management frame (R213, Table 15.3). -/
def Device.classifies (d : Device) (p : Nat) (bs : List Nat) : Bool :=
  d.get (Reg.pktPortMode p) == 1 && d.get (Reg.lanePortState p) == 2 && !d.managementFrame p bs

/-- INGRESS_FRAME_START: a frame on a packet port is classified from its bytes so far (R215 to R217), and its item begins. With an unreadable entry the lookup finds
nothing and is counted. -/
def execIngressFrameStart (port : PortNo) (bytes : List Byte) (unreadable : Bool) (s : State) : Host.Outcome State Fault Refusal :=
  onDev s (fun d =>
    if !d.classifies port (bytes.map (·.toNat)) then d
    else
      let bs := bytes.map (·.toNat)
      let d := match tblGet d.pkt.rx port with
        | some f => d.dropOpen f
        | none => d
      let d := d.countPort port 0
      if unreadable ∨ d.poisonedLookup port bs then (((d.consumed 6 0x4FF0).countPort port 6).countPort port 9).missAction port bs
      else
        match d.lookup port bs with
        | none => d.missAction port bs
        | some (k, f) =>
          if f.action = 0 then d.beginItem port f.queue (some k) bs
          else (d.countPort port 5).openRx port ⟨none, some k, false, bs, 0⟩)

/-- INGRESS_OVERSIZE: the frame's words exceed ceil(PKT_MTU / 8): its item is rewound at once, the frame is errored, the rest is discarded
(R226). -/
def execIngressOversize (port : PortNo) (s : State) : Host.Outcome State Fault Refusal :=
  onDev s (fun d =>
    match tblGet d.pkt.rx port with
    | some f =>
      match f.queue with
      | some q =>
        let d := d.dropOpen f
        let x := d.queue q
        let d := if x.state = 0 then d else d.putQueue q { x with rewound := x.rewound + 1 }
        (d.countPort port 4).openRx port { f with queue := none, written := 0 }
      | none => d
    | none => d)

/-- Admission (R228): Active or Flushing, and depth + charge within r * d / 12.8 µs. -/
def admits (x : PktQueue) (l : Nat) : Bool :=
  (x.state == 1 || x.state == 2) && decide ((queueDepth x + chargeOf l) * 128 ≤ qcRate x.cfg * qcDelay x.cfg * 100)

/-- Commits an item of l bytes whose last words w are written now: deadline, counters, peak, watermark (R225, R228). -/
def Device.commitItem (d : Device) (q l : Nat) (w : List PktWord) : Device :=
  let x := w.foldl PktQueue.push (d.queue q)
  let dep := queueDepth x + chargeOf l
  let x := { x with items := x.items ++ [⟨l, d.now + ceilDiv (dep * fuCycle) (qcRate x.cfg)⟩], accepted := x.accepted + 1, peak := max x.peak dep }
  (d.putQueue q x).watermark q

/-- Folds where one more frame could reach half a range. -/
def foldDue (f : Flow) : Bool :=
  decide (2 ^ 27 ≤ f.accBytes + 2 ^ 14 ∨ 2 ^ 15 ≤ f.accPkts + 1 ∨ 2 ^ 7 ≤ f.polPkts + 1 ∨ 2 ^ 7 ≤ f.refPkts + 1)

def foldIfNear (f : Flow) : Flow := if foldDue f then foldFlow f else f

/-- The counter record of a flow is met poisoned while its counts fold: it is rewritten holding only the counts being added (Table 10.6,
row 7). -/
def Device.recordPoison (d : Device) (k : Option Nat) : Device :=
  match k with
  | none => d
  | some k =>
    match tblGet d.pkt.flows k with
    | some f =>
      if foldDue f then
        let f := foldFlow { f with recPkts := 0, recBytes := 0, recPoliced := 0, recRefused := 0 }
        (({ d with pkt := { d.pkt with flows := tblPut d.pkt.flows k f } }).consumed 7 0x4FF0).bump Reg.memCounterResets
      else d
    | none => d

/-- The flow of a key. -/
def Device.onFlow (d : Device) (k : Option Nat) (f : Flow → Flow) : Device :=
  match k with
  | none => d
  | some k =>
    match tblGet d.pkt.flows k with
    | some x => { d with pkt := { d.pkt with flows := tblPut d.pkt.flows k (f (foldIfNear x)) } }
    | none => d

/-- Tokens brought up to date at a calendar cycle (R226). -/
def refill (cycle : Nat) (f : Flow) : Flow :=
  if f.cir = 0 then f
  else { f with tokens := min (f.cbs * 64) (f.tokens + f.cir * ((cycle + 2 ^ 32 - f.last) % 2 ^ 32)), last := cycle }

/-- The flow's policer refuses a frame of l bytes. -/
def Device.policed (d : Device) (k : Option Nat) (l : Nat) : Bool :=
  match k.bind (tblGet d.pkt.flows) with
  | some f => f.cir != 0 && decide (f.tokens < l)
  | none => false

/-- The last four bytes of a frame are its right FCS: the CRC-32 of the others, its lowest byte first (assumption 167). -/
def fcsOk (bs : List Nat) : Bool :=
  decide (4 ≤ bs.length) && (bs.drop (bs.length - 4)) == (beBytes 4 (crc32 (bs.take (bs.length - 4)))).reverse

/-- The decisions on a complete frame, whose words so far stand open in the queue (R226): errored, policed, refused, committed. -/
def Device.decideFrame (d : Device) (p q : Nat) (f : RxFrame) (bs : List Nat) (errored : Bool) : Device :=
  let l := bs.length
  let flow := f.flow
  let rewind (x : Device) : Device :=
    let x := x.dropOpen f
    if (x.queue q).state = 0 then x else x.putQueue q { x.queue q with rewound := (x.queue q).rewound + 1 }
  if errored ∨ l < 64 then (rewind d).countPort p 4
  else
    let cycle := d.now / fuCycle % 2 ^ 32
    let d := d.onFlow flow (refill cycle)
    if d.policed flow l then
      let d := (rewind d).countPort p 3
      let d := d.putQueue q { d.queue q with policed := (d.queue q).policed + 1 }
      d.onFlow flow (fun f => { f with polPkts := f.polPkts + 1 })
    else if !admits (d.queue q) l || !takesFrom (d.queue q).cfg p then
      let d := (rewind d).countPort p 2
      let d := d.putQueue q { d.queue q with refused := (d.queue q).refused + 1 }
      d.onFlow flow (fun f => { f with refPkts := f.refPkts + 1 })
    else
      let d := (d.commitItem q l ((itemWords bs).drop f.written)).countPort p 1
      d.onFlow flow (fun f => { f with accPkts := f.accPkts + 1, accBytes := f.accBytes + l, tokens := if f.cir = 0 then f.tokens else f.tokens - l })

/-- INGRESS_FRAME_END: the rest of a frame came and its EOI word is written (R226); it is errored by the MAC's word, by its FCS, or above PKT_MTU. A frame the fence met is
discarded and its words counted (R239). -/
def execIngressFrameEnd (port : PortNo) (rest : List Byte) (macError recPoison : Bool) (headTaken : Nat) (s : State) : Host.Outcome State Fault Refusal :=
  onDev s (fun d =>
    match tblGet d.pkt.rx port with
    | none => d
    | some f =>
      let d := (d.closeRx port).countBytes port (f.bytes.length + rest.length)
      match f.queue with
      | none => d
      | some q =>
        let d := d.reads q headTaken
        let x := d.queue q
        let bs := f.bytes ++ rest.map (·.toNat)
        if f.fenced then d.putQueue q { x with fenceWords := x.fenceWords + ceilDiv bs.length 8 }
        else (if recPoison then d.recordPoison f.flow else d).decideFrame port q f bs (macError || !fcsOk bs || decide (ceilDiv (d.get Reg.pktMtu) 8 < ceilDiv bs.length 8)))

/-! ### Flow edits (R219) -/

/-- The key at a position. -/
def keyAt (fs : List (Nat × Flow)) (p : Nat) : Option (Nat × Flow) := fs.find? (fun e => e.2.pos == p)

/-- Frees a position by at most n moves of occupants, each to its other candidate position, the last of the chain first (R219; assumption 168). -/
def freePos : Nat → List (Nat × Flow) → Nat → Option (List (Nat × Flow))
  | n, fs, p =>
    match keyAt fs p, n with
    | none, _ => some fs
    | some _, 0 => none
    | some (k, f), n + 1 =>
      let o := if flowAt 0 k = p then flowAt 1 k else flowAt 0 k
      if o = p then none else (freePos n fs o).map (fun t => tblPut t k { f with pos := o })

/-- Where an added key goes, and the table with its occupants moved: a free candidate position, else one freed by up to 16 moves (R219). -/
def placeFlow (fs : List (Nat × Flow)) (k : Nat) : Option (Nat × List (Nat × Flow)) :=
  let try_ (n : Nat) (i : Fin 2) : Option (Nat × List (Nat × Flow)) := (freePos n fs (flowAt i k)).map (fun t => (flowAt i k, t))
  (((try_ 0 0).or (try_ 0 1)).or (try_ 16 0)).or (try_ 16 1)

/-- The flow an entry word spells (Table 9.2), as an add makes it: tokens full. -/
def flowOf (w cycle : Nat) : Flow :=
  ⟨bitAt w 191, bits w 189 188, bits w 187 170, bits w 167 144, bits w 143 124, bits w 143 124 * 64, cycle, 0, 0, 0, 0, 0, 0, 0, 0, 0⟩

/-- Why an edit record is refused, given the flows that earlier records leave. -/
def Device.flowEditError (d : Device) (fs : List (Nat × Flow)) (w : Nat) : Option Err :=
  let op := bits w 575 568
  let k := bits w 511 192
  let there := (tblGet fs k).isSome
  let act := bits w 189 188
  let q := (d.queue (bits w 187 170)).cfg
  if op = 0 ∨ 3 < op then some (err stInvalidValue)
  else if (op = 1 ∧ there) ∨ (op ≠ 1 ∧ !there) then some (err stInvalidValue)
  else if op = 3 then none
  else if 1 < act then some (err stInvalidValue)
  else if act = 0 ∧ !(qcEnable q && qcDir q == 0 && qcPort q == bits k 315 311) then some (err stInvalidCombination)
  else if op = 1 ∧ (placeFlow fs k).isNone then some (err stTableFull)
  else none

/-- Applies one record: a replace keeps TOKENS, LAST and the counts. -/
def applyFlowEdit (cycle : Nat) (fs : List (Nat × Flow)) (w : Nat) : List (Nat × Flow) :=
  let k := bits w 511 192
  let n := flowOf w cycle
  match bits w 575 568 with
  | 1 =>
    match placeFlow fs k with
    | some (p, t) => tblPut t k { n with pos := p }
    | none => fs
  | 2 =>
    match tblGet fs k with
    | some f => tblPut fs k { f with valid := n.valid, action := n.action, queue := n.queue, cir := n.cir, cbs := n.cbs }
    | none => fs
  | _ => tblDel fs k

/-- Checks the records in order, each against what the earlier ones leave. -/
def Device.flowEdits (d : Device) (cycle : Nat) : List (Nat × Flow) → List Nat → Except Err (List (Nat × Flow))
  | fs, [] => .ok fs
  | fs, w :: r =>
    match d.flowEditError fs w with
    | some e => .error e
    | none => d.flowEdits cycle (applyFlowEdit cycle fs w) r

/-- A flow edit BLOCK: all records or none (R219). -/
def flowEdit (ws : List Nat) (d : Device) : Device × Reply :=
  match d.flowEdits (d.now / fuCycle % 2 ^ 32) d.pkt.flows ws with
  | .error e => (d, .fail e)
  | .ok fs => (({ d with pkt := { d.pkt with flows := fs } }).set Reg.pktFlowCount (fs.filter (fun e : Nat × Flow => e.2.valid)).length, .ok [])

/-- A flow edit by BLOCK needs the HBM stacks (R477). -/
def flowEditBytes (q : Req) (bs : List Nat) (d : Device) : Device × Reply :=
  if bs.length % 72 ≠ 0 then (d, .fail (err stInvalidValue))
  else d.whenReady q 5 Reg.pktFlowEdit.ref 0 bs [resHbm] (flowEdit (recordsOf 72 bs))

/-- A BLOCK of one flow edit record. -/
def flowEditOp (op : Nat) (q : Req) (rec : BitVec 576) (d : Device) : Device :=
  d.serve q 5 1 true Reg.pktFlowEdit.ref (fun _ d =>
    d.domainWrite q Reg.pktFlowEdit.ref (beBytes 72 (rec.toNat % 2 ^ 568 + op * 2 ^ 568)) (flowEditBytes q))

/-- FLOW_ADD: a record with OP 1. -/
def execFlowAdd (q : Req) (rec : BitVec 576) (s : State) : Host.Outcome State Fault Refusal := onDev s (flowEditOp 1 q rec)
/-- FLOW_REPLACE: a record with OP 2. -/
def execFlowReplace (q : Req) (rec : BitVec 576) (s : State) : Host.Outcome State Fault Refusal := onDev s (flowEditOp 2 q rec)
/-- FLOW_DELETE: a record with OP 3. -/
def execFlowDelete (q : Req) (rec : BitVec 576) (s : State) : Host.Outcome State Fault Refusal := onDev s (flowEditOp 3 q rec)

/-! ### Queue configuration (R221, R222, R235) -/

/-- Pages a queue reserves (R235). -/
def spillPages (maxCharge cfg : Nat) : Nat :=
  if qcEnable cfg then ceilDiv (qcRate cfg * qcDelay cfg * 100 + 128 * maxCharge) (128 * 4096) else 0

/-- The queue holds a committed or an open item. -/
def Device.queueHolds (d : Device) (q : Nat) : Bool :=
  let x := d.queue q
  !x.items.isEmpty || d.pkt.rx.any (fun e => e.2.queue == some q) ||
    (qcDir x.cfg == 1 && ((tblGet d.pkt.ext (qcGroup x.cfg)).bind (·.item)).isSome)

/-- The configuration with every record of a BLOCK in place. -/
def Device.withRecords (d : Device) (ws : List Nat) : Device :=
  ws.foldl (fun x w => x.putQueue (qcQueue w) { x.queue (qcQueue w) with cfg := w }) d

/-- Row k of Table 9.4 on a record, under the configuration n that the BLOCK makes. -/
def Device.queueRow (d n : Device) (k w : Nat) : Option Err :=
  let q := qcQueue w
  let old : PktQueue := d.queue q
  let enabled := (n.pkt.queues.map (·.2.cfg)).filter qcEnable
  let rates (l : List Nat) : Nat := sumOf (l.map qcRate)
  let g := qcGroup w
  let eg := qcEnable w && qcDir w == 1
  let refuse (bad : Bool) (e : Err) : Option Err := if bad then some e else none
  match k with
  | 0 => refuse (qcDelay w == 0 || bits w 102 96 != 0 || d.get (Reg.pktPortMode (qcPort w)) != 1) (err stInvalidValue)
  | 1 => refuse (qcEnable w && qcDir w == 0 && decide (d.fab.active.channelCap g < rates (enabled.filter (fun c => qcDir c == 0 && qcGroup c == g))))
      (err stInvalidCombination)
  | 2 => refuse (decide (5120000 < rates (enabled.filter (fun c => qcDir c == 0)))) (err stInvalidCombination)
  | 3 => refuse (eg && decide (qcRate w < ceilDiv (4072 * d.fab.active.egressSlots g) 256)) (err stInvalidCombination)
  | 4 => refuse (eg && decide (d.portCapacity (qcPort w) < rates (enabled.filter (fun c => qcDir c == 1 && qcPort c == qcPort w)))) (err stInvalidCombination)
  | 5 => refuse (eg && decide (1 < (enabled.filter (fun c => qcDir c == 1 && qcGroup c == g)).length)) (err stInvalidCombination)
  | 6 => refuse (decide (d.get Reg.pktSpillSize < 4096 * sumOf (enabled.map (spillPages d.maxCharge)))) (err stInvalidCombination)
  | 7 => refuse (d.queueHolds q && (decide (qcRate w < qcRate old.cfg) || qcDir w != qcDir old.cfg || qcPort w != qcPort old.cfg || g != qcGroup old.cfg))
      (err stNotPermitted)
  | _ =>
    let flows := (d.pkt.flows.filter (fun e => e.2.valid && e.2.action == 0 && e.2.queue == q)).length
    refuse (!qcEnable w && qcEnable old.cfg && flows != 0) (errCount stInUse flows)

/-- Why a BLOCK of queue records is refused: the first row of Table 9.4 that a record of it fails (R222). -/
def Device.queueError (d : Device) (ws : List Nat) : Option Err :=
  let n := d.withRecords ws
  (List.range 9).findSome? (fun k => ws.findSome? (d.queueRow n k))

/-- Applies a queue record: enabling makes a Disabled queue Active; disabling a queue that holds items acts first as a flush (R223). -/
def Device.applyQueue (d : Device) (w : Nat) : Device :=
  let q := qcQueue w
  let holds := d.queueHolds q
  let x := d.queue q
  let x := { x with cfg := w, live := x.live && qcWm w != 0 }
  if qcEnable w then d.putQueue q { x with state := if x.state = 0 then 1 else x.state, disableAfter := false }
  else if x.state = 0 then d.putQueue q x
  else if !holds then d.putQueue q { x with state := 0, flushing := false, live := false }
  else d.putQueue q { x with flushing := true, disableAfter := true }

/-- Sums of the queue configuration: PKT_RATE_USED, PKT_SPILL_USED. -/
def Device.queueSums (d : Device) : Device :=
  let enabled := (d.pkt.queues.map (·.2.cfg)).filter qcEnable
  (d.set Reg.pktRateUsed (sumOf ((enabled.filter (fun c => qcDir c == 0)).map qcRate))).set Reg.pktSpillUsed
    (4096 * sumOf (enabled.map (spillPages d.maxCharge)))

/-- The stored value of PKT_Q_CONFIG: the records off their Default. -/
def Device.queueRecords (d : Device) : List Nat :=
  (d.pkt.queues.filter (fun e => e.2.cfg != qcDefault e.1)).flatMap (fun e => beBytes 16 e.2.cfg)

/-- PKT_Q_CONFIG as read: the records of all queues (R221). -/
def Device.allQueueRecords (d : Device) : List Nat := (List.range 262144).flatMap (fun q => beBytes 16 (d.queue q).cfg)

/-- PKT_Q_CONFIG written (R222): all records or none. -/
def queueConfig (bs : List Nat) (d : Device) : Device × Reply :=
  if bs.length % 16 ≠ 0 then (d, .fail (err stInvalidValue))
  else
    match d.queueError (recordsOf 16 bs) with
    | some e => (d, .fail e)
    | none =>
      let x := (((recordsOf 16 bs).map (fun r => clearBits r 102 96)).foldl Device.applyQueue d).queueSums.rebook
      (x.putDomain Reg.pktQConfig.ref x.queueRecords, .ok [])

/-- PKT_Q_CONFIG by BLOCK; it needs the HBM stacks (R477). -/
def writeQueueConfig (q : Req) (bs : List Nat) (d : Device) : Device × Reply :=
  d.whenReady q 5 Reg.pktQConfig.ref 0 bs [resHbm] (queueConfig bs)

/-- PKT_Q_CONFIG. -/
def execPktQConfig (q : Req) (crc : BitVec 32) (s : State) : Host.Outcome State Fault Refusal :=
  onDev s (fun d => d.serve q 5 1 true Reg.pktQConfig.ref (fun _ d => d.takeBlock q Reg.pktQConfig.ref crc.toNat (writeQueueConfig q)))

/-! ### Egress (R227, R237, R238) -/

/-- The words of a group's stream that the extractor looks at for an item header: while delineation is lost, those from FIRST on. -/
def Extractor.seek (x : Extractor) : List AreaWord := if x.lost then x.words.dropWhile (fun w => !w.first) else x.words

/-- EXTRACTOR_ITEM_HEADER: the next item header of a group's stream is taken (Table 9.9). A bad one ends delineation, counted; the stream is taken up at FIRST of a
later block (R238). With an item open, or no word of the stream waiting, none is due. -/
def execExtractorItemHeader (group : GroupNo) (s : State) : Host.Outcome State Fault Refusal :=
  onDev s (fun d =>
    let g := group.val
    let d := d.catchUp g
    if !d.extractorRuns g then d.rewindEgress g
    else
      let x := d.extOf g
      if x.item.isSome then d
      else
        match x.seek with
        | [] => d.putExt g { x with words := [] }
        | h :: r =>
          let w := h.data
          let l := bits w 63 50
          let bad := h.poison || crc16 48 (w / 2 ^ 16) != bits w 15 0 || decide (d.get Reg.pktMtu < l) || (l != 0 && decide (l < 64))
          if bad then (if x.lost then d else d.bump Reg.pktEgDelin).putExt g { x with lost := true, words := r }
          else
            let d := d.putExt g { x with lost := false, item := if l = 0 then none else some l, fenced := false, words := r }
            if l ≠ 0 ∧ (d.egressQueue g).isNone then d.bump Reg.pktUnboundDiscards else d)

/-- EGRESS_ITEM_END: the last word of the open item has come, and its EOI word is written (R227): rewound with a marked slice (Table 10.6, row 4), a wrong FCS, or
after the stream broke; admitted, or refused. -/
def execEgressItemEnd (group : GroupNo) (headTaken : Nat) (s : State) : Host.Outcome State Fault Refusal :=
  onDev s (fun d =>
    let g := group.val
    let d := d.catchUp g
    let x := d.extOf g
    match x.item with
    | none => d
    | some l =>
      let n := ceilDiv l 8
      if x.words.length < n then d
      else
        let body := x.words.take n
        let bs := (body.flatMap (fun w => beBytes 8 w.data)).take l
        let poison := body.any (·.poison)
        let d := (d.putExt g { x with words := x.words.drop n }).countBytes 0xC1 l
        match d.egressQueue g with
        | none => d.putExt g { d.extOf g with item := none, fenced := false }
        | some q =>
          if x.fenced || poison || !fcsOk bs then (if poison then d.consumed 4 0x4FF0 else d).rewindEgress g
          else
            let d := (d.putExt g { d.extOf g with item := none }).reads q headTaken
            let y := d.queue q
            if admits y l then d.commitItem q l (itemWords bs) else d.putQueue q { y with refused := y.refused + 1, rewound := y.rewound + 1 })

/-! ### Draining (R231) -/

/-- The queue of a list whose head item has the earliest deadline, the lowest number on a tie. -/
def earliest : List (Nat × PktQueue) → Option Nat → Option Nat
  | [], _ => none
  | (q, x) :: r, best =>
    match x.items.head? with
    | none => earliest r best
    | some i =>
      match earliest r best with
      | none => some q
      | some q' =>
        match r.find? (fun e => e.1 == q') with
        | some (_, y) => if i.deadline ≤ (y.items.headD ⟨0, 0⟩).deadline then some q else some q'
        | none => some q

/-- The begun item of a queue ends: its last words have been taken; delivered, late if past its deadline plus J (R233); a flush then completes (R239). -/
def Device.endItem (d : Device) (q : Nat) : Device :=
  let d := d.takeWords q (d.queue q).left
  let x := d.queue q
  match x.begun, x.items with
  | true, i :: r =>
    let late := match d.jitterFu x.cfg with
      | some j => decide (i.deadline + j < d.now)
      | none => false
    let d := d.putQueue q { x with items := r, begun := false, taken := 0 }
    (if late then d.bump Reg.pktLate else d).watermark q
  | _, _ => d

/-- A Flushing queue without a begun item returns to Active, or becomes Disabled. -/
def Device.flushDone (d : Device) (q : Nat) : Device :=
  let x := d.queue q
  if x.state = 2 ∧ !x.begun then (d.putQueue q { x with state := if x.disableAfter then 0 else 1, disableAfter := false }).rebook else d

/-- A consumer at an item boundary: what it sent ends; it begins the committed head item with the earliest deadline. -/
def Device.nextItem (d : Device) (qs : List (Nat × PktQueue)) (may : Bool) : Device :=
  let d := d.each (qs.filter (·.2.begun)) (fun e x => (x.endItem e.1).flushDone e.1)
  let now := qs.map (fun e => (e.1, d.queue e.1))
  if !may then d
  else
    match earliest now none with
    | none => d
    | some q => d.putQueue q { d.queue q with begun := true, taken := 0 }

/-- An item boundary of a channel lies in the running cycle: its slots take what waits and what is left of the item begun. -/
def Device.boundaryDue (d : Device) (g : Nat) : Bool := decide (d.untilHeader g ≤ 2 * d.channelBank.channelSize g)

/-- The item that a channel has begun puts its header before its words; `poison`: its slices are marked (R236, R237). -/
def Device.channelBegins (d : Device) (g : Nat) (poison : Bool) : Device :=
  match ((d.channelQueues g).find? (·.2.begun)).bind (·.2.items.head?) with
  | some i =>
    let c := d.chanOf g
    let d := d.countBytes 0x41 i.length
    (if poison then d.consumed 3 0x4FF0 else d).putChan g { c with bad := poison, words := c.words ++ [⟨itemHeader i.length, true, poison⟩] }
  | none => d

/-- CHANNEL_ITEM_BOUNDARY: the channel of a group takes its next item, or sends idle items (R231). `poison`: a granule of the item
that begins is unreadable, so that all its slices are marked (R236; Table 10.6, row 3). -/
def execChannelItemBoundary (group : GroupNo) (poison : Bool) (s : State) : Host.Outcome State Fault Refusal :=
  onDev s (fun d =>
    let g := group.val
    if d.boundaryDue g then (d.nextItem (d.channelQueues g) (d.channelBank.channelSize g != 0)).channelBegins g poison else d)

/-- The frame that a transmitter hands to its MAC: the item's bytes; after an unreadable granule from byte k on zero bytes and the complement of the right FCS
(R236). -/
def frameSent (bs : List Nat) (bad : Option Nat) : List Nat :=
  match bad with
  | none => bs
  | some k =>
    let n := bs.length - 4
    let body := bs.take (min k n) ++ List.replicate (n - min k n) 0
    body ++ ((beBytes 4 (2 ^ 32 - 1 - crc32 body)).reverse)

/-- PORT_TX_ITEM_BOUNDARY: a packet port's transmitter ends its frame, counted as transmitted, or with an unreadable granule, from byte `bad` on, ended with a
wrong FCS and counted as dropped (R236); then it takes the next, while the link is up (R231, R233). -/
def execPortTxItemBoundary (port : PortNo) (bad : Option Nat) (s : State) : Host.Outcome State Fault Refusal :=
  onDev s (fun d =>
    let p := port.val
    let qs := d.pkt.queues.filter (fun e => qcDir e.2.cfg == 1 && qcPort e.2.cfg == p)
    let sent := qs.any (·.2.begun)
    let d := if sent then (if bad.isSome then ((d.consumed 5 0x4FF0).bump Reg.pktEgPoison).countPort p 8 else d.countPort p 7) else d
    let d := d.nextItem qs (d.get (Reg.lanePortState p) == 2)
    if sent then
      let bs := frameSent (wordBytes (tblGetD d.pkt.tx p [])) bad
      (({ d with pkt := { d.pkt with tx := tblDel d.pkt.tx p } }).countBytes (0x80 + p) bs.length).send (.clientFrame p bs)
    else d)

/-! ### Flush (R239) and the watermark latch (R240) -/

/-- PKT_Q_FLUSH written: the queue's flush waits for its fence; a Disabled queue is not touched. -/
def applyFlush (v : Nat) (d : Device) : Device :=
  let x := d.queue v
  if x.state = 0 then d else d.putQueue v { x with flushing := true }

/-- PKT_Q_FLUSH. -/
def execPktQFlush (q : Req) (v : Val) (s : State) : Host.Outcome State Fault Refusal :=
  onDev s (fun d => d.serve q 2 1 true Reg.pktQFlush.ref (fun _ d =>
    d.plainWriteR Reg.pktQFlush (.span 0 262143) q v (fun d => d.withhold q Reg.pktQFlush.ref (applyFlush v.raw d, okWrite))))

/-- The open item of a queue's producer meets the fence. -/
def Device.fenceOpen (d : Device) (q : Nat) : Device :=
  let d := { d with pkt := { d.pkt with rx := d.pkt.rx.map (fun e => if e.2.queue = some q then (e.1, { e.2 with fenced := true, written := 0 }) else e) } }
  let c := (d.queue q).cfg
  if qcDir c = 1 then
    match tblGet d.pkt.ext (qcGroup c) with
    | some x => if x.item.isSome then d.putExt (qcGroup c) { x with fenced := true } else d
    | none => d
  else d

/-- FLUSH_FENCE: unstarted committed items and the open item are discarded; a begun item is sent to its end (R239). -/
def execFlushFence (queue : QueueNo) (headTaken : Nat) (s : State) : Host.Outcome State Fault Refusal :=
  onDev s (fun d =>
    let q := queue.val
    if !(d.queue q).flushing then d
    else
      let d := (d.fenceOpen q).reads q headTaken
      let x := d.queue q
      let keep := if x.begun then x.items.take 1 else []
      let x := x.rewind (x.content.length - x.left)
      let gone := if x.begun then x.items.drop 1 else x.items
      let x := { x with items := keep, flushing := false, state := 2, flushedItems := x.flushedItems + gone.length,
                        flushedBytes := x.flushedBytes + sumOf (gone.map (fun i => chargeOf i.length)) }
      ((d.putQueue q x).watermark q).flushDone q)

/-- FLUSH_COMPLETE: the begun item of a Flushing queue ends: Active again, or Disabled (R239). -/
def execFlushComplete (queue : QueueNo) (s : State) : Host.Outcome State Fault Refusal :=
  onDev s (fun d => if (d.queue queue).state = 2 then (d.endItem queue).flushDone queue else d)

/-- PKT_Q_WM_LATCH of the queue shown written: the latch clears and the queue leaves PKT_WM_LIST (R240). -/
def applyWmLatch (d : Device) : Device :=
  let q := d.get Reg.pktQSelect
  let x := d.queue q
  let d := d.putQueue q { x with latch := 0, wmFirst := 0 }
  { d with pkt := { d.pkt with wmList := d.pkt.wmList.filter (· != q) } }

/-- PKT_Q_WM_LATCH. -/
def execPktQWmLatch (q : Req) (v : Val) (s : State) : Host.Outcome State Fault Refusal :=
  onDev s (fun d => d.serve q 2 1 true Reg.pktQWmLatch.ref (fun _ d =>
    d.plainWriteR Reg.pktQWmLatch .any q v (fun d => d.withhold q Reg.pktQWmLatch.ref (applyWmLatch d, okWrite))))

/-! ### Values of the selected queue, port and flow (0x4016, 0x4022, 0x4002) -/

/-- A clearing write of a counter of the selected queue or port (access RWC); none where the object is not one of them. -/
def Device.packetClear (d : Device) (ref : Nat) : Option Device :=
  let q := d.get Reg.pktQSelect
  let x := d.queue q
  if ref / 256 = 0x4016 then
    some { d with pkt := { d.pkt with counts := tblDel d.pkt.counts (16 * d.get Reg.pktPortSelect + (ref % 256 - 1)) } }
  else if ref / 256 = 0x4022 then
    match ref % 256 with
    | 6 => some (applyWmLatch d)
    | 8 => some (d.putQueue q { x with accepted := 0 })
    | 9 => some (d.putQueue q { x with refused := 0 })
    | 10 => some (d.putQueue q { x with policed := 0 })
    | 11 => some (d.putQueue q { x with rewound := 0 })
    | 12 => some (d.putQueue q { x with flushedItems := 0 })
    | 13 => some (d.putQueue q { x with flushedBytes := 0 })
    | 14 => some (d.putQueue q { x with fenceWords := 0 })
    | 16 => some (d.putQueue q { x with peak := queueDepth x })
    | _ => none
  else none

/-- PKT_MTU is refused while any queue is enabled (Table 9.11). -/
def mtuCheck (d : Device) : Option Err := if d.pkt.queues.any (fun e => qcEnable e.2.cfg) then some (err stNotPermitted) else none

end Sys2Proof.Machine
end

