-- ==== Sys2Proof/Machine/BootOps.lean ====
section
/-! DEFINITION. Image slots as the boot code and the control core see them: header fields, the objects that show the slots, the choice of the slot
to boot (chapter 20, R466 to R468). -/

namespace Sys2Proof.Machine

def Device.onPwr (d : Device) (f : Pwr → Pwr) : Device := { d with pwr := f d.pwr }

/-- Fields of an image header (Table 20.1). -/
def imMagic (h : Nat) : Nat := bits h 2047 2016
def imFormat (h : Nat) : Nat := bits h 2015 2000
def imRollback (h : Nat) : Nat := bits h 1999 1984
def imVersion (h : Nat) : Nat := bits h 1983 1952
def imLength (h : Nat) : Nat := bits h 1951 1920
def imMirror (h : Nat) : Nat := bits h 1919 1872

/-- The objects of the slots: PWR_IMG_STATE 3 running, 4 trial; VERSION, MIRROR; the running image's version and slot. -/
def Device.showImages (d : Device) : Device :=
  let d := d.each [0, 1] (fun k x =>
    let s := x.pwr.slots.at k
    let st := if x.pwr.active = k then (if x.pwr.trial then 4 else 3) else s.state
    ((x.set (Reg.pwrImgState k) st).set (Reg.pwrImgVersion k) (if s.state = 0 then 0 else imVersion s.header)).set (Reg.pwrImgMirror k)
      (if s.state = 0 then 0 else imMirror s.header))
  let d := (d.set Reg.pwrImgPrefer d.pwr.prefer).set Reg.pwrImgRollbackMin d.pwr.rollback
  if d.pwr.active < 2 then
    ((d.set Reg.idImageSlot d.pwr.active).set Reg.idImageVersion (imVersion (d.pwr.slots.at d.pwr.active).header)).set Reg.twinMirrorVersion
      (imMirror (d.pwr.slots.at d.pwr.active).header / 2 ^ 32)
  else d

/-- The boot code finds a slot valid: an image is there and its check passes. -/
def Device.slotGood (d : Device) (good : Bool × Bool) (k : Nat) : Bool :=
  (d.pwr.slots.at k).state == 1 && (if k = 0 then good.1 else good.2)

/-- The slot of the boot: the one PWR_IMG_PREFER names, unless it is not valid or has failed 3 times; then the other, if valid; with only a preferred slot
that failed 3 times, that slot; none: neither is valid (R467, R468). The flag says that the other slot was tried. -/
def Device.bootSlot (d : Device) (good : Bool × Bool) : Option Nat × Bool :=
  let p := d.pwr.prefer
  if d.slotGood good p ∧ (d.pwr.slots.at p).fails < 3 then (some p, false)
  else if d.slotGood good (1 - p) then (some (1 - p), true)
  else if d.slotGood good p then (some p, true)
  else (none, true)

/-- The boot code loads an image, or the device enters recovery; a fallback is counted (R467, R468). -/
def Device.bootFrom (d : Device) (good : Bool × Bool) : Device :=
  let b := d.bootSlot good
  let d := if b.2 then d.bump Reg.pwrImgFallbacks else d
  match b.1 with
  | some k => ({ d with phase := .boot }.onPwr (fun p => { p with active := k, trial := false })).showImages
  | none => ({ d with phase := .recovery }.onPwr (fun p => { p with active := 2, trial := false })).showImages

/-- A boot attempt fails: the slot's boot-failure count rises, and the boot code chooses again (R467). -/
def Device.bootFailed (d : Device) (good : Bool × Bool) : Device :=
  let k := d.pwr.active
  let d := d.onPwr (fun p => { p with slots := p.slots.put k { p.slots.at k with fails := (p.slots.at k).fails + 1 } })
  { d with store := { d.store with loading := false, loadSwap := none, loadDoms := [] } }.bootFrom good

end Sys2Proof.Machine
end

