-- ==== Sys2Proof/Machine/Security.lean ====
section
/-! DEFINITION. Line encryption, keys and tamper response (chapter 13). -/

namespace Sys2Proof.Machine

/-! ### Crypt-group tables (R318 to R320) -/

/-- A field of an enabled record out of its range, or a PORT that is no line port of its carrier. -/
def Device.cgBadField (d : Device) (w : Nat) : Bool :=
  decide (1 < cgScope w ∨ 1 < cgMode w ∨ 0x7FF < cgId w) ||
    (cgScope w == 1 && !(decide (0x20 + 16 * cgCarrier w ≤ cgPort w ∧ cgPort w < 0x30 + 16 * cgCarrier w) &&
      bitAt (d.groupMask (cgCarrier w)) (cgPort w % 16)))

/-- Enabled records that protect a direction of a port: more than 6 are refused. -/
def cgCrowded (l : List Nat) (c port : Nat) : Bool :=
  let on (f : Nat → Bool) : Nat := (l.filter (fun w => f w && cgCarrier w == c && (cgScope w == 0 || cgPort w == port))).length
  decide (6 < on cgTx ∨ 6 < on cgRx)

/-- A pair named on both carriers, or on a carrier other than that of a hub leaf naming it. -/
def Device.cgPairSplit (d : Device) (l : List Nat) : Bool :=
  l.any (fun w =>
    l.any (fun v => cgPair v == cgPair w && cgCarrier v != cgCarrier w) ||
      (List.range 128).any (fun n => d.get (Reg.hubLeafKey ((1 - cgCarrier w) * 128 + n)) == cgPair w))

/-- Why a table is refused (R320); a pair that EOP_AUTH_PAIR names is in use (R423). -/
def Device.cgCheck (d : Device) (ws : List Nat) : Option Err :=
  let l := ws.filter cgEnable
  if ws.any d.cgBadField then some (err stInvalidValue)
  else if d.on Reg.frmBondMode && l.any (fun w => cgCarrier w == 1) then some (err stInvalidCombination)
  else if [0, 1].any (fun c => (List.range 16).any (fun g => cgCrowded l c (0x20 + 16 * c + g))) then some (err stInvalidCombination)
  else if l.zipIdx.any (fun a => l.zipIdx.any (fun b =>
      a.2 != b.2 && cgCarrier a.1 == cgCarrier b.1 && (cgScope a.1 == 0 || cgId a.1 == cgId b.1))) then some (err stInvalidCombination)
  else if d.cgPairSplit l then some (err stInvalidCombination)
  else if l.any (fun w => cgRx w && d.on (Reg.hubEnable (cgCarrier w))) then some (err stInvalidCombination)
  else
    match [0, 1].find? (fun k => l.any (fun w => cgPair w == d.get (Reg.eopAuthPair k))) with
    | some k => some (errObj stInUse (Reg.eopAuthPair k).ref)
    | none => none

/-- A crypt-group record as kept: its reserved fields read as 0 (Table 13.1, R6). -/
def cgKept (r : Nat) : Nat := clearBits (clearBits (clearBits r 112 112) 91 88) 47 0

/-- SEC_CG_NEXT written: records of 16 bytes, checked as a whole. -/
def cgNext (bs : List Nat) (d : Device) : Device × Reply :=
  if bs.length % 16 ≠ 0 then (d, .fail (err stInvalidValue))
  else
    match d.cgCheck (recordsOf 16 bs) with
    | some e => (d, .fail e)
    | none => (d.putDomain Reg.secCgNext.ref ((recordsOf 16 bs).flatMap (fun r => beBytes 16 (cgKept r))), .ok [])

/-- SEC_CG_NEXT. -/
def execSecCgNext (q : Req) (crc : BitVec 32) (s : State) : Host.Outcome State Fault Refusal :=
  onDev s (fun d => d.serve q 5 2 true Reg.secCgNext.ref (fun _ d => d.takeBlock q Reg.secCgNext.ref crc.toNat cgNext))

/-- SEC_CG_APPLY creates an action of class 0x0008, kind Calendar. -/
def writeCgApply (q : Req) (v : Val) (d : Device) : Device × Reply :=
  if v.len = 2 ∧ v.raw = 0 then d.refuseAction (err stInvalidValue) else d.actionWrite Reg.secCgApply q v .calendar 8 []

/-- SEC_CG_APPLY. -/
def execSecCgApply (q : Req) (v : Val) (s : State) : Host.Outcome State Fault Refusal :=
  onDev s (fun d => d.serve q 2 2 true Reg.secCgApply.ref (fun _ d => writeCgApply q v d))

/-- The next table comes into force with the generation written, after the firing check (R320). A pair whose groups are in guard stop stays so: only a
roll ends the stop (R329). -/
def applyCgTable (gen : Nat) (d : Device) : Except Err Device :=
  let bs := d.dom Reg.secCgNext.ref
  match d.cgCheck (recordsOf 16 bs) with
  | some e => .error e
  | none =>
    let stopped := (d.cgTable.filter (fun w => d.sec.guardStop.contains (cgNum w))).map cgPair
    let kept := (((recordsOf 16 bs).filter (fun w => cgEnable w && cgTx w && stopped.contains (cgPair w))).map cgNum)
    let d := (d.setDom Reg.secCgActive.ref bs).keepDomain Reg.secCgActive.ref (beBytes 2 gen ++ bs)
    let d := (d.set Reg.secCgGen gen).putValue Reg.secCgApply gen
    .ok (d.onSec (fun s => { s with guardStop := kept })).refreshCg

/-- CRYPT_TABLE_APPLY: the action fires (R318). -/
def execCryptTableApply (handle : BitVec 32) (poison : Bool) (s : State) : Host.Outcome State Fault Refusal :=
  onDev s (fun d =>
    match d.action? handle.toNat with
    | some a => d.fireOn handle.toNat 8 Reg.secCgApply.ref a.value poison (fun a x => applyCgTable a.value x)
    | none => d)

/-! ### Received segments (R325, Table 13.3) -/

/-- The half whose epoch an entry names: 0 current, 1 next. -/
def halfOf (x : KeyPair) (epoch : Nat) : Option Nat :=
  if x.cur.state = 2 ∧ x.cur.epoch = epoch then some 0
  else if (x.next.state = 1 ∨ x.next.state = 3) ∧ x.next.epoch = epoch then some 1
  else none

/-- The halves of a pair under an epoch: the key, and which half holds it. -/
def halfKey (x : KeyPair) (epoch : Nat) : Option (Nat × Nat) :=
  (halfOf x epoch).map (fun k => (if k = 0 then x.cur.key else x.next.key, k))

/-- The crypt group of a received unit: that of its line slot, a whole-carrier record's for units without one (R319). -/
def Device.unitGroup (d : Device) (c g : Nat) (u : RxUnit) : Nat :=
  match u.slot with
  | some n => d.cgOfSlot c g n false
  | none => (d.wholeCarrier c false).getD 128

/-- What becomes of a crypt group's units of a segment (R325): the device, and a slice block for each. -/
structure SegResult where
  dev : Device
  cg : Nat
  blocks : List SliceBlock

/-- A failed tag: zeros with the poison mark, counted in SEC_AUTH_FAILS. -/
def Device.segFails (d : Device) (cg : Nat) (us : List RxUnit) : SegResult := ⟨d.bump Reg.secAuthFails, cg, us.map (fun _ => ⟨0, true⟩)⟩

/-- Entry i of a segment, for the crypt group of record w, over its units `us`. `before`: the last SEG that passed for this port and UNIT, plus 1. A half that
the engine reads poisoned is treated as erased (R328). The IV's END is the far end's (R324). -/
def Device.segEntry (d : Device) (c g before i w : Nat) (us : List RxUnit) (msg : Option Nat) (poison : Bool) : SegResult :=
  let cg := cgNum w
  match msg with
  | none => d.segFails cg us
  | some m =>
    let epoch := bits m (431 - 8 * i) (424 - 8 * i)
    let seg := bits m 503 440
    let iv := ivOf c g (cgId w) (1 - d.get (Reg.secEnd c)) (bits m 439 439) epoch seg
    if bits m 437 435 ≤ i ∨ (d.rxg c g).faults.contains cg = true then d.segFails cg us
    else if epoch = 0 then ⟨d.bump Reg.secNoKeySegs, cg, us.map (fun _ => ⟨0, false⟩)⟩
    else if seg < before then (d.bump Reg.secReplays).segFails cg us
    else
      match halfKey (d.pair (cgPair w)) epoch with
      | none => d.segFails cg us
      | some h =>
        let d := if h.2 = 1 then d.onSec (fun s => { s with matched := tblPut s.matched (cgPair w) d.now }) else d
        if poison then
          let p := d.pair (cgPair w)
          (((d.consumed 14 0x6FF0).putPair (cgPair w) (if h.2 = 0 then { p with cur := halfEmpty } else { p with next := halfEmpty })).refreshCg).segFails cg us
        else
          let ws := us.map (fun (u : RxUnit) => u.data)
          let n := 128 * ws.length
          let tag := (if cgMode w = 1 then gcmTag h.1 iv ws n [] 0 else gcmTag h.1 iv [] 0 ws n) / 2 ^ 64
          if tag = bits m (383 - 64 * i) (320 - 64 * i) then
            let d := d.onSec (fun s => { s with lastSeg := tblPut s.lastSeg (2 * (16 * c + g) + bits m 439 439) (seg + 1) })
            ⟨d, cg, us.zipIdx.map (fun e => ⟨if cgMode w = 1 then e.1.data else e.1.data ^^^ gcmStream h.1 iv e.2, e.1.poison⟩)⟩
          else d.segFails cg us

/-- Every entry of a segment in turn. -/
def Device.segEntries (d : Device) (c g before : Nat) (us : List RxUnit) (msg : Option Nat) (poison : List Bool) : Nat → List Nat → Device × List (Nat × List SliceBlock)
  | _, [] => (d, [])
  | i, w :: r =>
    let x := d.segEntry c g before i w (us.filter (fun u => d.unitGroup c g u == cgNum w)) msg ((poison[i]?).getD false)
    let y := x.dev.segEntries c g before us msg poison (i + 1) r
    (y.1, (x.cg, x.blocks) :: y.2)

/-- A segment's units in order, each with what its crypt group's result gives it: in the clear where none covers it, fill beyond the engines' capacity (R321). -/
def Device.deliverSegment (d : Device) (c g : Nat) : List RxUnit → List (Nat × List SliceBlock) → Device
  | [], _ => d
  | u :: r, t =>
    let cg := d.unitGroup c g u
    let own : SliceBlock := ⟨u.data, u.poison⟩
    let b := match tblGet t cg with
      | some l => l.headD own
      | none => own
    let far := match u.slot with
      | some n => d.beyondEngines c g n false
      | none => false
    (d.deliverUnit c g u (if far then ⟨0, false⟩ else b)).deliverSegment c g r (t.map (fun e => if e.1 = cg then (e.1, e.2.drop 1) else e))

/-- SEC_SEG: the message of the earliest segment held for group g comes, or none valid came for it; `poison`: the entries whose half the engine reads poisoned.
The segment's units are checked, decrypted and delivered (R325). The last SEG that passed is held per port and UNIT as SEG + 1. -/
def execSecSeg (c : CarrierNo) (g : ScNo) (msg : Option (BitVec 512)) (poison : List Bool) (s : State) : Host.Outcome State Fault Refusal :=
  onDev s (fun d =>
    let x := d.rxg c g
    match x.held with
    | [] => d
    | u :: _ =>
      let m := (msg.map (·.toNat)).filter (fun m => bits m 511 504 == 0x30)
      let unit := (m.map (fun m => bits m 439 439)).getD 0
      let before := tblGetD d.sec.lastSeg (2 * (16 * c.val + g.val) + unit) 0
      let us := x.held.takeWhile (fun v => v.seg == u.seg)
      let d := d.putRxg c g { x with held := x.held.drop us.length }
      let r := d.segEntries c g before us m poison 0 (d.rxGroups c g)
      let d := r.1.deliverSegment c g us r.2
      d.putRxg c g { d.rxg c g with faults := [] })

/-! ### Keys (R326 to R328) -/

/-- An action of a roll or an erase of a pair, pending or armed. -/
def Device.pairAction (d : Device) (p : Nat) : Option Action := d.sched.actions.find? (fun a => a.cls == 3 && a.value == p)

/-- SEC_KEY_WRITE: epoch and key to the next half of a pair. -/
def writeKey (p v : Nat) (d : Device) : Device × Reply :=
  let x := d.pair p
  let epoch := v / 2 ^ 256
  if epoch = 0 ∨ epoch = x.cur.epoch then (d, .fail (err stInvalidValue))
  else
    match d.pairAction p with
    | some a => (d, .fail (errAct stInUse a.handle))
    | none => ((d.putPair p { x with next := ⟨1, epoch, v % 2 ^ 256⟩ }).journal Reg.secKeyWrite.ref v, okWrite)

/-- SEC_KEY_WRITE. -/
def execSecKeyWrite (q : Req) (v : Val) (s : State) : Host.Outcome State Fault Refusal :=
  onDev s (fun d => d.serve q 2 2 true Reg.secKeyWrite.ref (fun _ d =>
    d.plainWrite Reg.secKeyWrite q v (fun d => d.withhold q Reg.secKeyWrite.ref (writeKey (d.get Reg.secKeySelect) v.raw d))))

/-- SEC_ROLL creates an action of class 0x0003 on the line frame of the pair's carrier. -/
def writeRoll (q : Req) (v : Val) (d : Device) : Device × Reply :=
  d.actionWrite Reg.secRoll q v (d.lineKind (d.pairCarrier (v.raw % 256))) 3 []

/-- SEC_ROLL. -/
def execSecRoll (q : Req) (v : Val) (s : State) : Host.Outcome State Fault Refusal :=
  onDev s (fun d => d.serve q 2 2 true Reg.secRoll.ref (fun _ d => writeRoll q v d))

/-- Frames that begin at this very tick run under the keys in force now (R131, R327). -/
def Device.keysNow (d : Device) : Device :=
  d.each [0, 1] (fun c x => x.each (x.groups c) (fun g y =>
    match (y.txg c g).sending with
    | some f => if f.tick = y.now then y.putTxg c g { y.txg c g with sending := some { f with keys := y.frameKeys c g } } else y
    | none => y))

/-- A roll at its boundary: the Loaded half becomes Current, the old one Retired; an Empty one stays Empty. A guard stop of its groups ends
(R327, R329). -/
def rollPair (p : Nat) (d : Device) : Except Err Device :=
  let x := d.pair p
  if x.next.state ≠ 1 then .error (err stNotPermitted)
  else
    let old := if x.cur.state = 0 then halfEmpty else { x.cur with state := 3 }
    let d := d.putPair p { x with cur := { x.next with state := 2 }, next := old, uses := 0 }
    let mine := (d.cgTable.filter (fun w => cgPair w == p)).map cgNum
    let d := d.onSec (fun s => { s with guardStop := s.guardStop.filter (fun n => !mine.contains n), matched := tblPut s.matched p d.now })
    .ok (d.set Reg.secRoll p).refreshCg.keysNow

/-- KEY_ROLL: a roll fires. -/
def execKeyRoll (handle : BitVec 32) (poison : Bool) (s : State) : Host.Outcome State Fault Refusal :=
  onDev s (fun d =>
    match d.action? handle.toNat with
    | some a => d.fireOn handle.toNat 3 Reg.secRoll.ref a.value poison (fun a x => rollPair a.value x)
    | none => d)

/-- SEC_ERASE creates an action of class 0x0003 with an all-zero bake time. -/
def writeErase (q : Req) (v : Val) (d : Device) : Device × Reply :=
  if q.bake ≠ 0 then d.refuseAction (err stInvalidCombination)
  else d.actionWrite Reg.secErase q v (d.lineKind (d.pairCarrier (v.raw % 256))) 3 []

/-- SEC_ERASE. -/
def execSecErase (q : Req) (v : Val) (s : State) : Host.Outcome State Fault Refusal :=
  onDev s (fun d => d.serve q 2 2 true Reg.secErase.ref (fun _ d => writeErase q v d))

/-- An erase at its boundary: both halves zeroed and Empty, the wrapped copy erased (R328). -/
def erasePair (p : Nat) (d : Device) : Device :=
  (d.putPair p { pairNew with shared := (d.pair p).shared }).refreshCg

/-- KEY_ERASE: an erase fires. -/
def execKeyErase (handle : BitVec 32) (poison : Bool) (s : State) : Host.Outcome State Fault Refusal :=
  onDev s (fun d =>
    match d.action? handle.toNat with
    | some a => d.fireOn handle.toNat 3 Reg.secErase.ref a.value poison (fun a x => .ok (erasePair a.value x))
    | none => d)

/-- RETIRE_HOLD_EXPIRY: a Retired half that nothing matched for SEC_RETIRE_HOLD becomes Empty (R327). -/
def execRetireHoldExpiry (pair : BitVec 8) (s : State) : Host.Outcome State Fault Refusal :=
  onDev s (fun d =>
    if d.dead then d
    else
      let d := d.takeSeq
      let x := d.pair pair.toNat
      if x.next.state = 3 ∧ tblGetD d.sec.matched pair.toNat 0 + d.get Reg.secRetireHold * fuSec ≤ d.now then d.putPair pair.toNat { x with next := halfEmpty } else d.stale)

/-! ### Guard and reservations (R329, R330) -/

/-- GUARD_THRESHOLD: CUR_USES has reached the margin or the guard: a notice "roll due" with a Loaded next half before the guard, else guard
stop of every crypt group that transmits under the pair. -/
def execGuardThreshold (pair : BitVec 8) (s : State) : Host.Outcome State Fault Refusal :=
  onDev s (fun d =>
    let x := d.pair pair.toNat
    let groups := (d.cgTable.filter (fun w => cgTx w && cgPair w == pair.toNat)).map cgNum
    if d.dead ∨ x.uses < d.get Reg.secGuard - d.get Reg.secGuardMargin ∨ groups.isEmpty = true then d
    else
      let d := d.takeSeq
      if x.uses < d.get Reg.secGuard ∧ x.next.state = 1 then d.notice Reg.secPairStatus [pair.toNat]
      else
        (d.stopGroups groups).refreshCg)

/-- SEG_RESERVATION: SEG is at RES − 2^27: RES + 2^28 is written to MRAM (R330). -/
def execSegReservation (c : CarrierNo) (g : ScNo) (s : State) : Host.Outcome State Fault Refusal :=
  onDev s (fun d =>
    let k := 16 * c.val + g.val
    let res := tblGetD d.sec.res k 0
    if d.dead ∨ tblGetD d.sec.segs k 0 + 2 ^ 27 < res then d
    else d.onSec (fun s => { s with res := tblPut s.res k (res + 2 ^ 28) }))

/-! ### Dual computation, sensors, alarm (R333 to R336) -/

/-- DUAL_MISMATCH: an engine's two computations differ for a crypt group of a port: its invocation is sent as fill under epoch 0, or on receive is a failed tag;
SEC_FAULT_LIMIT of them within 1 s raise sensor [6] (R333). -/
def execDualMismatch (c : CarrierNo) (g : ScNo) (cg : Fin 128) (transmit : Bool) (s : State) : Host.Outcome State Fault Refusal :=
  onDev s (fun d =>
    if d.dead then d
    else
      let d := d.takeSeq.bump Reg.secDualMismatch
      let d := if transmit then d.putTxg c g { d.txg c g with faults := (d.txg c g).faults ++ [cg.val] }
        else d.putRxg c g { d.rxg c g with faults := (d.rxg c g).faults ++ [cg.val] }
      let l := d.sec.mismatches.filter (fun t => decide (d.now < t + fuSec)) ++ [d.now]
      let d := d.onSec (fun s => { s with mismatches := l })
      if d.get Reg.secFaultLimit ≤ l.length ∧ !bitAt (d.get Reg.secSensors) 6 then d.tamper 6 else d)

/-- TAMPER_DETECTION: a sensor detects (R334). -/
def execTamperDetection (sensor : Fin 8) (s : State) : Host.Outcome State Fault Refusal :=
  onDev s (fun d => if d.dead then d else d.takeSeq.tamper sensor)

/-- TAMPER_SENSOR_CLEAR: a sensor stops detecting. -/
def execTamperSensorClear (sensor : Fin 8) (s : State) : Host.Outcome State Fault Refusal :=
  onDev s (fun d => if d.dead then d else d.takeSeq.setBit Reg.secSensors sensor false)

/-- WRAPPED_ERASE_COMPLETE: no wrapped key from before the erase is left, and the erase-pending record goes (R335). -/
def execWrappedEraseComplete (s : State) : Host.Outcome State Fault Refusal :=
  onDev s (fun d =>
    if d.sec.erasePending then d.onSec (fun s => { s with wrapped := s.pairs, erasePending := false }) else d)

/-- SEC_ALARM_CLEAR written v: refused while a sensor of class 1 or 2 detects; clears the alarm and ends squelch cause [2] (R336). -/
def alarmClear (v : Nat) (d : Device) : Device × Reply :=
  if v ≠ 1 then (d, okWrite)
  else if (List.range 8).any (fun k => bitAt (d.get Reg.secSensors) k && d.sensorClass k != 0) then (d, .fail (err stNotPermitted))
  else (((d.set Reg.secAlarm 0).alarmSquelch false).refreshCg, okWrite)

/-- SEC_ALARM_CLEAR. -/
def execSecAlarmClear (q : Req) (v : Val) (s : State) : Host.Outcome State Fault Refusal :=
  onDev s (fun d => d.serve q 2 2 true Reg.secAlarmClear.ref (fun _ d => d.plainWrite Reg.secAlarmClear q v (alarmClear v.raw)))

/-- SEC_SENSOR_CLASS: code 3 is no class; under SEC_CLASS_LOCK no class is lowered. -/
def sensorClassCheck (v : Nat) (d : Device) : Option Err :=
  if (List.range 8).any (fun k => v / 4 ^ k % 4 == 3) then some (err stInvalidValue)
  else if d.on Reg.secClassLock && (List.range 8).any (fun k => decide (v / 4 ^ k % 4 < d.sensorClass k)) then some (err stNotPermitted)
  else none

/-- SEC_SENSOR_CLASS (vendor). -/
def execSecSensorClass (q : Req) (v : Val) (s : State) : Host.Outcome State Fault Refusal :=
  onDev s (fun d => d.serve q 2 3 true Reg.secSensorClass.ref (fun _ d =>
    d.plainWriteR Reg.secSensorClass .any q v (fun d =>
      match sensorClassCheck v.raw d with
      | some e => (d, .fail e)
      | none => d.withhold q Reg.secSensorClass.ref (d.putValue Reg.secSensorClass v.raw, okWrite))))

/-- SEC_CLASS_LOCK (vendor): 1 is the only value it takes. -/
def execSecClassLock (q : Req) (v : Val) (s : State) : Host.Outcome State Fault Refusal :=
  onDev s (fun d => d.serve q 2 3 true Reg.secClassLock.ref (fun _ d =>
    d.plainWriteR Reg.secClassLock (.among [1]) q v (fun d =>
      d.withhold q Reg.secClassLock.ref (d.putValue Reg.secClassLock v.raw, okWrite))))

end Sys2Proof.Machine
end

