-- ==== Sys2Proof/Machine/Twin.lean ====
section
/-! DEFINITION. The voted control core, the claim, the mate link and the mirror's epochs (chapter 14); what applies mirrored records to objects stands in
Mirror.lean. -/

namespace Sys2Proof.Machine

def Device.onTwin (d : Device) (f : Twin → Twin) : Device := { d with twin := f d.twin }

/-! ### The voted control core (R339 to R342) -/

/-- Ends every session and its subscriptions, and the subscriptions without a session (R420, R422). -/
def Device.endSessions (d : Device) : Device :=
  ({ d with eop := { d.eop with sessions := [], subs := [], lost := [] } } : Device).keepTransfers (fun t => t.session == 0)

/-- A control restart begins: sessions end, transfers and writes in progress are not applied (R342). Before the dictionary is ready it fails the boot
attempt (R467). -/
def Device.controlRestart (d : Device) : Device :=
  let d := d.endSessions.keepTransfers (fun _ => false)
  let d := ({ d with deferred := [], eop := { d.eop with forwards := [], reassembly := [] } }).bump Reg.twinCtrlRestarts
  if d.phase = .loading then d.bootFailed (true, true) else { d with phase := .restarting }

/-- Dissents of a core within the last second. -/
def Device.recentDissents (d : Device) (core : Nat) : Nat :=
  (d.twin.dissents.filter (fun e => e.1 == core && decide (d.now ≤ e.2 + fuSec))).length

/-- A core leaves service: TWIN_CORE_LIMIT dissents within 1 s, or a dissent within 16 calendar cycles after its resynchronisation (R341). -/
def Device.removesCore (d : Device) (core : Nat) : Bool :=
  decide (d.get Reg.twinCoreLimit ≤ d.recentDissents core) ||
    (match tblGet d.twin.resyncAt core with
     | some t => decide (d.now ≤ t + 16 * fuCycle)
     | none => false)

/-- The control cores run: in recovery, during the load and in service. -/
def Device.coresRun (d : Device) : Bool := d.serves || d.phase == .loading

/-- CORE_DISSENT: the voted result proceeds; the core waits for its resynchronisation or is removed. In duplex a mismatch, and three different copies
of one output, make a control restart (R340 to R342). -/
def execCoreDissent (core : Fin 3) (allDiffer : Bool) (s : State) : Host.Outcome State Fault Refusal :=
  onDev s (fun d =>
    if !d.coresRun ∨ !bitAt (d.get Reg.twinCoreState) core then d
    else
      let d := d.takeSeq
      if allDiffer ∨ d.get Reg.twinCoreState ≠ 7 then d.controlRestart
      else
        let d := d.onTwin (fun t => { t with dissents := (t.dissents.filter (fun e => decide (d.now ≤ e.2 + fuSec))) ++ [(core.val, d.now)] })
        if d.removesCore core then (d.setBit Reg.twinCoreState core false).onTwin (fun t => { t with dissenting := t.dissenting.filter (· != core.val) })
        else d.onTwin (fun t => { t with dissenting := t.dissenting.filter (· != core.val) ++ [core.val] }))

/-- A resynchronised core is counted (R340). -/
def Device.resynced (d : Device) (core : Nat) : Device :=
  ((d.bump Reg.twinResyncs).bump (Reg.twinCoreDissents core)).onTwin (fun t => { t with resyncAt := tblPut t.resyncAt core d.now })

/-- CORE_RESYNC: at a calendar boundary the cores stall for `gap` core clocks of 1.2 GHz and the dissenting ones are brought into step (R340). -/
def execCoreResync (gap : Fin 4097) (s : State) : Host.Outcome State Fault Refusal :=
  onDev s (fun d =>
    if !d.coresRun ∨ d.twin.dissenting = [] ∨ d.now % fuCycle ≠ 0 then d
    else
      let d := (d.takeSeq.each d.twin.dissenting (fun c x => x.resynced c)).onTwin (fun t => { t with dissenting := [] })
      (d.onTwin (fun t => { t with gapEnd := d.now + gap * fuNs * 5 / 6 })).set Reg.twinGapMax (max (d.get Reg.twinGapMax) gap))

/-- TWIN_CORE_RETRY written v: removed cores are resynchronised and return to service (R341). -/
def applyCoreRetry (v : Nat) (d : Device) : Device :=
  if v = 1 then
    (d.each ((List.range 3).filter (fun c => !bitAt (d.get Reg.twinCoreState) c)) (fun c x => x.resynced c)).set Reg.twinCoreState 7
  else d

/-- TWIN_CORE_RETRY. -/
def execTwinCoreRetry (q : Req) (v : Val) (s : State) : Host.Outcome State Fault Refusal :=
  onDev s (fun d => d.serve q 2 2 true Reg.twinCoreRetry.ref (fun _ d =>
    d.plainWrite Reg.twinCoreRetry q v (fun d => (applyCoreRetry v.raw d, okWrite))))

/-! ### Health (R347, Table 14.2) -/

/-- An enabled client port, or a packet port, has its link down. -/
def Device.healthLink (d : Device) : Bool :=
  (List.range 32).any (fun p => (d.get (Reg.lanePortEnable p) != 0 || d.get (Reg.pktPortMode p) == 1) && d.get (Reg.lanePortState p) != 2)

/-- No candidate of class T or P but the mate candidate is Qualified or Selected, and no holdover in specification. -/
def Device.healthTime (d : Device) : Bool :=
  !(List.range 16).any (fun n => d.candLive n && (d.candClass n == 1 || d.candClass n == 2) && d.get (Reg.timeCandSource n) != 0x40) &&
    !(d.get Reg.schedTimeState == 3 && d.on Reg.timeHoInspec)

/-- Carriers whose receiver is enabled. -/
def Device.rxCarriers (d : Device) : List Nat := [0, 1].filter (fun c => d.on (Reg.lineRxEnable c))

/-- LOS on a carrier, or LOF on a group of it (Table 6.7, bits [0] and [2]). -/
def Device.carrierLos (d : Device) (c : Nat) : Bool :=
  (List.range 16).any (fun g => bitAt (d.groupMask c) g && bitAt (d.get (Reg.frmDefects c g)) 0)
def Device.carrierLof (d : Device) (c : Nat) : Bool :=
  (List.range 16).any (fun g => bitAt (d.groupMask c) g && bitAt (d.get (Reg.frmDefects c g)) 2)

/-- Classes whose conditions hold now. -/
def Device.healthClasses (d : Device) : List (Nat × Bool) :=
  let rx := d.rxCarriers
  [(2, d.healthLink), (4, d.healthTime), (6, rx.any (fun c => d.carrierLos c || d.carrierLof c)),
   (8, d.get Reg.twinCoreState != 7 || (List.range 4).any (fun k => d.get (Reg.memStackState k) == 3)),
   (9, (d.get Reg.twinRole == 1 && d.get Reg.twinMirrorState != 2) || decide (1000 * d.get Reg.twinAlignWin < (d.getI Reg.twinTimeDiff).natAbs)),
   (10, !rx.isEmpty && (rx.all d.carrierLos || rx.all (fun c => d.get (Reg.lineRxState c) != 3))),
   (12, d.phase != .running || !d.on Reg.idDictReady), (14, d.get Reg.secAlarm != 0)]

/-- The highest class whose condition holds, or TWIN_HOST_CLASS if higher; 15 in Conflict. -/
def Device.healthNow (d : Device) : Nat :=
  if d.get Reg.twinState = 4 then 15
  else (d.healthClasses.filter (·.2)).foldl (fun m e => max m e.1) (d.get Reg.twinHostClass)

/-- TWIN_HOST_CLASS: taken up by the next claim frame. -/
def execTwinHostClass (q : Req) (v : Val) (s : State) : Host.Outcome State Fault Refusal :=
  onDev s (fun d => d.serve q 2 2 true Reg.twinHostClass.ref (fun _ d => d.plainWriteR Reg.twinHostClass (.span 0 14) q v (fun d =>
    (d.putValue Reg.twinHostClass v.raw, okWrite))))

/-- HEALTH_HOLD_EXPIRY: a lower class has held for TWIN_HEALTH_HOLD; stale if it rose meanwhile. -/
def execHealthHoldExpiry (s : State) : Host.Outcome State Fault Refusal :=
  onDev s (fun d =>
    if d.dead ∨ !d.twin.enabled then d
    else if d.twin.lowerSince.any (fun t => decide (t + d.get Reg.twinHealthHold * fuMs ≤ d.now)) ∧ d.healthNow < d.get Reg.twinHealth then
      (d.takeSeq.set Reg.twinHealth d.healthNow).onTwin (fun t => { t with lowerSince := none })
    else d.takeSeq.stale)

/-! ### The claim frame (R344, R346, R348) -/

/-- The claim of Table 14.1: released (0xFFFF) in Conflict, and by unit 1 with both links lost (R351). -/
def Device.claim (d : Device) : Nat :=
  if d.get Reg.twinState = 4 ∨ (d.get Reg.twinUnit = 1 ∧ d.twin.lostAt.isSome) then 0xFFFF
  else d.get Reg.twinHealth * 4096 + d.get Reg.twinRole * 2048 + (1023 - d.get Reg.twinEpoch % 1024) * 2 + d.get Reg.twinUnit

/-- The class a frame takes up: a rise at once; a fall waits. The first claim after reset takes the class as it is. -/
def Device.takeHealth (d : Device) : Device :=
  let h := d.healthNow
  if !d.twin.claimed ∨ d.get Reg.twinHealth ≤ h then (d.set Reg.twinHealth h).onTwin (fun t => { t with claimed := true, lowerSince := none })
  else if d.twin.lowerSince.isSome then d
  else d.onTwin (fun t => { t with lowerSince := some d.now })

/-- A frame began within the previous 50 µs. -/
def Device.inFrame (d : Device) : Bool :=
  match d.twin.frameAt with
  | some t => decide (d.now ≤ t + 50 * fuUs)
  | none => false

/-- The unit takes part in a frame whose S is now. -/
def Device.startFrame (d : Device) : Device :=
  let d := d.takeHealth.onTwin (fun t => { t with frameAt := some d.now, frameOpen := true })
  (d.set Reg.twinClaimSent d.claim).send (.claim d.claim)

/-- The unit may drive the claim bus. -/
def Device.onBus (d : Device) : Bool := d.twin.enabled && !d.twin.listening && d.phase != .reset

/-- CLAIM_FRAME_START: at a multiple of 100 µs of device time, unless a frame began within 50 µs. -/
def execClaimFrameStart (s : State) : Host.Outcome State Fault Refusal :=
  onDev s (fun d => if !d.onBus ∨ d.now % (100 * fuUs) ≠ 0 ∨ d.inFrame then d else d.startFrame)

/-- CLAIM_SYNC_JOIN: a foreign falling edge of CLAIM_SYNC is S. -/
def execClaimSyncJoin (s : State) : Host.Outcome State Fault Refusal :=
  onDev s (fun d => if !d.onBus ∨ d.inFrame then d else d.startFrame)

/-! ### The mirror in the active unit (R355, R357, R359) -/

/-- An action that waited for an ACK becomes eligible now; a policy-0 action that is late then fails (R25, R357). -/
def Device.releaseAction (d : Device) (a : Action) : Device :=
  let a := { a with epoch := 0, notBefore := max a.notBefore d.now }
  if d.isLate a && !a.late1 then d.failAction a (err stBakePast)
  else (d.putAction a).send (.bound a.handle (d.eligible a))

/-- Withheld responses and handles of the epochs up to n are given. -/
def Device.release (d : Device) (upTo : Nat → Bool) : Device :=
  let l := d.eop.withheld.filter (fun w => upTo w.epoch)
  let d := { d with eop := { d.eop with withheld := d.eop.withheld.filter (fun w => !upTo w.epoch) } }
  let d := d.each l (fun w x => (x.keepResp w.resp).emit w.resp)
  d.each (d.sched.actions.filter (fun a => a.epoch != 0 && upTo a.epoch)) (fun a x => x.releaseAction a)

/-- A part of an epoch the standby holds is discarded; its action records are remembered (R359, R360). -/
def Device.discardPart (d : Device) : Device :=
  match d.twin.part with
  | none => d
  | some (_, rs) => d.onTwin (fun t => { t with
      part := none, droppedParts := t.droppedParts + 1
      droppedActs := t.droppedActs ++ (rs.filter (fun r => r.kind == 2)).map (fun r => (r.handle, if r.data.head? = some 9 then 0 else r.ref)) })

/-- The mirror becomes Stale (R359): an epoch held in part is discarded, and every one of an incomplete baseline. -/
def Device.becomeStale (d : Device) : Device :=
  let d := if d.get Reg.twinMirrorState = 1 then d.onTwin (fun t => { t with ready := [] }) else d
  let d := (d.set Reg.twinMirrorState 3).discardPart
  let d := d.onTwin (fun t => { t with journal := [], closed := [], baseAt := none })
  if d.get Reg.twinRole = 0 then d.release (fun _ => true) else d

/-- The mirror leaves service for a state that is neither Baseline nor Current: what it withheld is given (R359). -/
def Device.leaveMirror (d : Device) (st : Nat) : Device :=
  (if d.get Reg.twinMirrorState = 1 ∨ d.get Reg.twinMirrorState = 2 then d.becomeStale else d).set Reg.twinMirrorState st

/-- The unit enters Conflict: it is no longer paired, and the mirror is off (R344, R358). -/
def Device.enterConflict (d : Device) : Device := ((d.leaveMirror 0).set Reg.twinState 4).notice Reg.twinState [4]

/-- CLAIM_LISTEN_END: the listening time ends; presence seen in the unit's own slot is a Conflict (R344). -/
def execClaimListenEnd (presence : Bool) (s : State) : Host.Outcome State Fault Refusal :=
  onDev s (fun d =>
    if d.dead ∨ !d.twin.enabled ∨ !d.twin.listening then d
    else
      let d := d.onTwin (fun t => { t with listening := false })
      if presence then d.takeSeq.enterConflict else d)

/-- EPOCH_CLOSE: the open epoch closes and goes to the standby. `poison` of its sendings were refused because the mirror engine read poison (R355,
R359; Table 10.6, row 12): each failure counts, the second makes the mirror Stale. A baseline's snapshot is fixed at the first close (R358). -/
def execEpochClose (poison : Fin 3) (s : State) : Host.Outcome State Fault Refusal :=
  onDev s (fun d =>
    if d.dead ∨ !d.journals ∨ !(d.get Reg.twinMirrorState == 1 || d.get Reg.twinMirrorState == 2) then d
    else
      let d := d.each (List.range poison) (fun _ x => (x.consumed 12 0x7FF0).bump Reg.twinEpochsFailed)
      if poison.val = 2 then d.takeSeq.becomeStale
      else
        let n := d.twin.openEpoch
        let e : Epoch := ⟨n, d.twin.journal, d.now⟩
        let d := d.send (.epoch n e.records)
        let d := if d.get Reg.twinMirrorState = 1 ∧ d.twin.baseAt = none then
            ({ d with free := d.free + 1 }.set Reg.twinBaselineLeft (Config.unstated d.free)).onTwin (fun t => { t with baseAt := some n })
          else d
        d.onTwin (fun t => { t with journal := [], openEpoch := n + 1, closed := t.closed ++ [e] }))

/-- EPOCH_ACK: the epochs up to num are committed in the standby (R357, R358). -/
def execEpochAck (num : Nat) (s : State) : Host.Outcome State Fault Refusal :=
  onDev s (fun d =>
    if d.dead ∨ !d.journals then d
    else
      match d.twin.closed.find? (fun e => e.num == num) with
      | none => d
      | some e =>
        let d := (d.takeSeq.set Reg.twinEpoch num).set Reg.twinCommitLatency ((d.now - e.closedAt) / fuUs)
        let d := d.onTwin (fun t => { t with closed := t.closed.filter (fun x => decide (num < x.num)) })
        let d := match d.twin.baseAt with
          | some b => if b ≤ num then ((d.set Reg.twinMirrorState 2).set Reg.twinBaselineLeft 0).onTwin (fun t => { t with baseAt := none }) else d
          | none => d
        d.release (fun n => decide (n ≤ num)))

/-- EPOCH_ACK_TIMEOUT: an epoch closed TWIN_ACK_LIMIT ago has no ACK (R359); stale if it came. -/
def execEpochAckTimeout (s : State) : Host.Outcome State Fault Refusal :=
  onDev s (fun d =>
    if d.dead ∨ !d.journals then d
    else if d.twin.closed.any (fun e => decide (e.closedAt + d.get Reg.twinAckLimit * fuMs ≤ d.now)) then d.takeSeq.becomeStale
    else d.takeSeq.stale)

/-! ### The mirror in the standby (R356, R359) -/

/-- EPOCH_RECEIVED: a complete epoch waits for the calendar boundary; one whose CRC is wrong or whose bytes are incomplete counts as failed, and twice
failed makes the mirror Stale. -/
def execEpochReceived (num : Nat) (records : List MirrorRec) (good : Bool) (s : State) : Host.Outcome State Fault Refusal :=
  onDev s (fun d =>
    if d.dead ∨ !d.standby ∨ !(d.get Reg.twinMirrorState == 1 || d.get Reg.twinMirrorState == 2) then d
    else
      let d := d.takeSeq
      if good then
        d.onTwin (fun t => { t with
          part := none, failedNum := none, ready := t.ready.filter (fun e => e.num != num) ++ [⟨num, records, d.now⟩] })
      else
        let d := d.bump Reg.twinEpochsFailed
        if d.twin.failedNum = some num then d.becomeStale.onTwin (fun t => { t with failedNum := none })
        else d.onTwin (fun t => { t with failedNum := some num }))

/-! ### Roles (R345, R349, R352, R360, R361) -/

/-- The notices of R360 for the action records of discarded parts, and their count. -/
def Device.dropParts (d : Device) : Device :=
  let d := d.discardPart
  let d := d.each d.twin.droppedActs (fun e x => x.noticeEither e.2 [e.1, 0, 4])
  (d.count Reg.twinEpochsDropped d.twin.droppedParts).onTwin (fun t => { t with droppedActs := [], droppedParts := 0 })

/-- The unit takes the active role: shared outputs from 2 µs after now, a baseline to the new standby, mirrored actions that waited for their boundary
become eligible. -/
def Device.takeActive (d : Device) : Device :=
  let d := (d.set Reg.twinRole 0).dropParts
  let seen := d.twin.ready.foldl (fun n (e : Epoch) => max n e.num) (d.get Reg.twinEpoch)
  let d := d.onTwin (fun t => { t with
    driveAt := some (d.now + 2 * fuUs), openEpoch := max t.openEpoch (seen + 1), journal := [], closed := [], baseAt := none })
  let d := { d with sched := { d.sched with actions := d.sched.actions.map (fun a =>
    if a.mirrorOf ≠ 0 ∧ a.epoch ≠ 0 then { a with epoch := 0, notBefore := max a.notBefore d.now } else a) } }
  if d.get Reg.twinState = 3 ∧ d.get Reg.twinMirrorState ≠ 4 then d.set Reg.twinMirrorState 1 else d

/-- The unit loses it: no new edge or message, responses of uncommitted epochs are never sent (R360). -/
def Device.takeStandby (d : Device) : Device :=
  let d := (d.set Reg.twinRole 1).onTwin (fun t => { t with
    drives := false, driveAt := none, journal := [], closed := [], baseAt := none, ready := [], part := none })
  let d := { d with eop := { d.eop with withheld := [] } }.onTim (fun t => { t with ppsAt := none })
  if d.get Reg.twinState = 3 ∧ d.get Reg.twinMirrorState ≠ 4 then d.set Reg.twinMirrorState 1 else d

/-- The role and CLAIM_WON as a frame decides, under the number of the claim-bus result (row 2 of Table 2.4) or of the timer that decides. A change of role ends the sessions, runs the selection and settles the crypt groups. -/
def Device.takeRole (d : Device) (won : Bool) : Device :=
  let d := d.onTwin (fun t => { t with won := won })
  if (d.get Reg.twinRole == 0) = won then d
  else
    let d := if won then d.takeActive else d.takeStandby
    ((d.notice Reg.twinRole [d.get Reg.twinRole]).endSessions).reselect.refreshCg

/-- The winner of a frame: a change from a known winner to another counts. -/
def Device.takeWinner (d : Device) (w : Option Nat) : Device :=
  match w with
  | none => d
  | some u =>
    let d := match d.twin.winner with
      | some v => if u = v then d else d.bump Reg.twinSwitchovers
      | none => d
    d.onTwin (fun t => { t with winner := some u })

/-- The bus after a frame (R350): 3 faulty frames, 3 silent ones with the mate link down, 10 good ones. -/
def Device.judgeBus (d : Device) (bus presence : Nat) (stuck : Bool) : Device :=
  let mate := d.get Reg.twinMateState == 1
  let differs := match d.twin.twinBus with
    | some b => mate && b != bus
    | none => false
  let faulty := stuck || presence == 1 || differs || (mate && presence == 0)
  let silent := !mate && presence == 0
  let d := d.onTwin (fun t => { t with
    faultyRun := if faulty then t.faultyRun + 1 else 0
    silentRun := if silent then t.silentRun + 1 else 0
    goodRun := if faulty || silent then 0 else t.goodRun + 1 })
  if 3 ≤ d.twin.faultyRun then d.set Reg.twinBusState 1
  else if 3 ≤ d.twin.silentRun then d.set Reg.twinBusState 2
  else if 10 ≤ d.twin.goodRun then d.set Reg.twinBusState 0
  else d

/-- Who wins a frame that carried `bus` (R349, R351): the claim's UNIT bit, none for 0xFFFF. -/
def claimWinner (bus : Nat) : Option Nat := if bus = 0xFFFF then none else some (bus % 2)

/-- The decision of R351 at the effect instant. -/
def Device.settleRole (d : Device) (bus : Nat) : Device :=
  let mine := d.get Reg.twinClaimSent
  if d.get Reg.twinBusState ≠ 1 then
    let d := d.onTwin (fun t => { t with lostAt := none })
    (d.takeWinner (claimWinner bus)).takeRole (mine == bus && bus != 0xFFFF)
  else if d.get Reg.twinMateState = 1 then
    let best := min mine (d.twin.twinClaim.getD 0xFFFF)
    let d := d.onTwin (fun t => { t with lostAt := none })
    (d.takeWinner (claimWinner best)).takeRole (mine == best && best != 0xFFFF)
  else
    let d := d.onTwin (fun t => { t with lostAt := some (t.lostAt.getD d.now) })
    d.takeRole (d.get Reg.twinUnit == 0 && d.get Reg.twinRole == 0)

/-- CLAIM_EFFECT_INSTANT: 26 µs after S: claim and bus value go to the twin (R349), and the result takes effect. `bus` is the value the bus carried, `presence` on how many wires the twin's presence appeared, `stuck` whether a
wire was held low for more than 30 µs by no drive of this unit. -/
def execClaimEffectInstant (bus : BitVec 16) (presence : Fin 3) (stuck : Bool) (s : State) : Host.Outcome State Fault Refusal :=
  onDev s (fun d =>
    if !d.onBus ∨ !d.twin.frameOpen then d
    else
      let d := (d.takeSeq.onTwin (fun t => { t with frameOpen := false })).set Reg.twinClaimBus bus.toNat
      let d := if d.get Reg.twinMateState = 1 then d.send (.mateClaim (d.get Reg.twinClaimSent) bus.toNat) else d
      (d.judgeBus bus.toNat presence stuck).settleRole bus.toNat)

/-- BOTH_LINKS_LOST_TAKEOVER: unit 0 takes the active role 1 ms after it first found both links lost (R351). -/
def execBothLinksLostTakeover (s : State) : Host.Outcome State Fault Refusal :=
  onDev s (fun d =>
    match d.twin.lostAt with
    | some t =>
      if d.onBus ∧ d.get Reg.twinUnit = 0 ∧ d.get Reg.twinBusState = 1 ∧ d.get Reg.twinMateState = 0 ∧ t + fuMs ≤ d.now then
        (d.takeSeq.takeWinner (some 0)).takeRole true
      else d
    | none => d)

/-- SHARED_OUTPUT_START: the first calendar boundary at least 2 µs after the effect instant (R352). -/
def execSharedOutputStart (s : State) : Host.Outcome State Fault Refusal :=
  onDev s (fun d =>
    match d.twin.driveAt with
    | some t =>
      if d.twin.enabled ∧ d.get Reg.twinRole = 0 ∧ d.now % fuCycle = 0 ∧ t ≤ d.now then
        d.onTwin (fun x => { x with drives := true, driveAt := none })
      else d
    | none => d)

/-! ### The mate link (R344, R350, R353) -/

/-- Identities are compared (R344): Conflict, Incompatible mirror versions, or Paired; a baseline begins on pairing and on recovery from Stale (R358). -/
def Device.pairWith (d : Device) (unit pairId : Nat) (theyAccept weAccept : Bool) : Device :=
  if unit = d.get Reg.twinUnit ∨ pairId ≠ d.get Reg.twinPairId then
    if d.get Reg.twinState = 4 then d
    else d.enterConflict
  else if !(theyAccept && weAccept) then (d.leaveMirror 4).set Reg.twinState 2
  else if d.get Reg.twinState = 3 ∧ d.get Reg.twinMirrorState ≠ 3 then d
  else
    let d := (d.set Reg.twinState 3).set Reg.twinMirrorState 1
    let d := d.onTwin (fun t => { t with baseAt := none, journal := [], closed := [], openEpoch := max t.openEpoch (d.get Reg.twinEpoch + 1) })
    d.refreshCg

/-- theta of an exchange over the mate link, local time less the twin's, with A = TWIN_MATE_ASYM (R286, R353). -/
def Device.mateTheta (d : Device) (e : Int × Int) : Int := ratRound (((e.1 - e.2 - d.getI Reg.twinMateAsym : Int) : Rat) / 2)

/-- The time the twin sends: TWIN_TIME_DIFF, the standby's time less the active unit's; state, QL and steps of the mate candidate; a standby's
pull goes on at the slope that difference now gives (R353). -/
def Device.mateTime (d : Device) (m : MateMsg) : Device :=
  let d := match m.delays with
    | some e =>
      let x := d.mateTheta e
      let y := (d.setI Reg.twinTimeDiff (if d.get Reg.twinRole = 1 then x else -x)).onTim (fun t => { t with mateThetas := t.mateThetas ++ [x] })
      match y.tim.pull with
      | some (_, _, s) => if y.standby ∧ s ≠ y.slope then y.startPull y.pullLeft y.slope else y
      | none => y
    | none => d
  match m.time with
  | none => d
  | some (st, ql, steps) =>
    let d := d.onTim (fun t => { t with mateState := st })
    let d := match d.candOf 0x40 with
      | some n => d.putCand n { d.cand n with steps := steps % 256 }
      | none => d
    d.sourceQl 0x40 (ql % 16)

/-- The mate candidate's fault [0] as the link and the pairing show it (Table 11.3). -/
def Device.mateFault (d : Device) : Device :=
  match d.candOf 0x40 with
  | none => d
  | some n =>
    let bad := d.get Reg.twinMateState == 0 || d.get Reg.twinState != 3
    if bitAt (d.get (Reg.timeCandFaults n)) 0 = bad then d else d.setFault n 0 bad

/-- The records of an epoch not yet closed join the part the standby holds. -/
def Device.takePart (d : Device) (n : Nat) (rs : List MirrorRec) : Device :=
  if !d.standby ∨ !(d.get Reg.twinMirrorState == 1 || d.get Reg.twinMirrorState == 2) then d
  else
    match d.twin.part with
    | some (k, l) => d.onTwin (fun t => { t with part := some (if k = n then (n, l ++ rs) else (n, rs)) })
    | none => d.onTwin (fun t => { t with part := some (n, rs) })

/-- The boundary of a mirrored action becomes known: both units fire it there (R357). -/
def Device.takeBound (d : Device) (handle boundary : Nat) : Device :=
  { d with sched := { d.sched with actions := d.sched.actions.map (fun a =>
      if a.mirrorOf = handle ∧ handle ≠ 0 ∧ a.armed = none then { a with epoch := 0, notBefore := boundary - fuArm - 1 } else a) } }

/-- MATE_CONTROL_MESSAGE: a valid message of the control channel. -/
def execMateControlMessage (m : MateMsg) (s : State) : Host.Outcome State Fault Refusal :=
  onDev s (fun d =>
    if d.dead ∨ !d.twin.enabled then d
    else
      let d := d.takeSeq.set Reg.twinMateState 1
      let d := if d.get Reg.twinState ≤ 1 then d.set Reg.twinState 2 else d
      let d := match m.hello with
        | some (u, p, a, b) => d.pairWith u p a b
        | none => d
      let d := match m.claim with
        | some (c, b) => d.onTwin (fun t => { t with twinClaim := some c.toNat, twinBus := some b.toNat })
        | none => d
      let d := (d.mateTime m).mateFault
      let d := match m.part with
        | some (n, rs) => d.takePart n rs
        | none => d
      d.each m.bounds (fun e x => x.takeBound e.1 e.2))

/-- The mate link goes down: the mirror becomes Stale, the mate candidate fails (R350, R359). With the bus faulty both links are now lost: unit 1 releases at
once (R351). -/
def Device.mateDown (d : Device) : Device :=
  if d.get Reg.twinMateState = 0 then d
  else
    let d := d.takeSeq.set Reg.twinMateState 0
    let d := d.onTwin (fun t => { t with twinClaim := none, twinBus := none }) |>.onTim (fun t => { t with mateState := 0 })
    let d := if d.get Reg.twinMirrorState = 1 ∨ d.get Reg.twinMirrorState = 2 then d.becomeStale else d
    let d := if d.get Reg.twinState = 4 then d else d.set Reg.twinState 1
    let d := d.refreshCg.mateFault
    if d.get Reg.twinBusState = 1 then
      let d := d.onTwin (fun t => { t with lostAt := some (t.lostAt.getD d.now) })
      if d.get Reg.twinUnit = 1 then d.takeRole false else d
    else d

/-- MATE_LINK_DOWN: no valid message for 200 µs, or the link reported down (R350). -/
def execMateLinkDown (s : State) : Host.Outcome State Fault Refusal :=
  onDev s (fun d => if d.dead ∨ !d.twin.enabled then d else d.mateDown)

end Sys2Proof.Machine
end

