-- ==== Sys2Proof/Machine/Lanes.lean ====
section
/-! DEFINITION. Client ports, FlexE and the mate link's lanes (chapter 15). -/

namespace Sys2Proof.Machine

def Device.onLane (d : Device) (f : Lane → Lane) : Device := { d with lane := f d.lane }

/-! ### Client ports (R366 to R369) -/

/-- Lanes of a port type (Table 15.2). -/
def typeLanes (ty : Nat) : Nat := [1, 1, 1, 4, 2, 1, 4, 2, 1, 8, 4, 2, 8, 4].getD ty 1

/-- The lanes of the port named by p. -/
def Device.portLanes (d : Device) (p : Nat) : List Nat := (List.range (typeLanes (d.get (Reg.lanePortType p)))).map (· + p)

/-- The port whose run a lane belongs to. -/
def Device.portOf (d : Device) (lane : Nat) : Option Nat :=
  (List.range 32).find? (fun p => d.get (Reg.lanePortType p) != 0 && (d.portLanes p).contains lane)

/-- The feature that claims a port: packet mode, a FlexE group, a PTP or SyncE port. -/
def Device.portClaim (d : Device) (p : Nat) : Option Err :=
  if d.get (Reg.pktPortMode p) = 1 then some (errObj stInUse (Reg.pktPortMode p).ref)
  else if d.flexMember p then some (errObj stInUse Reg.laneFlexeActive.ref)
  else
    match (List.range 8).find? (fun k => d.get (Reg.timePtpLane k) == p) with
    | some k => some (errObj stInUse (Reg.timePtpLane k).ref)
    | none => ((List.range 8).find? (fun k => d.get (Reg.timeSynceLane k) == p)).map (fun k => errObj stInUse (Reg.timeSynceLane k).ref)

/-- Two lanes of the run differ in LANE_TRAIN (R368). -/
def Device.trainDiffers (d : Device) (lanes : List Nat) : Bool := lanes.any (fun l => d.get (Reg.laneTrain l) != d.get (Reg.laneTrain (lanes.headD 0)))

/-- Why a port type is refused (R366, R368; LANE_PORT_FEC 1 needs type 1, R416). -/
def portTypeCheck (p v : Nat) (d : Device) : Option Err :=
  let run := (List.range (typeLanes v)).map (· + p)
  if 13 < v then some (err stInvalidValue)
  else if v ≠ 0 ∧ (p % typeLanes v ≠ 0 ∨ run.any (fun l => (d.portOf l).any (· != p)) = true ∨ d.trainDiffers run = true) then
    some (err stInvalidCombination)
  else if v ≠ 1 ∧ d.get (Reg.lanePortFec p) = 1 then some (err stInvalidCombination)
  else
    match d.portClaim p with
    | some e => some e
    | none => if d.get (Reg.lanePortEnable p) ≠ 0 then some (err stNotPermitted) else none

/-- LANE_PORT_SLOTS of a type (R371). -/
def typeSlots (ty : Nat) : Nat := if ty = 0 then 0 else slotsOfRate (macRate ty / 1000)

/-- Effect of a port type. -/
def applyPortType (p v : Nat) (d : Device) : Device :=
  (((d.putValue (Reg.lanePortType p) v).set (Reg.lanePortSlots p) (typeSlots v)).portRates).refreshPort p

/-- LANE_PORT_TYPE. -/
def execLanePortType (q : Req) (port : PortNo) (v : Val) (s : State) : Host.Outcome State Fault Refusal :=
  onDev s (fun d => d.serve q 2 1 true (Reg.lanePortType port).ref (fun _ d => d.plainWrite (Reg.lanePortType port) q v (fun d =>
    match portTypeCheck port v.raw d with
    | some e => (d, .fail e)
    | none => (applyPortType port v.raw d, okWrite))))

/-- LANE_TRAIN of a lane: every lane of a port alike (R368). -/
def trainCheck (lane v : Nat) (d : Device) : Option Err :=
  match d.portOf lane with
  | some p => if (d.portLanes p).any (fun l => l != lane && d.get (Reg.laneTrain l) != v) then some (err stInvalidCombination) else none
  | none => none

/-- LANE_TRAIN. -/
def execLaneTrain (q : Req) (lane : PortNo) (v : Val) (s : State) : Host.Outcome State Fault Refusal :=
  onDev s (fun d => d.serve q 2 1 true (Reg.laneTrain lane).ref (fun _ d => d.plainWriteR (Reg.laneTrain lane) (.span 0 1) q v (fun d =>
    match trainCheck lane v.raw d with
    | some e => (d, .fail e)
    | none => (d.putValue (Reg.laneTrain lane) v.raw, okWrite))))

/-- The resources a write of LANE_PORT_ENABLE names: the directions it enables of the port's lanes (Table 20.4). -/
def Device.portNeeds (d : Device) (p v : Nat) : List Nat :=
  (d.portLanes p).flatMap (fun l => (if bitAt v 0 then [resLane l 0] else []) ++ (if bitAt v 1 then [resLane l 1] else []))

/-- A write of LANE_PORT_ENABLE creates an action of class 0x0008, kind Calendar (R381). -/
def writePortEnable (q : Req) (p : Nat) (v : Val) (d : Device) : Device × Reply :=
  d.actionWrite (Reg.lanePortEnable p) q v .calendar 8 (d.portNeeds p v.raw)

/-- LANE_PORT_ENABLE. -/
def execLanePortEnable (q : Req) (port : PortNo) (v : Val) (s : State) : Host.Outcome State Fault Refusal :=
  onDev s (fun d => d.serve q 2 1 true (Reg.lanePortEnable port).ref (fun _ d => writePortEnable q port v d))

/-- LANE_RX_STATE and LANE_TX_STATE of a lane by its enable and its power state: off, sleeping, then acquiring or training, active (Table 15.6). -/
def Device.laneStart (d : Device) (l : Nat) (rx tx : Bool) : Device :=
  let train := d.get (Reg.laneTrain l) == 1
  let d := d.set (Reg.laneRxState l) (if d.asleep (resLane l 0) then 1 else if !rx then 0
    else if d.get (Reg.laneRxState l) = 4 then 4 else if train then 3 else 2)
  d.set (Reg.laneTxState l) (if d.asleep (resLane l 1) then 1 else if !tx then 0
    else if d.get (Reg.laneTxState l) = 3 then 3 else if train then 2 else 3)

/-- A port's state changes: an event; the port fails or returns, the queues' capacities follow (R367, R369, R233). -/
def Device.portState (d : Device) (p st : Nat) : Device :=
  if d.get (Reg.lanePortState p) = st then d
  else
    let d := (d.takeSeq.set (Reg.lanePortState p) st).refreshPort p
    if d.get (Reg.pktPortMode p) = 1 then d.rebook else d

/-- LANE_PORT_STATE by the port's type and enables, its lanes and what its PCS last reported: Off; Training while a lane trains or acquires; Up; Down (R367). -/
def Device.portNow (d : Device) (p : Nat) : Nat :=
  let en := d.get (Reg.lanePortEnable p)
  if d.get (Reg.lanePortType p) = 0 ∨ en = 0 then 0
  else if !bitAt en 0 then 3
  else if (d.portLanes p).any (fun l => d.get (Reg.laneRxState l) == 2 || d.get (Reg.laneRxState l) == 3) then 1
  else if d.get (Reg.lanePortFaults p) % 8 = 0 then 2 else 3

/-- The conditions of the receiver: not aligned, high BER, Local Fault, Remote Fault; fault [4] stays as it is. -/
def Device.setFaults (d : Device) (p v : Nat) : Device := d.set (Reg.lanePortFaults p) (d.get (Reg.lanePortFaults p) / 16 % 2 * 16 + v)

/-- Effect of LANE_PORT_ENABLE at its boundary: a receive direction that is enabled anew is not aligned yet. -/
def applyPortEnable (p v : Nat) (d : Device) : Device :=
  let was := bitAt (d.get (Reg.lanePortEnable p)) 0
  let d := d.putValue (Reg.lanePortEnable p) (v % 4)
  let d := d.each (d.portLanes p) (fun l x => x.laneStart l (bitAt v 0) (bitAt v 1))
  let d := if !bitAt v 0 then d.setFaults p 0 else if was then d else d.setFaults p 1
  d.portState p (d.portNow p)

/-- TRAINING_TIMEOUT: the lane restarts training (R368); stale where it does not train. -/
def execTrainingTimeout (lane : PortNo) (s : State) : Host.Outcome State Fault Refusal :=
  onDev s (fun d =>
    if d.dead then d
    else if d.get (Reg.laneTrain lane) = 1 ∧ (d.get (Reg.laneRxState lane) = 3 ∨ d.get (Reg.laneTxState lane) = 2) then
      let d := d.takeSeq
      (if d.get (Reg.laneRxState lane) = 0 then d else d.set (Reg.laneRxState lane) 3).set (Reg.laneTxState lane)
        (if d.get (Reg.laneTxState lane) = 0 then 0 else 2)
    else d.takeSeq.stale)

/-! ### FlexE (R373, R374) -/

/-- A member leaves its group, or returns: an event; the clients on it fail or are restored. -/
def Device.flexPhy (d : Device) (p : Nat) (removed : Bool) : Device :=
  if !d.flexMember p ∨ d.flexRemoved p = removed then d
  else
    let d := d.takeSeq.setBit Reg.laneFlexeRemoved p removed
    d.each ((d.lane.flexActive.filter (fun g => g.members.any (fun m => m.port == p))).map lowestMember) (fun l x => x.refreshPort l)

/-- A member whose link is down or whose overhead lock is lost is removed; of one that is up with matching overhead it is noted since when (R374). -/
def Device.flexCheck (d : Device) (p : Nat) : Device :=
  if d.get (Reg.lanePortState p) ≠ 2 ∨ d.lane.overheadLost.contains p = true then
    (d.onLane (fun l => { l with flexUp := tblDel l.flexUp p })).flexPhy p true
  else d.onLane (fun l => { l with flexUp := if (tblGet l.flexUp p).isNone then tblPut l.flexUp p d.now else l.flexUp })

/-- A removed member may rejoin: it has been up with matching overhead for LANE_FLEXE_REJOIN seconds. -/
def Device.flexRejoins (d : Device) (p : Nat) : Bool :=
  d.flexMember p && d.flexRemoved p && (match tblGet d.lane.flexUp p with
    | some t => decide (t + d.get Reg.laneFlexeRejoin * fuSec ≤ d.now)
    | none => false)

/-- PORT_LINK_CHANGE: what the PCS of a port with an enabled receive direction reports (R367): alignment, high BER, Local and Remote Fault. -/
def execPortLinkChange (port : PortNo) (aligned highBer localFault remoteFault : Bool) (s : State) : Host.Outcome State Fault Refusal :=
  onDev s (fun d =>
    let p := port.val
    if d.dead ∨ d.get (Reg.lanePortType p) = 0 ∨ !bitAt (d.get (Reg.lanePortEnable p)) 0 then d
    else
      let d := d.setFaults p (b2n (!aligned) + 2 * b2n highBer + 4 * b2n localFault + 8 * b2n remoteFault)
      (d.portState p (d.portNow p)).flexCheck p)

/-- FLEXE_REJOIN_EXPIRY: up with matching overhead for LANE_FLEXE_REJOIN seconds, a removed member rejoins; stale otherwise. -/
def execFlexeRejoinExpiry (port : PortNo) (s : State) : Host.Outcome State Fault Refusal :=
  onDev s (fun d =>
    let p := port.val
    if d.dead then d
    else if d.flexRejoins p then d.flexPhy p false
    else d.takeSeq.stale)

/-- FLEXE_OVERHEAD_LOCK_CHANGE: a member loses or regains lock on the FlexE overhead. -/
def execFlexeOverheadLockChange (port : PortNo) (lock : Bool) (s : State) : Host.Outcome State Fault Refusal :=
  onDev s (fun d =>
    let p := port.val
    if d.dead ∨ !d.flexMember p then d
    else
      let d := d.onLane (fun l => { l with overheadLost := l.overheadLost.filter (· != p) ++ (if lock then [] else [p]) })
      d.flexCheck p)

/-- Client identities of a configuration, over its groups. -/
def flexClients (c : List FlexeGroup) : Nat := sumOf (c.map (fun g => g.clients.length))

/-- A member holds one calendar slot for each 5 Gb/s of its rate, each unused or of an identity that the group lists. -/
def Device.memberOk (d : Device) (g : FlexeGroup) (m : FlexeMember) : Bool :=
  decide (m.slots.length * 5000 = macRate (d.get (Reg.lanePortType m.port))) && m.slots.all (fun i => i == 0 || g.clients.any (·.1 == i))

/-- Why a configuration is refused: outside the scope of R373 ("invalid value"); members of other types or of unequal rates, calendars that do not fit them, numbers
given twice ("invalid combination"; assumption 33); a port in packet mode (R427). -/
def Device.flexError (d : Device) (c : List FlexeGroup) : Option Err :=
  let members := c.flatMap (·.members)
  let groupOk (g : FlexeGroup) : Bool :=
    decide (1 ≤ g.num ∧ g.num ≤ 1048574 ∧ g.members ≠ [] ∧ g.members.length ≤ 8) &&
      g.members.all (fun m => decide (m.port < 32 ∧ 1 ≤ m.phy ∧ m.phy ≤ 254))
  let rate (m : FlexeMember) : Nat := macRate (d.get (Reg.lanePortType m.port))
  if 8 < c.length ∨ 128 < flexClients c ∨ c.all groupOk = false then some (err stInvalidValue)
  else if members.any (fun m => ! [100000, 200000, 400000].contains (rate m)) ∨
    c.any (fun g => g.members.any (fun m => rate m != rate (g.members.headD m))) ∨ (members.map (·.port)).eraseDups.length ≠ members.length ∨
    c.any (fun g => !g.members.all (d.memberOk g) || (g.members.map (·.phy)).eraseDups.length != g.members.length) ∨
    (c.map (·.num)).eraseDups.length ≠ c.length then
    some (err stInvalidCombination)
  else (members.find? (fun m => d.get (Reg.pktPortMode m.port) == 1)).map (fun m => errObj stInUse (Reg.pktPortMode m.port).ref)

/-- LANE_FLEXE_NEXT written: a configuration in the layout it has, or nothing. -/
def flexNext (bs : List Nat) (d : Device) : Device × Reply :=
  match Config.flexe bs with
  | none => (d, .fail (err stInvalidValue))
  | some c =>
    match d.flexError c with
    | some e => (d, .fail e)
    | none => (d.putDomain Reg.laneFlexeNext.ref bs, .ok [])

/-- LANE_FLEXE_NEXT. -/
def execLaneFlexeNext (q : Req) (crc : BitVec 32) (s : State) : Host.Outcome State Fault Refusal :=
  onDev s (fun d => d.serve q 5 1 true Reg.laneFlexeNext.ref (fun _ d => d.takeBlock q Reg.laneFlexeNext.ref crc.toNat flexNext))

/-- LANE_FLEXE_APPLY creates an action of class 0x0008, kind Calendar. -/
def writeFlexApply (q : Req) (v : Val) (d : Device) : Device × Reply := d.actionWrite Reg.laneFlexeApply q v .calendar 8 []

/-- LANE_FLEXE_APPLY. -/
def execLaneFlexeApply (q : Req) (v : Val) (s : State) : Host.Outcome State Fault Refusal :=
  onDev s (fun d => d.serve q 2 1 true Reg.laneFlexeApply.ref (fun _ d => writeFlexApply q v d))

/-- The calendar switch begins with what LANE_FLEXE_NEXT then holds. -/
def startFlex (v : Nat) (d : Device) : Except Err Device :=
  match Config.flexe (d.dom Reg.laneFlexeNext.ref) with
  | none => .error (err stInvalidValue)
  | some c =>
    match d.flexError c with
    | some e => .error e
    | none => .ok ((d.set Reg.laneFlexeApply v).onLane (fun l => { l with switching := some (d.dom Reg.laneFlexeNext.ref) }))

/-- FLEXE_CALENDAR_START: the action fires. -/
def execFlexeCalendarStart (handle : BitVec 32) (poison : Bool) (s : State) : Host.Outcome State Fault Refusal :=
  onDev s (fun d =>
    match d.action? handle.toNat with
    | some a => d.fireOn handle.toNat 8 Reg.laneFlexeApply.ref a.value poison (fun a x => startFlex a.value x)
    | none => d)

/-- A configuration comes into force on the other calendar. -/
def Device.flexSwap (d : Device) (bs : List Nat) : Device :=
  let old := d.lane.flexActive
  let c := (Config.flexe bs).getD []
  let d := d.onLane (fun l => { l with flexActive := c, calendarB := !l.calendarB, switching := none })
  let d := (d.setDom Reg.laneFlexeActive.ref (Config.flexeActive bs d.lane.calendarB)).keepDomain Reg.laneFlexeActive.ref bs
  let ports := (List.range 32).filter (fun p => d.flexMember p || old.any (fun g => g.members.any (fun m => m.port == p)))
  let d := d.each (ports.filter (fun p => !d.flexMember p)) (fun p x => x.setBit Reg.laneFlexeRemoved p false)
  let d := d.each (ports.filter (d.flexMember ·)) (fun p x => x.flexCheck p)
  d.each ports (fun p x => x.refreshPort p)

/-- FLEXE_CALENDAR_SWAP: the calendars swap at the multiframe agreed with the far end. -/
def execFlexeCalendarSwap (s : State) : Host.Outcome State Fault Refusal :=
  onDev s (fun d =>
    match d.lane.switching with
    | some bs => if d.dead then d else d.takeSeq.flexSwap bs
    | none => d)

/-! ### Rate adaptation (R371, R372) -/

/-- A port in packet mode whose link is not up sends Remote Fault (Table 15.3). -/
def Device.packetFault (d : Device) (p : Nat) : Bool :=
  d.get (Reg.lanePortType p) != 0 && d.get (Reg.pktPortMode p) == 1 && bitAt (d.get (Reg.lanePortEnable p)) 1 && d.get (Reg.lanePortState p) != 2

/-- A failed port in packet mode sends Remote Fault for a cycle. -/
def Device.sendFault (d : Device) (p : Nat) : Device :=
  ({ d with lane := { d.lane with sent := d.lane.sent ++ [(slotKey p 0, 2)] } }).send
    (.pcs p 0 (List.replicate (200 * (macRate (d.get (Reg.lanePortType p)) / 1000)) remoteFaultBlock))

/-- The streams whose port's transmit direction is enabled: fault [4] and the blocks of the cycle that begins; those of the others are dropped (R372). -/
def Device.sendPorts (d : Device) : Device :=
  let on (c : ClientStream) : Bool := bitAt (d.get (Reg.lanePortEnable c.port)) 1
  let cs := d.clientStreams.filter on
  let d := d.each (d.clientStreams.filter (!on ·)) (fun c x => x.putClient c.key { x.clientSide c.key with area := [], out := [], outFrame := false })
  let d := d.each ((cs.map (·.port)).eraseDups) (fun p x => x.setBit (Reg.lanePortFaults p) 4 (cs.any (fun c => c.port == p && d.rateShort c)))
  let d := d.onLane (fun l => { l with underRun := ((cs.filter (d.starved ·)).map (·.port)).eraseDups, sent := [] })
  (d.each cs (fun c x => x.sendStream c)).each ((List.range 32).filter (d.packetFault ·)) (fun p x => x.sendFault p)

/-- The mark of a mate lane in the cycle that begins (Table 15.5). -/
def Device.mateMarkOf (d : Device) (k : Nat) : Nat :=
  let tx := d.txDeal
  let n := (d.lane.txNext.filter (fun e => decide (d.cycleNow < e.2))).getD (tx, 0)
  withHcrc (0xB5 * 2 ^ 120 + k * 2 ^ 117 + d.lane.mateClock % 2 * 2 ^ 116 + tx * 2 ^ 104 + n.1 % 256 * 2 ^ 96 + d.get Reg.laneMateRxLanes * 2 ^ 88 +
    n.2 % 256 * 2 ^ 80 + d.cycleNow % 2 ^ 64 * 2 ^ 16)

/-- Every enabled mate lane sends its mark at the calendar boundary, whether or not it carries data, and the codewords of the cycle: the control channel, whose
form the spec does not give, then the output slots' blocks (R376 to R379). -/
def Device.sendLanes (d : Device) : Device :=
  if d.lane.mateOn then
    ({ d with free := d.free + 1 }).each ((List.range 8).filter (bitAt (d.get Reg.laneMateEnable) ·)) (fun k x =>
      x.send (.mateLane k (x.mateMarkOf k :: laneBlocks (dealt x.txDeal x.lane.mateCtrl (Config.mateControl d.free) x.lane.mateOut k))))
  else d

/-- The lanes at a calendar boundary: code counts of the last cycle, what each client port and each mate lane sends (R372, R376). -/
def Device.lanesBoundary (d : Device) (reports : List LaneReport) : Device :=
  let d := d.each reports (fun r x => (x.count (Reg.lanePortFecCorr r.port) r.corrected).count (Reg.lanePortFecUncorr r.port) r.uncorrectable)
  d.sendPorts.sendLanes

/-! ### The mate link (R375 to R380) -/

/-- U of the receive direction and the state of the link: down in a direction while TX_LANES and NEXT_LANES are both 0. -/
def Device.mateState (d : Device) : Device :=
  let l := d.lane
  let up := (l.rxDeal != 0 || l.rxNext.isSome) && (d.get Reg.laneMateTxLanes != 0 || l.txNext.isSome)
  let d := d.set Reg.laneMateSlots (mateSlots l.rxDeal l.mateCtrl)
  let d := (d.set Reg.laneMateState (b2n up)).refreshGroups
  if up then d else d.mateDown

/-- A mate lane gains or loses lock: an event of input order 4. -/
def Device.mateLock (d : Device) (k : Nat) (lock : Bool) : Device :=
  if bitAt (d.get Reg.laneMateRxLanes) k = lock then d
  else
    let d := d.takeSeq.setBit Reg.laneMateRxLanes k lock
    (if lock then d else d.bump (Reg.laneLockLosses (32 + k))).mateState

/-- A client lane gains or loses lock: a loss ends the alignment of its port's PCS (R369). -/
def Device.clientLock (d : Device) (l : Nat) (lock : Bool) : Device :=
  let st := d.get (Reg.laneRxState l)
  if st ≤ 1 ∨ (st = 4) = (lock = true) then d
  else
    let train := d.get (Reg.laneTrain l) == 1
    let d := d.takeSeq.set (Reg.laneRxState l) (if lock then 4 else if train then 3 else 2)
    let d := if lock then (if train ∧ d.get (Reg.laneTxState l) = 2 then d.set (Reg.laneTxState l) 3 else d) else d.bump (Reg.laneLockLosses l)
    match d.portOf l with
    | some p =>
      let d := if lock then d else d.setFaults p 1
      (d.portState p (d.portNow p)).flexCheck p
    | none => d

/-- The clock of a mate lane's receiver is lost: in embedded mode that lane leaves lock, in forwarded mode every lane (R377). -/
def Device.mateClockLost (d : Device) (k : Nat) : Device :=
  d.each ((List.range 8).filter (fun j => j == k || d.lane.mateClock == 0)) (fun j x =>
    (x.onLane (fun l => { l with marks := tblDel l.marks j })).mateLock j false)

/-- LANE_LOCK_CHANGE: a lane's receiver locks or unlocks (R368, R377), with the SNR it then reports. A mate lane with its clock locks by its marks alone. -/
def execLaneLockChange (lane : Fin 40) (lock : Bool) (snr : BitVec 16) (s : State) : Host.Outcome State Fault Refusal :=
  onDev s (fun d =>
    if d.phase = .reset then d
    else
      let d := d.set (Reg.laneRxSnr lane) snr.toNat
      if lane.val < 32 then d.clientLock lane lock
      else if !d.lane.mateOn ∨ !bitAt (d.get Reg.laneMateEnable) (lane.val - 32) then d
      else if lock then d
      else d.mateClockLost (lane.val - 32))

/-- Fields of a lane mark (Table 15.5). -/
def markLane (w : Nat) : Nat := bits w 119 117
def markClock (w : Nat) : Nat := bits w 116 116
def markTx (w : Nat) : Nat := bits w 111 104
def markNext (w : Nat) : Nat := bits w 103 96
def markRx (w : Nat) : Nat := bits w 95 88
def markSwitch (w : Nat) : Nat := bits w 87 80
def markCycle (w : Nat) : Nat := bits w 79 16

/-- The mark is valid: HCRC, PATTERN, and the clocking mode of this unit. -/
def Device.markOk (d : Device) (w : Nat) : Bool := hcrcOk w && bits w 127 120 == 0xB5 && markClock w == d.lane.mateClock

/-- RX_LANES as the partner reports it: seen the same in 2 consecutive cycles and other than dealt to, it becomes NEXT_LANES, 4 cycles ahead (R379). -/
def Device.seeRx (d : Device) (w : Nat) : Device :=
  let l := d.lane
  let c := markCycle w
  let run := if l.seenRx.2.1 = c then l.seenRx.2.2
    else if l.seenRx.1 = markRx w ∧ l.seenRx.2.1 + 1 = c then l.seenRx.2.2 + 1 else 1
  let d := d.onLane (fun l => { l with seenRx := (markRx w, c, run) })
  let next := markRx w &&& d.get Reg.laneMateEnable
  if 2 ≤ run ∧ markRx w ≠ d.get Reg.laneMateTxLanes ∧ next ≠ d.get Reg.laneMateTxLanes ∧ d.lane.txNext = none then
    d.onLane (fun l => { l with txNext := some (next, d.now / fuCycle + 4) })
  else d

/-- The partner's dealing as its mark tells it. -/
def Device.seeDeal (d : Device) (w : Nat) : Device :=
  d.onLane (fun l => { l with rxNext := if markNext w ≠ markTx w then some (markNext w, markSwitch w) else l.rxNext })

/-- More than LANE_MATE_DEGRADE codewords of a locked lane were uncorrectable in the last millisecond, with those of this cycle (R377). -/
def Device.mateDegrades (d : Device) (k unc : Nat) : Bool :=
  bitAt (d.get Reg.laneMateRxLanes) k &&
    decide (d.get Reg.laneMateDegrade <
      unc + sumOf ((d.lane.cwBad.filter (fun e => e.1 == k && decide (d.now < e.2.1 + fuMs))).map (fun e => e.2.2)))

/-- The uncorrectable codewords of a cycle are remembered for a millisecond. -/
def Device.noteBad (d : Device) (k unc : Nat) : Device :=
  d.onLane (fun l => { l with
    cwBad := l.cwBad.filter (fun e => decide (d.now < e.2.1 + fuMs)) ++ (if unc = 0 then [] else [(k, d.now, unc)]) })

/-- The data blocks of a locked lane wait with the cycle that the lane's last mark named, those of two cycles at most (R377). -/
def Device.laneGives (d : Device) (k : Nat) (data : List SliceBlock) : Device :=
  if bitAt (d.get Reg.laneMateRxLanes) k then
    d.onLane (fun l =>
      let mine := l.mateIn.filter (fun e => e.1 == k)
      { l with mateIn := l.mateIn.filter (fun e => e.1 != k) ++ mine.drop (mine.length - 1) ++ [(k, (tblGetD l.marks k (0, 0, 0)).2.2, data)] })
  else d

/-- A mark of lane k, with the data and the uncorrectable codewords of the cycle after it: the lane locks after 3 valid marks in a row, leaves lock after 2 that
are missing or invalid or by LANE_MATE_DEGRADE, and a locked lane gives its data. -/
def Device.markSeen (d : Device) (k : Nat) (mark : Option (BitVec 128)) (unc : Nat) (data : List SliceBlock) : Device :=
  let degrades := d.mateDegrades k unc
  let d := d.noteBad k unc
  let d := if degrades then (d.onLane (fun l => { l with marks := tblDel l.marks k })).mateLock k false else d
  let r := tblGetD d.lane.marks k (0, 0, 0)
  let bad (d : Device) : Device :=
    let d := d.onLane (fun l => { l with marks := tblPut l.marks k (0, r.2.1 + 1, r.2.2 + 1) })
    if 2 ≤ r.2.1 + 1 then d.mateLock k false else d.laneGives k data
  match mark with
  | none => bad d
  | some m =>
    let w := m.toNat
    if !d.markOk w then bad d
    else if markLane w ≠ k then bad (d.bump Reg.laneMateMiswire)
    else
      let run := if 0 < r.1 ∧ r.2.2 + 1 = markCycle w then r.1 + 1 else 1
      let d := d.onLane (fun l => { l with marks := tblPut l.marks k (run, 0, markCycle w) })
      let d := if 3 ≤ run then d.mateLock k true else d
      if bitAt (d.get Reg.laneMateRxLanes) k then (((d.seeRx w).seeDeal w).mateState).laneGives k data else d

/-- MATE_LANE_MARK: block 0 of a receive lane in one cycle (none: missing), the other blocks of the cycle, and the largest skew (R376, R377). -/
def execMateLaneMark (lane : Fin 8) (mark : Option (BitVec 128)) (blocks : List (BitVec 128)) (skew : Int) (s : State) :
    Host.Outcome State Fault Refusal :=
  onDev s (fun d =>
    let k := lane.val
    if !d.lane.mateOn ∨ !bitAt (d.get Reg.laneMateEnable) k then d
    else
      let r := laneReceived (blocks.map (·.toNat))
      (((d.count Reg.laneMateCwCorr r.2.1).count Reg.laneMateCwUncorr r.2.2).setI Reg.laneMateSkew skew).markSeen k mark r.2.2 r.1)

/-- MATE_WIDTH_SWITCH: at cycle SWITCH a direction changes its lane set (R378, R379). -/
def execMateWidthSwitch (transmit : Bool) (s : State) : Host.Outcome State Fault Refusal :=
  onDev s (fun d =>
    if !d.lane.mateOn then d
    else if transmit then
      match d.lane.txNext with
      | some (next, cycle) =>
        if cycle ≤ d.now / fuCycle then
          (((d.onLane (fun l => { l with txNext := none })).set Reg.laneMateTxLanes next).bump Reg.laneMateWidthChanges).mateState
        else d
      | none => d
    else
      match d.lane.rxNext with
      | some (next, _) => ((d.onLane (fun l => { l with rxNext := none, rxDeal := next })).bump Reg.laneMateWidthChanges).mateState
      | none => d)

/-- LANE_MATE_ENABLE written: a lane no longer enabled leaves lock. -/
def applyMateEnable (v : Nat) (d : Device) : Device :=
  let d := d.putValue Reg.laneMateEnable v
  d.each ((List.range 8).filter (fun k => !bitAt v k)) (fun k x => x.mateLock k false)

end Sys2Proof.Machine
end

