-- ==== Sys2Proof/Machine/Telemetry.lean ====
section
/-! DEFINITION. Counters, snapshot groups, the telemetry ring, sweeps and bandwidth windows (chapter 19). -/

namespace Sys2Proof.Machine

def Device.onTel (d : Device) (f : Tel → Tel) : Device := { d with tel := f d.tel }

/-! ### Block counters (R448 to R450) -/

/-- A control word names an event of the block: codes 1 and 2 take any instance, 3 and 4 a memory class, 5 a row of Table 10.6, 0xFFFF all; code 0, the
Default, no event (R449). -/
def ctrlValid (block w : Nat) : Bool :=
  let i := ctrlInstance w
  match ctrlEvent w with
  | 0 => true
  | 1 => true
  | 2 => true
  | 3 => i == 0xFFFF || decide (1 ≤ i ∧ i ≤ 6)
  | 4 => i == 0xFFFF || decide (1 ≤ i ∧ i ≤ 6)
  | 5 => i == 0xFFFF || decide (1 ≤ i ∧ i ≤ 14)
  | e => decide (0x100 ≤ e) && Config.events.any (fun x => x.1 == block && x.2.1 == e && (i == 0xFFFF || decide (i ≤ x.2.2)))

/-- Why TEL_CNT_CTRL written v is refused. -/
def cntCtrlCheck (block v : Nat) : Option Err := if ctrlValid block v then none else some (err stInvalidValue)

/-- Effect of TEL_CNT_CTRL: stored, in effect from the next calendar boundary (R450). -/
def applyCntCtrl (block k v : Nat) (d : Device) : Device :=
  let d := d.putValue (Reg.telCntCtrl block k) (v &&& 0x8FFFFFFF)
  d.onTel (fun t => { t with ctrlWaits := t.ctrlWaits.filter (· != 8 * block + k) ++ [8 * block + k] })

/-- TEL_CNT_CTRL. -/
def execTelCntCtrl (q : Req) (block : Fin 16) (k : Fin 8) (v : Val) (s : State) : Host.Outcome State Fault Refusal :=
  onDev s (fun d => d.serve q 2 1 true (Reg.telCntCtrl block k).ref (fun _ d =>
    d.plainWriteR (Reg.telCntCtrl block k) .any q v (fun d =>
      match cntCtrlCheck block v.raw with
      | some e => (d, .fail e)
      | none => (applyCntCtrl block k v.raw d, okWrite))))

/-- Zeroes a counter, and its WRAPPED. -/
def zeroCnt (block k : Nat) (d : Device) : Device :=
  (d.set (Reg.telCnt block k) 0).setBit (Reg.telCntCtrl block k) 30 false

/-- TEL_CNT: any value zeroes the counter. -/
def execTelCnt (q : Req) (block : Fin 16) (k : Fin 8) (v : Val) (s : State) : Host.Outcome State Fault Refusal :=
  onDev s (fun d => d.serve q 2 1 true (Reg.telCnt block k).ref (fun _ d =>
    d.plainWriteR (Reg.telCnt block k) .any q v (fun d => (zeroCnt block k d, okWrite))))

/-- A resource of a block is in P0: for hub, FEC and lanes one of their sleeping resources, for the others always. -/
def Device.blockAwake (d : Device) (block : Nat) : Bool :=
  let awake (l : List Nat) : Bool := l.any (fun r => !d.asleep r)
  match block with
  | 2 => awake ((List.range 20).map resEngine)
  | 4 => awake ((List.range 64).map (· + 512))
  | 13 => awake ((List.range 80).map (· + 768))
  | _ => true

/-- What the counters counted in the calendar cycle that ends, then the control writes that waited for its end (R448, R450). `counts` holds the block-specific events
of each counter (8 * block + counter), codes from 0x100 on, which the device defines; those of Table 19.2 are counted as they come. -/
def Device.countCycle (d : Device) (counts : List (Nat × Nat)) : Device :=
  let d := d.each (List.range 16) (fun b x =>
    if x.blockAwake b then
      let x := x.set (Reg.telCycles b) ((x.get (Reg.telCycles b) + clocksPerCycle) % 2 ^ 64)
      x.each (List.range 8) (fun k y =>
        if y.cntTakes b k 1 0 then y.addCnt b k clocksPerCycle else y)
    else x)
  let d := d.each counts (fun e x =>
    let w := x.get (Reg.telCntCtrl (e.1 / 8 % 16) (e.1 % 8))
    if ctrlEnable w ∧ 0x100 ≤ ctrlEvent w ∧ !x.tel.ctrlWaits.contains (e.1 % 128) then x.addCnt (e.1 / 8 % 16) (e.1 % 8) e.2 else x)
  (d.each d.tel.ctrlWaits (fun i x => zeroCnt (i / 8) (i % 8) x)).onTel (fun t => { t with ctrlWaits := [], bwCycles := t.bwCycles + 1 })

/-! ### Snapshot groups (R451 to R454) -/

/-- Fields of a member record: reference and clear-on-latch. -/
def memberRef (w : Nat) : Nat := w / 256
def memberClear (w : Nat) : Bool := bitAt w 0

/-- The block counters, by reference (R448). -/
def blockCounters : List Nat := (List.range 16).flatMap (fun b => (1 :: (List.range 8).map (0x0A + ·)).map (fun k => (0x9100 + b) * 256 + k))

/-- TEL_LATCHABLE: the block counters and the hardware counters of the other chapters. -/
def latchableList : List Nat := Config.latchableForm (blockCounters ++ Config.latchable)

/-- TEL_EVENT_LIST: the events of Table 19.2 and the block's own, per block; the highest instance of an event whose instance is ignored is given as 0xFFFF. -/
def eventList : List Nat :=
  Config.eventForm ((List.range 16).flatMap (fun b =>
    [(b, 1, 0xFFFF), (b, 2, 0xFFFF), (b, 3, 6), (b, 4, 6), (b, 5, 14)] ++ Config.events.filter (fun e => e.1 == b)))

/-- The object may be a member: a block counter, or one TEL_LATCHABLE lists. -/
def mayLatch (ref : Nat) : Bool :=
  blockCounters.contains ref || Config.latchable.contains ref

/-- A member record is right. -/
def memberValid (w : Nat) : Bool :=
  mayLatch (memberRef w) &&
    match rowIn objRows (memberRef w) with
    | some r => !memberClear w || r.access == .rwc
    | none => false

/-- The members of a group. -/
def Device.members (d : Device) (g : Nat) : List Nat := recordsOf 4 (d.dom (Reg.telGrpMembers g).ref)

/-- TEL_GRP_MEMBERS written by BLOCK (R451, R453). -/
def writeMembers (g : Nat) (bs : List Nat) (d : Device) : Device × Reply :=
  let l := recordsOf 4 bs
  if bs.length % 4 ≠ 0 ∨ 1024 < bs.length ∨ !l.all memberValid then (d, .fail (err stInvalidValue))
  else if 168 < l.length ∧ d.get (Reg.telGrpDest g) ≠ 0 then (d, .fail (err stInvalidCombination))
  else (d.setDom (Reg.telGrpMembers g).ref bs, .ok [])

/-- TEL_GRP_MEMBERS. -/
def execTelGrpMembers (q : Req) (g : Fin 32) (crc : BitVec 32) (s : State) : Host.Outcome State Fault Refusal :=
  onDev s (fun d => d.serve q 5 1 true (Reg.telGrpMembers g).ref (fun _ d => d.takeBlock q (Reg.telGrpMembers g).ref crc.toNat (writeMembers g)))

/-- Why TEL_GRP_DEST written v is refused: a notice holds at most 168 members. -/
def grpDestCheck (g v : Nat) (d : Device) : Option Err :=
  if v ≠ 0 ∧ 168 < (d.members g).length then some (err stInvalidCombination) else none

/-- TEL_GRP_DUMP: an action of class 0x0005 whose boundary is the latch (R452). -/
def execTelGrpDump (q : Req) (g : Fin 32) (v : Val) (s : State) : Host.Outcome State Fault Refusal :=
  onDev s (fun d => d.serve q 2 1 true (Reg.telGrpDump g).ref (fun _ d =>
    d.actionWriteA (Reg.telGrpDump g) q v { newAction .calendar .host 0x0005 (Reg.telGrpDump g).ref 0 0 with args := [g] }))

/-- The pending latch of a periodic group: at the next whole multiple of TEL_GRP_PERIOD ms of device time (R452). -/
def Device.scheduleLatch (d : Device) (g : Nat) : Device :=
  let p := d.get (Reg.telGrpPeriod g)
  if p = 0 then d
  else d.scheduleOwn { newAction .calendar .device 0x0005 0 (fuToTime96 (nextMultiple (p * fuMs) d.now)) 0 with args := [g], late1 := true }

/-- Effect of TEL_GRP_PERIOD: the pending latch under the old period goes, one under the new comes. -/
def applyGrpPeriod (g v : Nat) (d : Device) : Device :=
  let d := d.putValue (Reg.telGrpPeriod g) v
  let mine (a : Action) : Bool := a.cls == 0x0005 && a.origin == .device && a.args.head? == some g && a.armed.isNone
  let d := { d with sched := { d.sched with
    actions := d.sched.actions.filter (fun a => !mine a), waiting := d.sched.waiting.filter (fun a => !mine a) } }
  d.scheduleLatch g

/-! ### Records (R453 to R455, Table 19.3) -/

/-- Bytes of a record: whole multiples of 64. -/
def recSize (r : RingRec) : Nat := if r.typ = 4 then r.body.length else ceilTo 64 (64 + r.body.length)

/-- The bytes of a record, with LOST. -/
def recBytes (lost : Bool) (r : RingRec) : List Nat :=
  if r.typ = 4 then r.body
  else
    beBytes 1 r.typ ++ beBytes 1 r.id ++ beBytes 2 r.count ++ beBytes 4 (recSize r) ++ beBytes 12 r.time ++ beBytes 8 r.seq ++
      beBytes 2 (min r.skipped 65535) ++ beBytes 2 (b2n r.step * 2 ^ 15 + b2n lost * 2 ^ 14) ++ beBytes 32 r.invalid ++ r.body ++
      List.replicate (recSize r - 64 - r.body.length) 0

/-- Bytes waiting in the 1 MiB output buffer (R460). -/
def Device.telWaiting (d : Device) : Nat := sumOf (d.tel.waiting.map recSize)

/-- The buffer has room for n bytes. -/
def Device.telRoom (d : Device) (n : Nat) : Bool := decide (d.telWaiting + n ≤ 2 ^ 20)

/-- A record joins those that wait for HBM. -/
def Device.queueRec (d : Device) (r : RingRec) : Device := d.onTel (fun t => { t with waiting := t.waiting ++ [r] })

/-- The value a member has as it reads, zero-extended to 64 bits. -/
def Device.memberValue (d : Device) (ref : Nat) : Nat :=
  match rowIn objRows ref with
  | some r =>
    match d.shown ref with
    | some v => v % 2 ^ r.width % 2 ^ 64
    | none => d.get (rowObj r ref) % 2 ^ 64
  | none => 0

/-- A clear-on-latch member is reduced by the value v latched; a poisoned one, latched as 0, keeps its count (R452). -/
def Device.latchClear (d : Device) (ref v : Nat) : Device :=
  if v = 0 then d
  else if ref / 256 = 0x3012 then (d.groupClear (ref % 256)).getD d
  else
    match d.packetClear ref, rowIn objRows ref with
    | some x, _ => x
    | none, some r => d.set (rowObj r ref) (d.get (rowObj r ref) - v)
    | none, none => d

/-- A latch of a group (R452 to R454): skipped and counted while its last record waits or the buffer is full; else its record. `poisoned` lists members
read poisoned, recorded as 0 (Table 10.6, row 11). -/
def Device.latch (d : Device) (g : Nat) (poisoned : List Nat) : Device :=
  let ms := d.members g
  let dest := d.get (Reg.telGrpDest g)
  if d.tel.waiting.any (fun r => r.typ == 1 && r.id == g) ∨ !d.telRoom (ceilTo 64 (64 + 8 * ms.length)) then
    (d.bump (Reg.telGrpSkips g)).onTel (fun t => { t with skipped := tblPut t.skipped g (tblGetD t.skipped g 0 + 1) })
  else
    let values := ms.zipIdx.map (fun e => if poisoned.contains e.2 then 0 else d.memberValue (memberRef e.1))
    let bad := poisoned.filter (fun m => decide (m < ms.length))
    let r : RingRec := ⟨1, g, ms.length, fuToTime96 d.now, d.sched.cur, tblGetD d.tel.skipped g 0, d.tel.stepped.contains g,
      bad.foldl (fun a m => withBit a m true) 0, values.flatMap (beBytes 8)⟩
    let d := d.each (ms.zip values) (fun e x => if memberClear e.1 then x.latchClear (memberRef e.1) e.2 else x)
    let d := d.each bad (fun _ x => x.consumed 11 0x9FF0)
    let d := d.onTel (fun t => { t with skipped := tblDel t.skipped g, stepped := t.stepped.filter (· != g) })
    let d := (d.setDom (Reg.telGrpRecord g).ref (recBytes false r)).bump (Reg.telGrpDumps g)
    let d := if dest = 0 ∨ dest = 2 then d.queueRec r else d
    if dest = 0 then d else d.notice (Reg.telGrpRecord g) (recBytes false r)

/-- COUNTER_GROUP_DUMP: an action of class 0x0005 fires: its group latches; a periodic group's next action is created. -/
def execCounterGroupDump (handle : BitVec 32) (poisoned : List Nat) (poison : Bool) (s : State) : Host.Outcome State Fault Refusal :=
  onDev s (fun d =>
    if d.dead then d
    else d.fire handle.toNat 0x0005 poison (fun a d =>
      let g := a.args.headD 0
      let d := d.latch g poisoned
      .ok (if a.origin = .device then d.scheduleLatch g else d)))

/-! ### The ring (R455, R456) -/

/-- Bytes of the ring region. -/
def ringBytes : Nat := 2 ^ 32

/-- A record would overwrite bytes that an open transfer of TEL_RING_DATA covers. -/
def Device.ringHeld (d : Device) (stop : Nat) : Bool :=
  match d.tel.reading with
  | some (a, b) => decide (a < b ∧ a + ringBytes < stop)
  | none => false

/-- RING_RECORD_WRITE: HBM takes the record that has waited longest: it goes to the ring over the oldest ones, or is dropped where an open transfer
covers them. -/
def execRingRecordWrite (s : State) : Host.Outcome State Fault Refusal :=
  onDev s (fun d =>
    match d.tel.waiting with
    | [] => d
    | r :: rest =>
      let d := d.onTel (fun t => { t with waiting := rest })
      let at_ := d.get Reg.telRingWrite
      let stop := at_ + recSize r
      if d.ringHeld stop then (d.bump Reg.telRingDrops).onTel (fun t => { t with lost := true })
      else
        let ring := (d.tel.ring ++ [(at_, recBytes d.tel.lost r)]).filter (fun e => decide (stop ≤ e.1 + ringBytes))
        let lost := d.tel.lost && r.typ == 4
        let d := d.onTel (fun t => { t with ring := ring, lost := lost })
        (d.set Reg.telRingWrite stop).set Reg.telRingOldest ((ring.head?.map (·.1)).getD stop))

/-- Why TEL_RING_FROM written v is refused. -/
def ringFromCheck (v : Nat) (d : Device) : Option Err :=
  if v < d.get Reg.telRingOldest ∨ d.get Reg.telRingWrite ≤ v then some (err stInvalidValue) else none

/-- TEL_RING_FROM. -/
def execTelRingFrom (q : Req) (v : Val) (s : State) : Host.Outcome State Fault Refusal :=
  onDev s (fun d => d.serve q 2 1 true Reg.telRingFrom.ref (fun _ d =>
    d.plainWrite Reg.telRingFrom q v (fun d =>
      match ringFromCheck v.raw d with
      | some e => (d, .fail e)
      | none => (d.putValue Reg.telRingFrom v.raw, okWrite))))

/-- TEL_RING_DATA: the whole records from TEL_RING_FROM on, up to 12 MiB. -/
def takeRecords : Nat → List (Nat × List Nat) → List Nat
  | _, [] => []
  | room, e :: r => if e.2.length ≤ room then e.2 ++ takeRecords (room - e.2.length) r else []
def Device.ringData (d : Device) : List Nat :=
  takeRecords (12 * 2 ^ 20) (d.tel.ring.filter (fun e => decide (d.get Reg.telRingFrom ≤ e.1)))

/-! ### Sweeps (R457, R458) -/

/-- The sweep of a set. -/
def Device.sweep? (d : Device) (set : Nat) : Option Sweep := tblGet d.tel.sweeps set

/-- A sweep begins: its start record, and with TEL_SWEEP_PERIOD the device's action for the next start (R28, R457). -/
def Device.beginSweep (d : Device) (set : Nat) : Device :=
  let left := if set = 0 then (d.pkt.flows.filter (·.2.valid)).map (·.1) else []
  let r : RingRec := ⟨2, set + 1, 0, fuToTime96 d.now, d.sched.cur, 0, d.tel.stepped.contains (33 + set), 0, []⟩
  let d := d.queueRec r
  let d := d.onTel (fun t => { t with
    sweeps := tblPut t.sweeps set ⟨d.now, [], 0, left, d.now⟩, due := t.due.filter (· != set), stepped := t.stepped.filter (· != 33 + set) })
  let d := (d.set (Reg.telSweepState set) 2).set (Reg.telSweepLastStart set) (fuToTime96 d.now)
  let p := d.get (Reg.telSweepPeriod set)
  if p = 0 then d
  else d.scheduleOwn { newAction .calendar .device 0x0008 (Reg.telSweepStart set).ref (fuToTime96 (d.now + p * fuSec)) 1 with late1 := d.get Reg.schedLatePolicy == 1 }

/-- A start falls due: it begins, or waits for the sweep that runs, counted (R457). -/
def Device.sweepDue (d : Device) (set : Nat) : Device :=
  if (d.sweep? set).isSome then
    ((d.bump (Reg.telSweepLate set)).set (Reg.telSweepState set) 3).onTel (fun t => { t with due := t.due.filter (· != set) ++ [set] })
  else d.beginSweep set

/-- TEL_SWEEP_START: an action; a value other than 1 starts nothing when it fires. -/
def execTelSweepStart (q : Req) (set : Fin 3) (v : Val) (s : State) : Host.Outcome State Fault Refusal :=
  onDev s (fun d => d.serve q 2 1 true (Reg.telSweepStart set).ref (fun _ d => d.actionWrite (Reg.telSweepStart set) q v .calendar 0x0008 []))

/-- Effect of TEL_SWEEP_START written v when its action or its bundle fires. -/
def applySweepStart (set v : Nat) (d : Device) : Device := if v = 1 then d.sweepDue set else d

/-- SWEEP_START: the host's action fires and its sweep starts at the boundary; or (handle 0) a start that waited follows the sweep that has ended. -/
def execSweepStart (set : Fin 3) (handle : BitVec 32) (poison : Bool) (s : State) : Host.Outcome State Fault Refusal :=
  onDev s (fun d =>
    if d.dead then d
    else if handle = 0 then
      (if d.tel.due.contains set.val ∧ (d.sweep? set).isNone then d.takeSeq.beginSweep set else d)
    else
      match d.action? handle.toNat with
      | some a => if a.origin = .device then d else d.fireOn handle.toNat 0x0008 (Reg.telSweepStart set).ref 1 poison (fun _ d => .ok (applySweepStart set 1 d))
      | none => d)

/-- SWEEP_PERIOD_DUE: the device's own action for the next start of a periodic sweep fires; with TEL_SWEEP_PERIOD back at 0 nothing starts. -/
def execSweepPeriodDue (set : Fin 3) (handle : BitVec 32) (poison : Bool) (s : State) : Host.Outcome State Fault Refusal :=
  onDev s (fun d =>
    match d.action? handle.toNat with
    | some a =>
      if d.dead ∨ a.origin ≠ .device then d
      else d.fireOn handle.toNat 0x0008 (Reg.telSweepStart set).ref 1 poison (fun _ d =>
        .ok (if d.get (Reg.telSweepPeriod set) = 0 then d else d.sweepDue set))
    | none => d)

/-- Calendar cycles from a sweep's start to now. -/
def Device.sweepCycle (d : Device) (w : Sweep) : Nat := (d.now - w.startAt) / fuCycle % 2 ^ 32

/-- The first 48 bits of an item. -/
def itemHead (set cycle : Nat) : List Nat := beBytes 1 4 ++ beBytes 1 (set + 1) ++ beBytes 4 cycle

/-- The item of a flow (Table 19.5). -/
def flowItem (cycle key position : Nat) (f : Flow) : List Nat :=
  let g := foldFlow f
  itemHead 0 cycle ++ beBytes 4 position ++ beBytes 40 key ++
    beBytes 8 g.recPkts ++ beBytes 8 g.recBytes ++ beBytes 8 g.recPoliced ++ beBytes 8 g.recRefused ++ List.replicate 46 0

/-- The item of a queue. -/
def queueItem (cycle q : Nat) (x : PktQueue) : List Nat :=
  itemHead 1 cycle ++ beBytes 4 (q * 2 ^ 14) ++ beBytes 8 x.accepted ++ beBytes 8 x.refused ++ beBytes 8 x.policed ++ beBytes 8 x.rewound ++
    beBytes 8 (queueDepth x) ++ beBytes 8 x.peak ++ List.replicate 6 0

/-- The item of a slice group. -/
def Device.groupItem (d : Device) (cycle g : Nat) : List Nat :=
  itemHead 2 cycle ++ beBytes 2 g ++ beBytes 1 (d.groupShown g 3) ++ beBytes 1 (d.groupShown g 4) ++ beBytes 1 (d.groupShown g 5) ++
    beBytes 1 (d.groupShown g 6) ++ beBytes 4 (d.groupShown g 13) ++ beBytes 4 (d.groupShown g 10) ++ beBytes 4 (d.groupShown g 11) ++
    beBytes 4 (d.groupShown g 9) ++ List.replicate 36 0

/-- A sweep that reads a flow adds its short counts to the counter record (R226); with TEL_SWEEP_CLEAR the counts an item carries are reduced by what was
read (R458). -/
def Device.clearItem (d : Device) (set i : Nat) : Device :=
  if set = 0 then
    let clear := d.on (Reg.telSweepClear 0)
    d.onFlow (some i) (fun f => if clear then { foldFlow f with recPkts := 0, recBytes := 0, recPoliced := 0, recRefused := 0 } else foldFlow f)
  else if !d.on (Reg.telSweepClear set) then d
  else if set = 1 then
    let x := d.queue i
    d.putQueue i { x with accepted := 0, refused := 0, policed := 0, rewound := 0, peak := 0 }
  else
    let x := d.grp i
    d.putGrp i { x with hdrErrors := 0, switches := 0, realigns := 0 }

/-- An item is written; the next may be read one TEL_SWEEP_RATE-th of a second later (R458). -/
def Device.writeItem (d : Device) (set i : Nat) (w : Sweep) (body : List Nat) : Device :=
  let next := max w.nextAt d.now + ceilDiv fuSec (d.get (Reg.telSweepRate set))
  let d := d.queueRec ⟨4, set + 1, 0, 0, 0, 0, false, 0, body⟩
  let d := d.clearItem set i
  d.onTel (fun t => { t with sweeps := tblPut t.sweeps set { w with done := w.done ++ [i], items := w.items + 1, left := w.left.filter (· != i), nextAt := next } })

/-- A sweep ends: its end record; a start that waits may follow. A count of items beyond 16 bits has no stated value (assumption 22). -/
def Device.endSweep (d : Device) (set : Nat) (w : Sweep) : Device :=
  let n := if w.items < 65536 then w.items else Config.unstated d.free % 65536
  let d := if w.items < 65536 then d else { d with free := d.free + 1 }
  let d := d.queueRec ⟨3, set + 1, n, fuToTime96 d.now, d.sched.cur, 0, d.tel.stepped.contains (33 + set), 0, []⟩
  let d := d.onTel (fun t => { t with sweeps := tblDel t.sweeps set, stepped := t.stepped.filter (· != 33 + set) })
  (d.set (Reg.telSweepLastEnd set) (fuToTime96 d.now)).set (Reg.telSweepState set) (if d.tel.due.contains set then 3 else 0)

/-- The next queue or group of a sweep: the lowest above the last. -/
def nextOf (done l : List Nat) : Option Nat :=
  ((l.filter (fun i => done.all (· < i))).foldl (fun a i => match a with | none => some i | some b => some (min b i)) none)

/-- SWEEP_ITEM_READ: a sweep reads its next item and writes it to the ring, or ends with none left. Of the flow table the order is physical: `flow` is the
entry at its next position (key and position); without one the sweep ends once every flow valid throughout is written. While the output buffer is full,
and before the rate lets the next item come, the read waits (R458, R460). -/
def execSweepItemRead (set : Fin 3) (flow : Option (BitVec 320 × BitVec 32)) (s : State) : Host.Outcome State Fault Refusal :=
  onDev s (fun d =>
    match d.sweep? set with
    | none => d
    | some w =>
      if d.dead ∨ !d.telRoom 128 ∨ !d.comes w.nextAt then d
      else
        let c := d.sweepCycle w
        let d := d.takeSeq
        if set.val = 0 then
          match flow with
          | some (k, pos) =>
            (match (tblGet d.pkt.flows k.toNat).filter (·.valid) with
            | some f => if w.done.contains k.toNat then d else d.writeItem 0 k.toNat w (flowItem c k.toNat pos.toNat f)
            | none => d)
          | none => if w.left.any (fun k => ((tblGet d.pkt.flows k).filter (·.valid)).isSome) then d else d.endSweep 0 w
        else if set.val = 1 then
          match nextOf w.done ((d.pkt.queues.filter (fun e => qcEnable e.2.cfg)).map (·.1)) with
          | some i => d.writeItem 1 i w (queueItem c i (d.queue i))
          | none => d.endSweep 1 w
        else
          match nextOf w.done d.fab.active.groupList with
          | some g => d.writeItem 2 g w (d.groupItem c g)
          | none => d.endSweep 2 w)

/-! ### Bandwidth windows (R459) -/

/-- b/s of n bytes over a number of calendar cycles. -/
def bwRate (n cycles : Nat) : Nat := roundDiv (n * 8 * 10000000) (cycles * 128)

/-- A bandwidth window ends at this boundary: the first at or after a whole multiple of TEL_BW_WINDOW. -/
def Device.bwEnds (d : Device) : Bool :=
  let w := d.get Reg.telBwWindow * fuMs
  decide (d.now % fuCycle = 0 ∧ 0 < d.tel.bwCycles ∧ d.now < d.now / w * w + fuCycle)

/-- Rates and peaks of one direction: bytes counted under the key of each port. -/
def Device.bwRates (d : Device) (rate peak : Nat → Obj) (key : Nat) : Device :=
  d.each (List.range 66) (fun p x =>
    let r := bwRate (tblGetD x.tel.bwBytes (key + p) 0).toNat x.tel.bwCycles
    let x := x.set (rate p) r
    if x.get (peak p) < r then x.set (peak p) r else x)

/-- BW_WINDOW_END: the bytes counted in the window at each port become rates. -/
def execBwWindowEnd (s : State) : Host.Outcome State Fault Refusal :=
  onDev s (fun d =>
    if d.dead ∨ !d.bwEnds then d
    else
      let d := d.takeSeq
      let d := (d.bwRates Reg.telBwIn Reg.telBwPeakIn 0).bwRates Reg.telBwOut Reg.telBwPeakOut 0x80
      let d := (d.set Reg.telBwEnd (fuToTime96 d.now)).set Reg.telBwFlags (b2n d.tel.bwStep)
      d.onTel (fun t => { t with bwCycles := 0, bwStep := false, bwBytes := [] }))

end Sys2Proof.Machine
end

