-- ==== Sys2Proof/Machine/Power.lean ====
section
/-! DEFINITION. Firmware images and power states (chapter 20, R466 to R480). -/

namespace Sys2Proof.Machine

/-! ### Images (R466 to R470) -/

/-- An image is valid (R466): 256 bytes of header and a body of its LENGTH that fits the slot. -/
def imageValid (minRollback : Nat) (bs : List Nat) : Bool :=
  let h := ofBytes (bs.take 256)
  decide (256 ≤ bs.length ∧ imMagic h = 0x5658494D ∧ imFormat h = 1 ∧ imLength h ≤ 12582656 ∧ bs.length = 256 + imLength h ∧ minRollback ≤ imRollback h) &&
    bits h 1791 1408 == sha384 (bs.drop 256) && Config.imageSigned (bs.take 80) ((bs.drop 80).take 96)

/-- The slot an image goes to: the one not in use; in recovery the one PWR_IMG_PREFER names (R468, R469). -/
def Device.idleSlot (d : Device) : Nat := if 2 ≤ d.pwr.active then d.pwr.prefer else 1 - d.pwr.active

/-- A slot takes a state and a header. -/
def Device.putSlot (d : Device) (k st header : Nat) : Device :=
  d.onPwr (fun p => { p with slots := p.slots.put k { p.slots.at k with state := st, header := header, fails := 0 } })

/-- PWR_IMG_DATA written by BLOCK (R469): an invalid image is refused and leaves the slot as it was; a valid one is written, its slot invalid until the
last line is durable. -/
def writeImage (bs : List Nat) (d : Device) : Device × Reply :=
  if imageValid d.pwr.rollback bs then
    let k := d.idleSlot
    let h := ofBytes (bs.take 256)
    (((d.putSlot k 2 h).onPwr (fun p => { p with writing := some (k, h) })).showImages, .ok [])
  else (d, .fail (err stInvalidValue))

/-- PWR_IMG_DATA. -/
def execPwrImgData (q : Req) (crc : BitVec 32) (s : State) : Host.Outcome State Fault Refusal :=
  onDev s (fun d => d.serve q 5 2 true Reg.pwrImgData.ref (fun _ d => d.takeBlock q Reg.pwrImgData.ref crc.toNat writeImage))

/-- PWR_IMG_SWITCH written v (R470): not the slot in use, not during a trial. -/
def imgSwitchCheck (v : Nat) (d : Device) : Option Err :=
  if v = d.pwr.active ∨ d.pwr.trial then some (err stNotPermitted) else none

/-- PWR_IMG_SWITCH: an action of class 0x0006, kind PPS. -/
def writeImgSwitch (q : Req) (v : Val) (d : Device) : Device × Reply :=
  match imgSwitchCheck v.raw d with
  | some e => d.refuseAction e
  | none => if 1 < v.raw then d.refuseAction (err stInvalidValue) else d.actionWrite Reg.pwrImgSwitch q v .pps 0x0006 []

/-- PWR_IMG_SWITCH. -/
def execPwrImgSwitch (q : Req) (v : Val) (s : State) : Host.Outcome State Fault Refusal :=
  onDev s (fun d => d.serve q 2 2 true Reg.pwrImgSwitch.ref (fun _ d => writeImgSwitch q v d))

/-- FIRMWARE_IMAGE_SWITCH: the action fires: a control restart into the named slot, on trial; a slot that is not valid fails it (R470). -/
def execFirmwareImageSwitch (handle : BitVec 32) (poison : Bool) (s : State) : Host.Outcome State Fault Refusal :=
  onDev s (fun d =>
    if d.dead then d
    else d.fire handle.toNat 0x0006 poison (fun a d =>
      if (d.pwr.slots.at a.value).state = 1 then
        .ok (((d.set Reg.pwrImgSwitch a.value).onPwr (fun p => { p with active := a.value, trial := true })).controlRestart.showImages)
      else .error (errObj stNotPermitted (Reg.pwrImgState a.value).ref)))

/-- PWR_IMG_CONFIRM written v: 1 during a trial makes the slot the one booted and raises the rollback level. -/
def applyImgConfirm (v : Nat) (d : Device) : Device :=
  if v = 1 ∧ d.pwr.trial then
    (d.onPwr (fun p => { p with
      trial := false, prefer := p.active, rollback := max p.rollback (imRollback (p.slots.at p.active).header) })).showImages
  else d

/-- PWR_IMG_CONFIRM. -/
def execPwrImgConfirm (q : Req) (v : Val) (s : State) : Host.Outcome State Fault Refusal :=
  onDev s (fun d => d.serve q 2 2 true Reg.pwrImgConfirm.ref (fun _ d =>
    d.plainWrite Reg.pwrImgConfirm q v (fun d => (applyImgConfirm v.raw d, okWrite))))

/-- IMAGE_TRIAL_EXPIRY: PWR_IMG_TRIAL without a confirm: a control restart into the other slot, a fallback counted; stale without a trial. -/
def execImageTrialExpiry (s : State) : Host.Outcome State Fault Refusal :=
  onDev s (fun d =>
    if d.dead then d
    else
      let d := d.takeSeq
      if d.pwr.trial then
        ((d.onPwr (fun p => { p with active := 1 - p.active, trial := false })).controlRestart.bump Reg.pwrImgFallbacks).showImages
      else d.stale)

/-! ### The decoder pool (R479) -/

/-- PWR_FEC_ACTIVE written v: the pool load must stay within 4 v − 8 slots. -/
def fecActiveCheck (v : Nat) (d : Device) : Option Err := if overLoad d.poolLoad (4 * v - 8) then some (err stInvalidCombination) else none

/-- Effect of PWR_FEC_ACTIVE. -/
def applyFecActive (v : Nat) (d : Device) : Device := (d.putValue Reg.pwrFecActive v).set Reg.fecPoolSlots (4 * v)

/-- PWR_FEC_ACTIVE. -/
def execPwrFecActive (q : Req) (v : Val) (s : State) : Host.Outcome State Fault Refusal :=
  onDev s (fun d => d.serve q 2 1 true Reg.pwrFecActive.ref (fun _ d =>
    d.plainWrite Reg.pwrFecActive q v (fun d =>
      match fecActiveCheck v.raw d with
      | some e => (d, .fail e)
      | none => (applyFecActive v.raw d, okWrite))))

/-! ### Idleness and next known use (R34, R474) -/

/-- The sleeping resources of Table 20.4. -/
def resourceList : List Nat :=
  [resHbm] ++ (List.range 20).map resEngine ++ (List.range 64).map (· + 512) ++ (List.range 80).map (· + 768)

/-- The class of a resource. -/
def resClass (r : Nat) : Nat := r / 256

/-- A group's records go to the ring, or a sweep runs or will. -/
def Device.ringNeeded (d : Device) : Bool :=
  !d.tel.waiting.isEmpty || !d.tel.sweeps.isEmpty || !d.tel.due.isEmpty ||
    d.sched.actions.any (fun a =>
      (a.cls == 0x0005 && d.get (Reg.telGrpDest (a.args.headD 0)) != 1) || [0, 1, 2].any (fun k => a.target == (Reg.telSweepStart k).ref))

/-- A resource is idle (Table 20.4). -/
def Device.idle (d : Device) (r : Nat) : Bool :=
  match resClass r with
  | 0 =>
    !d.pkt.queues.any (fun e => qcEnable e.2.cfg) && !d.pkt.flows.any (·.2.valid) && d.fab.active.hitless.isEmpty && d.fab.next.hitless.isEmpty &&
      d.get Reg.twinMirrorState == 0 && !d.ringNeeded && d.tel.reading.isNone
  | 1 => decide (d.get Reg.pwrFecActive ≤ r - 256) || !(d.on (Reg.lineRxEnable 0) || d.on (Reg.lineRxEnable 1))
  | 2 =>
    let c := (r - 512) / 32
    let sc := (r - 512) / 2 % 16
    if r % 2 = 0 then d.get (Reg.hubDsCode c sc) == 0
    else !(d.scsGranted c).contains sc && !(d.get (Reg.hubDiscState c) == 1 && d.get (Reg.hubDiscSc c) == sc)
  | _ =>
    let l := (r - 768) / 2
    if l < 32 then
      match d.portOf l with
      | some p => !bitAt (d.get (Reg.lanePortEnable p)) (r % 2)
      | none => true
    else !bitAt (d.get Reg.laneMateEnable) (l - 32) || !d.twin.enabled

/-- The use an action makes of a resource it names: its boundary; a grant switch's, the first upstream cycle under its table (R172). -/
def Device.useAt (d : Device) (a : Action) : Nat :=
  let b := a.armed.getD (d.eligible a)
  if a.cls = 0x000A then
    let c := grantCarrier a
    (cycleAt b + d.get (Reg.hubGrantLead c) + d.get (Reg.hubEqCycles c)) * fuCycle
  else b

/-- The next known use of a resource (R34). -/
def Device.nextUse (d : Device) (r : Nat) : Option Nat :=
  (d.sched.actions.filter (fun a => a.cls != 0x0007 && a.needs.contains r)).foldl
    (fun t a => some (match t with | none => d.useAt a | some x => min x (d.useAt a))) none

/-- The need time: the next known use less PWR_MARGIN (R475). -/
def Device.needTime (d : Device) (r : Nat) : Option Nat := (d.nextUse r).map (· - d.get Reg.pwrMargin * fuUs)

/-- The last calendar boundary from which a wake out of state p ends by t. -/
def wakeBoundary (t p : Nat) : Nat := (t - wakeTime p) / fuCycle * fuCycle

/-- The deepest state an idle resource may take now: its wake, begun at the last boundary before it, ends by the need time, after the entry's own boundary
(R475); 0: none. -/
def Device.chooseState (d : Device) (r : Nat) : Nat :=
  let top := d.get (Reg.pwrMaxState (resClass r))
  let fits (p : Nat) : Bool := match d.needTime r with
    | none => true
    | some t => decide (ceilTo fuCycle (d.now + fuArm + 1) ≤ wakeBoundary t p)
  ([1, 2, 3].filter (fun p => decide (p ≤ top) && fits p)).foldl max 0

/-! ### Entries and wakes (R475, R476) -/

/-- The device's own unarmed power action of a resource leaves the schedule as cancelled (R37). -/
def Device.dropPower (d : Device) (a : Action) : Device := if a.armed.isNone then (d.dropAction a.handle).outcome a 3 none else d

/-- A resource that a use needs: at once where its time has come, else by a wake action (R476). -/
def Device.planWake (d : Device) (r t : Nat) : Device :=
  let b := wakeBoundary t (d.resource r).state
  let new := newAction .calendar .device 0x0007 0 (fuToTime96 b) 0
  let wake := { new with args := [1, r], late1 := true }
  match d.powerAction r with
  | some a =>
    if a.bake = wake.bake ∨ a.armed.isSome ∨ a.args.head? = some 0 then d
    else if b < d.now + fuArm then (d.dropPower a).wake r
    else (d.dropPower a).scheduleOwn wake
  | none => if b < d.now + fuArm then d.wake r else d.scheduleOwn wake

/-- An entry into state p takes the place of what is pending for the resource, unless that is this entry already or is armed. -/
def Device.planEntry (d : Device) (r p : Nat) : Device :=
  let enter (x : Device) : Device := x.scheduleOwn { newAction .calendar .device 0x0007 0 0 0 with args := [0, r, p] }
  match d.powerAction r with
  | some a => if a.armed.isSome ∨ a.args = [0, r, p] then d else enter (d.dropPower a)
  | none => enter d

/-- The choice for one resource, made afresh (R475, R476): an idle one goes to the deepest state that fits, from P0 or from a lighter sleep;
one asleep that nothing deeper fits plans its wake. -/
def Device.powerChoice (d : Device) (r : Nat) : Device :=
  let x := d.resource r
  let p := d.chooseState r
  if x.waking then d
  else if !d.idle r then
    let d := match d.powerAction r with | some a => d.dropPower a | none => d
    if x.state = 0 then d else d.wake r
  else if x.state < p then d.planEntry r p
  else
    let d := match d.powerAction r with
      | some a => if a.args.head? = some 0 then d.dropPower a else d
      | none => d
    if x.state = 0 then d
    else
      match d.needTime r with
      | some t => d.planWake r t
      | none => match d.powerAction r with
        | some a => d.dropPower a
        | none => d

/-- The choice for every resource. -/
def Device.powerChoices (d : Device) : Device := d.each resourceList (fun r x => x.powerChoice r)

/-- What a sleep in P3 loses, and what sleeping lanes and stacks show (R478, Table 20.4). -/
def Device.entered (d : Device) (r p : Nat) : Device :=
  if r = resHbm then
    let d := d.each (List.range 4) (fun k x => if x.get (Reg.memStackState k) = 1 then x.set (Reg.memStackState k) 2 else x)
    if p = 3 then
      { d with mem := { d.mem with hbm := [] } }.onTel (fun t => { t with ring := [] })
    else d
  else if 768 ≤ r then
    let l := (r - 768) / 2
    if 32 ≤ l then d
    else
      match d.portOf l with
      | some p => d.laneStart l (bitAt (d.get (Reg.lanePortEnable p)) 0) (bitAt (d.get (Reg.lanePortEnable p)) 1)
      | none => d.laneStart l false false
  else d

/-- A resource enters a state, counted; its action's place passes to its wake (R28, R476). -/
def Device.enterState (d : Device) (a : Action) (r p : Nat) : Device :=
  ({ d with resources := tblSet d.resources r ⟨p, false, 0, a.hostPlace⟩ ⟨0, false, 0, a.hostPlace⟩ }.bump Reg.pwrEntries).entered r p

/-- POWER_STATE_ENTRY: an entry fires: the resource enters its state (R476). -/
def execPowerStateEntry (handle : BitVec 32) (poison : Bool) (s : State) : Host.Outcome State Fault Refusal :=
  onDev s (fun d =>
    if d.dead then d
    else d.fire handle.toNat 0x0007 poison (fun a d =>
      match a.args with
      | [0, r, p] => .ok (d.enterState a r p)
      | [1, r] => .ok (d.wake r)
      | _ => .ok d))

/-- POWER_STATE_WAKE: a wake fires: the resource starts to wake (R476). -/
def execPowerStateWake (handle : BitVec 32) (poison : Bool) (s : State) : Host.Outcome State Fault Refusal :=
  onDev s (fun d =>
    if d.dead then d
    else d.fire handle.toNat 0x0007 poison (fun a d =>
      match a.args with
      | [1, r] => .ok (d.wake r)
      | [0, r, p] => .ok (d.enterState a r p)
      | _ => .ok d))

/-- A waking resource is in P0: stacks are ready again, with a ring that starts anew after P3 (R478); a lane trains or locks again (R381). -/
def Device.awake (d : Device) (r : Nat) : Device :=
  let p := (d.resource r).state
  let d := { d with resources := tblDel d.resources r }
  if r = resHbm then
    let d := d.each (List.range 4) (fun k x => if x.get (Reg.memStackState k) = 2 then x.set (Reg.memStackState k) 1 else x)
    if p = 3 then d.set Reg.telRingOldest (d.get Reg.telRingWrite) else d
  else d.entered r 0

/-- PWR_STATE_LIST: per resource class, number, state, waking, next known use (Table 20.6). -/
def Device.stateList (d : Device) : List Nat :=
  resourceList.flatMap (fun r =>
    let x := d.resource r
    beBytes 1 (resClass r) ++ beBytes 1 (r % 256) ++ beBytes 1 x.state ++ beBytes 1 (b2n x.waking) ++ beBytes 12 (((d.nextUse r).map fuToTime96).getD 0))

end Sys2Proof.Machine
end

