-- ==== Sys2Proof/Machine/Store.lean ====
section
/-! DEFINITION. The dictionary store: saving, restoring, importing, and the rewriting of DOMAIN slots (chapter 18, R434 to R446). -/

namespace Sys2Proof.Machine

def Device.onStore (d : Device) (f : Store → Store) : Device := { d with store := f d.store }

/-- The reference names a stored object (R434): a scalar RW or RWS object that is kept, or a DOMAIN of Table 18.6. -/
def storedRef (ref : Nat) : Bool :=
  match rowIn objRows ref with
  | some r => if r.ty = tyDomain then (slotSize ref).isSome else (r.access == .rw || r.access == .rws) && storedScalar ref
  | none => false

/-- The contents a slot holds in force: the newest change, if it fits. -/
def DomSlot.inForce (ref : Nat) (x : DomSlot) : Option (List Nat) :=
  match x.next with
  | some bs => slotValue ref bs
  | none => x.value

/-- The slots that hold contents: reference, GEN and contents. -/
def slotContents (l : List (Nat × DomSlot)) : List (Nat × Nat × List Nat) :=
  l.filterMap (fun e => (e.2.inForce e.1).map (fun bs => (e.1, (if e.2.next.isSome then e.2.gen + 1 else e.2.gen) % 2 ^ 32, bs)))

/-- The header of the saved image as the objects show it: DICT_SAVED_TIME, DICT_SAVED_GEN, bit [3] of DICT_STORE_STATE. -/
def Device.showSaved (d : Device) : Device :=
  ((d.set Reg.dictSavedTime (if d.store.saved.valid then fuToTime96 d.store.saved.time else 0)).set Reg.dictSavedGen d.store.saved.gen).setBit
    Reg.dictStoreState 3 (!d.store.saved.valid)

/-- A save or an import runs: the object a further request names (R442). -/
def Device.storeBusy (d : Device) : Option Err := if d.store.saving.isSome ∨ d.store.loading then some (errObj stInUse Reg.dictSave.ref) else none

/-- DICT_SAVE written v (R442): 1 takes the values in force now and clears the saved image's header. -/
def applySave (v : Nat) (d : Device) : Device × Reply :=
  match d.storeBusy with
  | some e => (d, .fail e)
  | none =>
    if v = 0 then (d, okWrite)
    else
      let im : SavedImage :=
        ⟨true, (d.store.saved.gen + 1) % 2 ^ 32, d.now, d.store.live.map (fun e => (e.1, e.2.gen, e.2.value)), slotContents d.store.liveDoms⟩
      let d := d.onStore (fun s => { s with saving := some im, saved := { s.saved with valid := false } })
      (d.each blockIndices (fun b x => x.set (blkChanged b) 0), okWrite)

/-- DICT_SAVE. -/
def execDictSave (q : Req) (v : Val) (s : State) : Host.Outcome State Fault Refusal :=
  onDev s (fun d => d.serve q 2 1 true Reg.dictSave.ref (fun _ d => d.plainWrite Reg.dictSave q v (fun d => applySave v.raw d)))

/-- DICT_SAVE_COMPLETE: the header is written and a notice sent (R442). -/
def execDictSaveComplete (s : State) : Host.Outcome State Fault Refusal :=
  onDev s (fun d =>
    match d.store.saving with
    | some im =>
      if d.dead then d
      else ((d.takeSeq.onStore (fun s => { s with saving := none, saved := im })).showSaved).notice Reg.dictSave [im.gen]
    | none => d)

/-- The level a value of DICT_RESTORE needs: 2 and 3 an installer session (R443). -/
def restoreLevel (v : Nat) : Nat := if 2 ≤ v then 2 else 1

/-- DICT_RESTORE written v (R443). -/
def applyRestore (v : Nat) (d : Device) : Device × Reply :=
  match d.storeBusy with
  | some e => (d, .fail e)
  | none =>
    if v = 1 ∧ !d.store.saved.valid then (d, .fail (err stNotPermitted))
    else (((d.set Reg.dictRestore v).setBit Reg.dictStoreState 4 (v != 0)).onStore (fun s => { s with request := v }), okWrite)

/-- A write of value v to DICT_RESTORE. -/
def writeRestore (v : Nat) (q : Req) (d : Device) : Device :=
  d.serve q 2 (restoreLevel v) true Reg.dictRestore.ref (fun _ d => d.plainWrite Reg.dictRestore q ⟨1, v⟩ (applyRestore v))

/-- DICT_RESTORE_CANCEL. -/
def execDictRestoreCancel (q : Req) (s : State) : Host.Outcome State Fault Refusal := onDev s (writeRestore 0 q)

/-- DICT_RESTORE_SAVED. -/
def execDictRestoreSaved (q : Req) (s : State) : Host.Outcome State Fault Refusal := onDev s (writeRestore 1 q)

/-- DICT_RESTORE_DEFAULTS. -/
def execDictRestoreDefaults (q : Req) (s : State) : Host.Outcome State Fault Refusal := onDev s (writeRestore 2 q)

/-- DICT_RESTORE_KEEP_COMM. -/
def execDictRestoreKeepComm (q : Req) (s : State) : Host.Outcome State Fault Refusal := onDev s (writeRestore 3 q)

/-! ### The form of an image (R444) -/

/-- A record's REF, TYPE, GEN, VALUE and reserved bits: the 28 bytes that CHECK covers (Table 18.7). -/
def recordBody (ref ty gen width v : Nat) : List Nat :=
  beBytes 3 ref ++ beBytes 1 ty ++ beBytes 4 gen ++ (beBytes (width / 8) v ++ List.replicate 16 0).take 16 ++ beBytes 4 0

/-- A stored scalar's record. -/
def storeRecord (ref gen v : Nat) : List Nat :=
  match rowIn objRows ref with
  | some r =>
    let l := recordBody ref r.ty gen (8 * (rowObj r ref).bytes) v
    l ++ beBytes 4 (crc32 l)
  | none => []

/-- The 32-byte header of a slot with these contents. -/
def slotHead (ref gen : Nat) (bs : List Nat) : List Nat := (Config.slotHeader ref gen bs.length (crc32 bs) ++ List.replicate 32 0).take 32

/-- The records and slots of the saved image. -/
def SavedImage.body (s : SavedImage) : List Nat :=
  s.scalars.flatMap (fun e => storeRecord e.1 e.2.1 e.2.2) ++ s.domains.flatMap (fun e => slotHead e.1 e.2.1 e.2.2 ++ e.2.2)

/-- The saved image: its header, then its records, then the header and contents of each stored DOMAIN. -/
def SavedImage.bytes (s : SavedImage) : List Nat := Config.savedHeader s.scalars.length s.gen s.time (crc32 s.body) ++ s.body

/-- A record's reference, GEN and value: its CHECK is right, and its REF names a stored scalar of its TYPE. -/
def readRecord (l : List Nat) : Option (Nat × Nat × Nat) :=
  let ref := ofBytes (l.take 3)
  match rowIn objRows ref with
  | some r =>
    if l.length = 32 ∧ ofBytes (l.drop 28) = crc32 (l.take 28) ∧ storedRef ref = true ∧ r.ty ≠ tyDomain ∧ l.getD 3 0 = r.ty then
      some (ref, ofBytes ((l.drop 4).take 4), ofBytes ((l.drop 8).take (rowObj r ref).bytes))
    else none
  | none => none

/-- A DOMAIN's reference, GEN and contents (none: over its slot), with the bytes behind it: a stored DOMAIN whose slot fits and whose CRC-32 is right. -/
def readSlot (bs : List Nat) : Option ((Nat × Nat × Option (List Nat)) × List Nat) :=
  match Config.readSlotHeader (bs.take 32) with
  | none => none
  | some (ref, gen, n, crc) =>
    if (slotSize ref).isNone ∨ bs.length < 32 then none
    else if n = 0xFFFFFFFF then some ((ref, gen, none), bs.drop 32)
    else
      let l := (bs.drop 32).take n
      if l.length = n ∧ crc32 l = crc ∧ (slotValue ref l).isSome = true then some ((ref, gen, some l), bs.drop (32 + n)) else none

/-- The DOMAINs of an image. Fuel bounds their number. -/
def readSlots : Nat → List Nat → Option (List (Nat × Nat × List Nat))
  | _, [] => some []
  | 0, _ :: _ => none
  | f + 1, b :: r =>
    match readSlot (b :: r) with
    | none => none
    | some (x, rest) =>
      (readSlots f rest).map (fun l => match x.2.2 with
        | some bs => (x.1, x.2.1, bs) :: l
        | none => l)

/-- The image that bytes hold: the CRC-32 is right, every REF names a stored object of the stated TYPE, and every slot fits (R444). -/
def readImage (bs : List Nat) : Option SavedImage :=
  match Config.readSavedHeader bs with
  | none => none
  | some (size, count, gen, time, crc) =>
    let rest := bs.drop size
    let recs := (List.range count).map (fun i => readRecord ((rest.drop (32 * i)).take 32))
    if crc32 rest = crc ∧ recs.all (·.isSome) = true then
      (readSlots rest.length (rest.drop (32 * count))).map (fun doms => ⟨true, gen, time, recs.filterMap id, doms⟩)
    else none

/-- DICT_IMPORT written (R444): an image of the form of DICT_EXPORT replaces the saved image whole, or nothing changes. -/
def writeImport (bs : List Nat) (d : Device) : Device × Reply :=
  match d.storeBusy with
  | some e => (d, .fail e)
  | none =>
    match readImage bs with
    | none => (d, .fail (err stInvalidValue))
    | some im => ((d.onStore (fun s => { s with saved := im })).showSaved, .ok [])

/-- DICT_IMPORT. -/
def execDictImport (q : Req) (crc : BitVec 32) (s : State) : Host.Outcome State Fault Refusal :=
  onDev s (fun d => d.serve q 5 2 true Reg.dictImport.ref (fun _ d => d.takeBlock q Reg.dictImport.ref crc.toNat writeImport))

/-- DICT_EXPORT: the saved image; empty while it is invalid. -/
def Device.export (d : Device) : List Nat := if d.store.saved.valid then d.store.saved.bytes else []

/-- DOMAIN_SLOT_REWRITE: the rewrite of a slot ends; a change that came meanwhile is taken up (R438). -/
def execDomainSlotRewrite (ref : BitVec 24) (s : State) : Host.Outcome State Fault Refusal :=
  onDev s (fun d =>
    let r := ref.toNat
    match tblGet d.store.liveDoms r with
    | some x =>
      if d.phase = .reset ∨ !x.rewriting then d
      else
        let y : DomSlot := match x.next with
          | some bs => ⟨(x.gen + 1) % 2 ^ 32, slotValue r bs, x.value, true, none⟩
          | none => { x with rewriting := false, before := none }
        let d := d.onStore (fun s => { s with liveDoms := tblPut s.liveDoms r y })
        d.setBit Reg.dictStoreState 1 (d.store.liveDoms.any (fun e => e.2.value.isNone))
    | none => d)

end Sys2Proof.Machine
end

