-- ==== Sys2Proof/Machine/Access.lean ====
section
/-! DEFINITION. Any object by its reference: its row, its value as it reads, its own checks and effect when it is written, the contents of DOMAINs
(chapters 17 and 18, and the object tables of every chapter). -/

namespace Sys2Proof.Machine

/-! ### Levels (Table 18.1) -/

/-- The level a write of value v needs: that of the range, or the higher one the owning chapter states (Table 18.1); DICT_RESTORE's depends on the
value (R443). -/
def writeLevelOf (r : ObjRow) (ref v : Nat) : Nat :=
  max (max (rangeLevel (ref / 256)) (atOrLast r.levels (ref % 256 - r.sub) 0)) (if ref = Reg.dictRestore.ref then restoreLevel v else 0)

/-! ### Values as they read -/

/-- The value of a scalar object. -/
def Device.scalar (d : Device) (r : ObjRow) (ref : Nat) : Nat :=
  match d.shown ref with
  | some v => v % 2 ^ r.width
  | none => d.get (rowObj r ref)

/-- The object through which a row's reference is written: EOP_MAC has a place beside its factory value. -/
def objOf (r : ObjRow) (ref : Nat) : Obj := if ref = Reg.eopMac.ref then macObj else rowObj r ref

/-! ### Own checks and effects of scalars -/

/-- An error stops a write; otherwise its effect. -/
def guarded (e : Option Err) (x : Device) : Except Err Device :=
  match e with
  | some e => .error e
  | none => .ok x

/-- The effect of a write that has its own answer. -/
def ofReply (r : Device × Reply) : Except Err Device :=
  match r.2 with
  | .fail e => .error e
  | _ => .ok r.1

/-- A condition that a write needs, with the status that refuses it. -/
def need (b : Bool) (e : Err) : Option Err := if b then none else some e

/-- A pair that EOP_AUTH_PAIR is to name, in use by a crypt group in force or a hub leaf (R423). -/
def Device.pairInUse (d : Device) (p : Nat) : Option Err :=
  if p = 0xFFFF then none
  else if d.cgTable.any (fun w => cgPair w == p) then some (errObj stInUse Reg.secCgActive.ref)
  else ((List.range 256).find? (fun i => d.get (Reg.hubLeafKey i) == p)).map (fun i => errObj stInUse (Reg.hubLeafKey i).ref)

/-- Objects at 0x1000 to 0x1FFF. -/
def commEffect (ref v : Nat) (d : Device) : Option (Except Err Device) :=
  if ref = (Reg.eopAuthPair 0).ref ∨ ref = (Reg.eopAuthPair 1).ref then
    (d.pairInUse v).map .error
  else if ref = Reg.dictSave.ref then some (ofReply (applySave v d))
  else if ref = Reg.dictRestore.ref then some (ofReply (applyRestore v d))
  else none

/-- The transmit state is Off or Squelched (R46). -/
def Device.txQuiet (d : Device) (c : Nat) : Bool := d.get (Reg.lineTxState c) == 0 || d.get (Reg.lineTxState c) == 2

/-- A laser that transmits may change only with its carrier Off or Squelched with laser off (R52). -/
def Device.laserFree (d : Device) (n : Nat) : Bool :=
  let c := d.get (Reg.lineItlaCarrier n)
  !bitAt (d.get (Reg.lineItlaUse n)) 0 || d.get (Reg.lineTxState c) == 0 || (d.get (Reg.lineTxState c) == 2 && (d.tx.at c).laserOff)

/-- A setting of a laser: it goes to an enabled laser as a command (R52). -/
def applyLaser (o : Obj) (n v : Nat) (cmd : ItlaCmd) (d : Device) : Device :=
  let d := d.putValue o v
  if (d.port n).disHigh then d.itlaPush n cmd else d

/-- Objects of a laser port (Table 3.7). -/
def itlaEffect (n k v : Nat) (d : Device) : Option (Except Err Device) :=
  match k with
  | 1 => some (.ok (applyItlaUse n v d))
  | 2 => some (.ok (applyLaser (Reg.lineItlaBaud n) n v .readBaud d))
  | 3 => some (guarded (need (d.laserFree n) (err stNotPermitted)) (applyLaser (Reg.lineItlaFreq n) n v (.setFreq v) d))
  | 4 => some (guarded (need (d.laserFree n) (err stNotPermitted)) (applyLaser (Reg.lineItlaPower n) n v (.setPower v) d))
  | 5 => some (guarded (need (d.laserFree n) (err stNotPermitted)) (applyLaser (Reg.lineItlaFtf n) n v (.setFtf v) d))
  | 8 => some (.ok (d.itlaPush n (.raw v)))
  | 10 => if d.get (Reg.lineItlaUse n) = 0 then none else some (.error (err stNotPermitted))
  | _ => none

/-- LINE_BIAS_CODE: refused while the loop is closed; else the bias DAC takes it, in Off at the carrier's start (R60, R61). -/
def biasCodeEffect (n v : Nat) (d : Device) : Except Err Device :=
  if d.get (Reg.lineBiasMode n) = 1 then .error (errObj stInUse (Reg.lineBiasMode n).ref)
  else .ok ((d.putValue (Reg.lineBiasCode n) v).driveBias d [n])

/-- LINE_BIAS_MON of a closed loop moves what the loop owns (R60, R390). -/
def biasMonEffect (n v : Nat) (d : Device) : Except Err Device :=
  let o := Reg.lineBiasMon n
  if d.get (Reg.lineBiasMode n) = 1 then
    if v = 255 then .error (err stInvalidCombination)
    else guarded (d.claimCheck v (ownerLoop n)) (((d.putValue o v).releaseOwner (ownerLoop n)).set (Reg.monChOwner v) (ownerLoop n))
  else .ok (d.putValue o v)

/-- Objects at 0x2010 to 0x202C. -/
def txEffect (ref v : Nat) (d : Device) : Option (Except Err Device) :=
  let i := ref / 256
  let k := ref % 256
  if i ≤ 0x2011 then
    let c := i - 0x2010
    match k with
    | 1 => some (.ok (applyTxEnable c v d))
    | 3 => some (.ok (applyTxSquelch c v d))
    | 6 => if d.txQuiet c then none else some (.error (err stNotPermitted))
    | _ => none
  else if i ≤ 0x2017 then
    match txTermOf ref with
    | some (c, t) => some (guarded (txTermCheck c d) (applyTxTerm c t v d))
    | none => if k = 2 ∧ !d.txQuiet (i - 0x2016) then some (.error (err stNotPermitted)) else none
  else if i ≤ 0x201B then itlaEffect (i - 0x2018) k v d
  else if i = 0x201C then (if 2 ≤ k ∧ k ≤ 9 ∧ bits v 6 2 < 7 then some (.error (err stInvalidValue)) else none)
  else if i ≤ 0x202B then
    let n := i - 0x2020
    match k with
    | 1 => some (guarded (biasModeCheck n v d) (applyBiasMode n v d))
    | 2 => some (biasCodeEffect n v d)
    | 3 => some (biasMonEffect n v d)
    | 7 => some (.ok ((d.putValue (Reg.lineBiasMin n) v).limitFollow n))
    | 8 => some (.ok ((d.putValue (Reg.lineBiasMax n) v).limitFollow n))
    | 9 => some (.ok ((d.putValue (Reg.lineBiasDither n) v).driveBias d [n]))
    | 13 => some (.ok ((d.putValue (Reg.lineBiasSafe n) v).driveBias d [n]))
    | _ => none
  else none

/-- Objects of the receive chain and the loading at 0x2040 to 0x2052. -/
def rxEffect (ref v : Nat) (d : Device) : Option (Except Err Device) :=
  let i := ref / 256
  let k := ref % 256
  let c := i % 2
  let comb (b : Bool) : Option (Except Err Device) := if b then none else some (.error (err stInvalidCombination))
  if i ≤ 0x2041 then (if k = 1 then some (guarded (rxEnableCheck c v d) (applyRxEnable c v d)) else none)
  else if i ≤ 0x2043 then
    match k with
    | 1 => if toSigned 32 v < -80000 ∨ 80000 < toSigned 32 v then some (.error (err stInvalidValue)) else comb (decide (toSigned 32 v + 800 ≤ d.getI (Reg.lineRxCdMax c)))
    | 2 => if toSigned 32 v < -80000 ∨ 80000 < toSigned 32 v then some (.error (err stInvalidValue)) else comb (decide (d.getI (Reg.lineRxCdMin c) + 800 ≤ toSigned 32 v))
    | _ => none
  else if i ≤ 0x2045 then
    match k with
    | 1 => if d.get (Reg.lineRxState c) = 0 then none else some (.error (err stNotPermitted))
    | 2 => if d.get (Reg.lineRxState c) = 0 then none else some (.error (err stNotPermitted))
    | 5 => comb (decide (v < d.get (Reg.lineEqDfeOff c)))
    | 6 => comb (decide (d.get (Reg.lineEqDfeOn c) < v))
    | 7 => some (.ok (applyEqFreeze c v d))
    | _ => none
  else if i = 0x2050 ∨ i = 0x2051 then
    if k = 0x11 then some (ofReply (applyLoadPropose c v d))
    else if c = 1 ∧ d.on Reg.frmBondMode then some (.error (err stInvalidCombination))
    else if k = 1 then some (.ok (applyLoadMode c v d))
    else none
  else none

/-- FRM_TRACE_CHECK: 0 clears TIM; the actions of a TIM that stands follow the new value (Table 6.8). -/
def applyTraceCheck (c v : Nat) (d : Device) : Device :=
  let d := d.putValue (Reg.frmTraceCheck c) v
  (if v = 0 then d.rawAll c 6 false else d).publish c

/-- Objects of the decoder and the framer at 0x2060 to 0x208E. -/
def frameEffect (ref v : Nat) (d : Device) : Option (Except Err Device) :=
  let i := ref / 256
  let k := ref % 256
  let c := i % 2
  if i ≤ 0x2061 then
    match k with
    | 1 => some (guarded (overheadCheck c v d) (applyOverhead c v d))
    | 2 => (maxIterCheck v d).map .error
    | 5 => some (.ok (applyBerWindow c v d))
    | _ => none
  else if i = 0x2068 then (if k = 1 then (minIterCheck v d).map .error else none)
  else if i = 0x2080 ∨ i = 0x2081 then
    match k with
    | 1 => some (guarded (groupsCheck c v d) (applyGroups c v d))
    | 6 => if d.get (Reg.frmSdClr c) < v then none else some (.error (err stInvalidCombination))
    | 7 => if v < d.get (Reg.frmSdSet c) then none else some (.error (err stInvalidCombination))
    | 13 => some (.ok (applyTraceCheck c v d))
    | _ => none
  else if i = 0x208E then some (guarded (bondCheck v d) (applyBond v d))
  else none

/-- HUB_LEAF_KEY names a pair that EOP_AUTH_PAIR names (R423). -/
def leafKeyCheck (v : Nat) (d : Device) : Option Err :=
  if v = 0xFFFF then none
  else ([0, 1].find? (fun k => d.get (Reg.eopAuthPair k) == v)).map (fun k => errObj stInUse (Reg.eopAuthPair k).ref)

/-- Objects of the hub at 0x2800 to 0x290F. -/
def hubEffect (ref v : Nat) (d : Device) : Option (Except Err Device) :=
  let i := ref / 256
  let k := ref % 256
  if i ≤ 0x2801 then
    let c := i - 0x2800
    match k with
    | 1 => some (guarded (hubEnableCheck c v d) (applyHubEnable c v d))
    | 2 => (eqCyclesCheck c d).map .error
    | 12 => some (.ok (applyDiscPeriod c v d))
    | 18 => some (.ok (applyUsCd c v d))
    | _ => none
  else if 0x2810 ≤ i then
    let n := i - 0x2810
    match k with
    | 1 => some (.ok (applyLeafEnable (n / 128) (n % 128) v d))
    | 2 => (leafSerialCheck n d).map .error
    | 3 => (leafKeyCheck v d).map .error
    | _ => none
  else none

/-- Objects of the fabric and of packet adaptation. -/
def trafficEffect (ref v : Nat) (d : Device) : Option (Except Err Device) :=
  let i := ref / 256
  if ref = Reg.fabMapRevert.ref then some (ofReply (applyRevert v d))
  else if ref = Reg.fabPgCmd.ref then some (ofReply (pgCommand (v / 2 ^ 16) (v / 256 % 256) d))
  else if ref = Reg.pktMtu.ref then (mtuCheck d).map .error
  else if i = 0x4010 then
    let p := ref % 256 - 1
    some (guarded (portModeCheck p v d) (applyPortMode p v d))
  else if ref = Reg.pktQFlush.ref then (if 262143 < v then some (.error (err stInvalidValue)) else some (.ok (applyFlush v d)))
  else none

/-- A setting of a candidate: its effective QL follows, and the selection runs (R271, R272). -/
def applyCandSetting (o : Obj) (n v : Nat) (d : Device) : Device := ((d.putValue o v).refreshQl n).reselect

/-- TIME_SLOPE and TIME_ACQ_SLOPE: a pull at the old slope goes on at the new one (R277). -/
def applySlope (o : Obj) (v : Nat) (d : Device) : Device :=
  let old := d.get o
  let x := d.putValue o v
  match d.tim.pull with
  | some (_, _, s) => if s = old then x.startPull d.pullLeft v else x
  | none => x

/-- A client port that another PTP (SyncE) port has named (R427). -/
def lanePortFree (o : Nat → Obj) (n v : Nat) (d : Device) : Option Err :=
  if v = 0xFF then none
  else ((List.range 8).find? (fun m => m != n && d.get (o m) == v)).map (fun m => errObj stInUse (o m).ref)

/-- TIME_HO_THERM_CHAN: the starter owns its channel (R298). -/
def thermEffect (v : Nat) (d : Device) : Except Err Device :=
  if v = 0xFF then .ok ((d.releaseOwner ownerStarter).putValue Reg.timeHoThermChan v)
  else guarded (d.claimCheck v ownerStarter) (((d.releaseOwner ownerStarter).set (Reg.monChOwner v) ownerStarter).putValue Reg.timeHoThermChan v)

/-- Objects of timing and holdover at 0x5000 to 0x5082. -/
def timeEffect (ref v : Nat) (d : Device) : Option (Except Err Device) :=
  let i := ref / 256
  let k := ref % 256
  if ref = Reg.timeSelMode.ref then some (.ok (d.putValue Reg.timeSelMode v).reselect)
  else if ref = Reg.timeSlope.ref then some (.ok (applySlope Reg.timeSlope v d))
  else if ref = Reg.timeAcqSlope.ref then some (.ok (applySlope Reg.timeAcqSlope v d))
  else if ref = Reg.timeSwFreq.ref then some (.ok (applySwFreq v d))
  else if ref = Reg.timeSwPhase.ref then some (.ok ((applySwPhase v d).journal ref v))
  else if 0x5020 ≤ i ∧ i ≤ 0x502F then
    let n := i - 0x5020
    match k with
    | 1 => some (guarded (candSourceCheck n v d) (applyCandSource n v d))
    | 2 => some (.ok (applyCandSetting (Reg.timeCandPriority n) n v d))
    | 3 => some (.ok (applyCandSetting (Reg.timeCandQlMode n) n v d))
    | 4 => some (.ok (applyCandSetting (Reg.timeCandQlFixed n) n v d))
    | _ => none
  else if 0x5040 ≤ i ∧ i ≤ 0x5047 then (if k = 1 then (lanePortFree Reg.timePtpLane (i - 0x5040) v d).map .error else none)
  else if 0x5050 ≤ i ∧ i ≤ 0x5057 then (if k = 1 then (lanePortFree Reg.timeSynceLane (i - 0x5050) v d).map .error else none)
  else if i = 0x5070 then
    match k with
    | 1 => some (.ok (applyOut false 0 v d))
    | 2 => some (.ok (applyOut false 1 v d))
    | 5 => some (.ok (applyOut true 0 v d))
    | 6 => some (.ok (applyOut true 1 v d))
    | _ => none
  else if ref = Reg.timeHoThermChan.ref then some (thermEffect v d)
  else if ref = Reg.timeHoSharedOsc.ref then some (.ok ((d.putValue Reg.timeHoSharedOsc v).adoptModel (d.dom Reg.timeHoTwinModel.ref)))
  else if ref = Reg.timeHoClear.ref then some (ofReply (clearHistory v d))
  else none

/-! ### Device time steps and cancels (R19, R24) -/

/-- SCHED_TIME_STEP written: only in Unset and Host-set and not in the standby; a whole calendar boundary (R19, R21). -/
def applyTimeStep (v : Nat) (d : Device) : Except Err Device :=
  if d.standby ∨ 2 ≤ d.get Reg.schedTimeState then .error (err stNotPermitted)
  else if bits v 47 16 % 12800 ≠ 0 ∨ bits v 15 0 ≠ 0 then .error (err stInvalidValue)
  else .ok { d with sched := { d.sched with step := some (time96ToFu v) } }

/-- The journal entry of a cancelled action (R355). -/
def Device.journalCancel (d : Device) (a : Action) : Device :=
  if d.actMirrored a then d.journalRec ⟨3, a.target, 0, 0, 0, a.handle, 0, [], []⟩ else d

/-- An action leaves the schedule as cancelled; the withheld response of an immediate bundle is sent with OUTCOME 1 (R24, R37, R417). -/
def Device.cancelAction (d : Device) (a : Action) : Device :=
  (((d.dropAction a.handle).journalCancel a).outcome a 3 none).answerHeld a stSuccess [1]

/-- SCHED_CANCEL written with a handle (R24). The standby refuses what would change the mirror (R345). -/
def applyCancel (v : Nat) (d : Device) : Except Err Device :=
  match d.action? v with
  | none => .error (err stInvalidValue)
  | some a =>
    if d.standby ∧ !d.twin.applying ∧ d.actMirrored a = true then .error ⟨stNotPermitted, 5, 255, 1 - d.get Reg.twinUnit⟩
    else if a.armed.isSome then .error (errAct stArmed a.handle)
    else .ok (d.cancelAction a)

/-- Objects of the scheduler. -/
def schedEffect (ref v : Nat) (d : Device) : Option (Except Err Device) :=
  if ref = Reg.schedTimeStep.ref then some (applyTimeStep v d)
  else if ref = Reg.schedCancel.ref then some (applyCancel v d)
  else none

/-- SEC_PAIR_SHARED of the selected pair (R332). -/
def applyShared (v : Nat) (d : Device) : Device :=
  let p := d.get Reg.secKeySelect
  (((d.putPair p { d.pair p with shared := v != 0 }).journalRec ⟨0, Reg.secPairShared.ref, v, p, 0, 0, 0, [], []⟩)).refreshCg

/-- Objects of security and redundancy. -/
def guardEffect (ref v : Nat) (d : Device) : Option (Except Err Device) :=
  if ref = Reg.secGuard.ref then (if d.get Reg.secGuardMargin < v then none else some (.error (err stInvalidCombination)))
  else if ref = Reg.secGuardMargin.ref then (if v < d.get Reg.secGuard then none else some (.error (err stInvalidCombination)))
  else if ref = Reg.secKeyWrite.ref then some (ofReply (writeKey (d.get Reg.secKeySelect) v d))
  else if ref = Reg.secPairShared.ref then some (.ok (applyShared v d))
  else if ref = Reg.secSensorClass.ref then (sensorClassCheck v d).map .error
  else if ref = Reg.secAlarmClear.ref then some (ofReply (alarmClear v d))
  else if ref = Reg.twinCoreRetry.ref then some (.ok (applyCoreRetry v d))
  else none

/-- Objects of the monitor and the calibration. -/
def monEffect (ref v : Nat) (d : Device) : Option (Except Err Device) :=
  let i := ref / 256
  if ref = Reg.monRefEnable.ref then some (guarded (refEnableCheck v d) (applyRefEnable v d))
  else if ref = Reg.monCalStart.ref then some (.ok (applyCalStart v d))
  else if i = 0x8040 ∨ i = 0x8041 then
    let c := i - 0x8040
    match ref % 256 with
    | 2 => some (guarded (calTxEnableCheck c v d) (applyCalTxEnable c v d))
    | 3 => some (.ok (applyCalRun c v d))
    | _ => none
  else none

/-- Objects of telemetry. -/
def telEffect (ref v : Nat) (d : Device) : Option (Except Err Device) :=
  let i := ref / 256
  let k := ref % 256
  if ref = Reg.telRingFrom.ref then (ringFromCheck v d).map .error
  else if 0x9100 ≤ i ∧ i ≤ 0x910F ∧ 2 ≤ k ∧ k ≤ 9 then
    some (guarded (cntCtrlCheck (i - 0x9100) v) (applyCntCtrl (i - 0x9100) (k - 2) v d))
  else if 0x9200 ≤ i ∧ i ≤ 0x921F then
    match k with
    | 2 => (grpDestCheck (i - 0x9200) v d).map .error
    | 3 => some (.ok (applyGrpPeriod (i - 0x9200) v d))
    | _ => none
  else none

/-- Objects of the lanes, of power and of the memories. -/
def lowEffect (ref v : Nat) (d : Device) : Option (Except Err Device) :=
  let i := ref / 256
  let p := ref % 256 - 1
  if i = 0xA000 then some (guarded (portTypeCheck p v d) (applyPortType p v d))
  else if i = 0xA003 then (if v = 1 ∧ d.get (Reg.lanePortType p) ≠ 1 then some (.error (err stInvalidCombination)) else none)
  else if i = 0xA013 then (trainCheck p v d).map .error
  else if ref = Reg.laneMateEnable.ref then some (.ok (applyMateEnable v d))
  else if ref = Reg.pwrFecActive.ref then some (guarded (fecActiveCheck v d) (applyFecActive v d))
  else if ref = Reg.pwrImgConfirm.ref then some (.ok (applyImgConfirm v d))
  else if ref = (Reg.memSweepRate 5).ref then some (.error (err stNotPermitted))
  else if ref = Reg.memErrLogClear.ref then some (.ok (applyErrLogClear v d))
  else if ref = Reg.memDebugEnable.ref then
    (if v = 1 ∧ d.get Reg.secAlarm ≠ 0 then some (.error (err stNotPermitted)) else none)
  else none

/-- The own check and effect of a scalar, where it has one. -/
def ownEffect (ref v : Nat) (d : Device) : Option (Except Err Device) :=
  let i := ref / 256
  if i < 0x2000 then commEffect ref v d
  else if i < 0x2040 then txEffect ref v d
  else if i < 0x2060 then rxEffect ref v d
  else if i < 0x2800 then frameEffect ref v d
  else if i < 0x3000 then hubEffect ref v d
  else if i < 0x5000 then trafficEffect ref v d
  else if i < 0x5800 then timeEffect ref v d
  else if i < 0x6000 then schedEffect ref v d
  else if i < 0x8000 then guardEffect ref v d
  else if i < 0x9000 then monEffect ref v d
  else if i < 0xA000 then telEffect ref v d
  else lowEffect ref v d

/-- The effect of an accepted write of an RW or WO scalar: its own, or its value is stored, reserved bits held at 0. -/
def plainEffect (r : ObjRow) (ref v : Nat) (d : Device) : Except Err Device :=
  match ownEffect ref v d with
  | some x => x
  | none => if r.access = .wo then .ok d else .ok (d.putValue (objOf r ref) (rangeKeep r.range v))

/-- A write of any value to an RWC object sets it to its Default (R416). -/
def clearEffect (r : ObjRow) (ref : Nat) (d : Device) : Device :=
  let i := ref / 256
  if i = 0x3012 then (d.groupClear (ref % 256)).getD d
  else if 0x9100 ≤ i ∧ i ≤ 0x910F then zeroCnt (i - 0x9100) (ref % 256 - 10) d
  else
    match d.packetClear ref with
    | some x => x
    | none => d.set (rowObj r ref) (rowDefault r ref)

/-- Why a clear of an RWC object is refused: C1's loading counters take none while bonded (R92). -/
def clearCheck (ref : Nat) (d : Device) : Option Err :=
  if ref / 256 = 0x2051 ∧ d.on Reg.frmBondMode then some (err stInvalidCombination) else none

/-- The sleeping resources that a write needs at once (R477). -/
def Device.writeNeeds (d : Device) (ref v : Nat) : List Nat :=
  if (ref = (Reg.lineRxEnable 0).ref ∨ ref = (Reg.lineRxEnable 1).ref) ∧ v = 1 then d.enginesNeeded else []

/-! ### RWS objects (R23, R416) -/

/-- The effect of an RWS object's value at the boundary of its action or its bundle. -/
def rwsEffect (r : ObjRow) (ref v : Nat) (d : Device) : Except Err Device :=
  let i := ref / 256
  let k := ref % 256
  if ref = Reg.fabMapSwap.ref then .ok (d.swapBanks v)
  else if ref = Reg.secCgApply.ref then applyCgTable v d
  else if ref = Reg.laneFlexeApply.ref then startFlex v d
  else if i = 0xA001 then .ok (applyPortEnable (k - 1) v d)
  else if 0x8010 ≤ i ∧ i ≤ 0x8017 then .ok (applySeqRun (i - 0x8010) v d)
  else if 0x9200 ≤ i ∧ i ≤ 0x921F then .ok (d.latch (i - 0x9200) [])
  else if 0x9300 ≤ i ∧ i ≤ 0x9302 then .ok (applySweepStart (i - 0x9300) v d)
  else .ok (d.putValue (rowObj r ref) v)

/-- The RWS object's kind is Calendar. -/
def calendarRws (ref : Nat) : Bool :=
  let i := ref / 256
  !(decide ((0x2802 ≤ i ∧ i ≤ 0x2805) ∨ i = 0x6002 ∨ i = 0xB002) || ref == Reg.timeForce.ref || ref == Reg.timeLoopMode.ref)

/-- The resources an RWS value names (Table 20.4): of a port, the hub path of a downstream code, those of a grant table. -/
def Device.rwsNeeds (d : Device) (ref v : Nat) : List Nat :=
  if ref / 256 = 0xA001 then d.portNeeds (ref % 256 - 1) v
  else
    match (List.range 32).find? (fun k => (Reg.hubDsCode (k / 16) (k % 16)).ref == ref), [0, 1].find? (fun c => (Reg.hubGrantTable c).ref == ref) with
    | some k, _ => [resHubPath (k / 16) (k % 16) 0]
    | _, some c => d.grantNeeds c
    | none, none => []

/-- A WRITE to an RWS object: the action that its chapter states. -/
def writeRws (q : Req) (r : ObjRow) (ref : Nat) (v : Val) (d : Device) : Device × Reply :=
  let i := ref / 256
  let k := ref % 256
  if ref = Reg.fabMapSwap.ref then d.actionWrite Reg.fabMapSwap q v .calendar 1 []
  else if ref = Reg.secCgApply.ref then writeCgApply q v d
  else if ref = Reg.secRoll.ref then writeRoll q v d
  else if ref = Reg.timeForce.ref then writeTimeForce q v d
  else if ref = Reg.timeLoopMode.ref then writeLoopMode q v d
  else if ref = Reg.laneFlexeApply.ref then writeFlexApply q v d
  else if ref = Reg.pwrImgSwitch.ref then writeImgSwitch q v d
  else if i = 0x2802 ∨ i = 0x2803 then writeGrantTable q (i - 0x2802) v d
  else if i = 0x2804 ∨ i = 0x2805 then writeDsCode q (i - 0x2804) (k - 1) v d
  else if i = 0xA001 then writePortEnable q (k - 1) v d
  else if 0x9200 ≤ i ∧ i ≤ 0x921F then
    d.actionWriteA (rowObj r ref) q v { newAction .calendar .host 5 ref 0 0 with args := [i - 0x9200] }
  else d.actionWrite (rowObj r ref) q v .calendar 8 (d.rwsNeeds ref v.raw)

/-! ### DOMAINs -/

/-- Groups with any defect: group, W defects, P defects. -/
def Device.groupDefects (d : Device) : List Nat :=
  (d.fab.states.filter (fun e => pointDefects e.2.w != 0 || pointDefects e.2.p != 0)).flatMap (fun e =>
    beBytes 2 e.1 ++ beBytes 1 (pointDefects e.2.w) ++ beBytes 1 (pointDefects e.2.p))

/-- The record of an action (Table 2.6). -/
def actionRecord (a : Action) : Nat :=
  let target := if a.cls = 9 then a.args.headD 0
    else if (a.origin = .device ∨ a.origin = .line) ∧ a.cls ≠ 8 then 0 else a.target
  a.bake * 2 ^ 160 + a.acceptSeq * 2 ^ 96 + a.handle * 2 ^ 64 + kindCode a.kind * 2 ^ 60 + b2n a.armed.isSome * 2 ^ 56 + b2n a.late1 * 2 ^ 55 +
    originCode a.origin * 2 ^ 52 + a.cls * 2 ^ 32 + target % 2 ^ 24 * 2 ^ 8

/-- SCHED_LIST: every action, in bake-time order. -/
def Device.schedList (d : Device) : List Nat :=
  (sortBy (fun a b => lexLt [a.bake, a.acceptSeq] [b.bake, b.acceptSeq]) d.sched.actions).flatMap
    (fun a => beBytes 32 (actionRecord a))

/-- The time-path corrections in force, in ps, in the order of Table 16.6. -/
def Device.trimBytes (d : Device) : List Nat :=
  d.mon.trims.flatMap (fun t => beBytes 4 (ofSigned 32 (trimValue t)))

/-- The next bank reads while it is ready (R189). -/
def Device.nextBytes (d : Device) : Except Err (List Nat) :=
  match d.get Reg.fabMapNextState with
  | 0 => .ok d.fab.next.shown
  | 1 => .error (errObj stInUse Reg.fabMapNextState.ref)
  | _ =>
    match d.sched.actions.find? (fun a => a.armed.isSome && (a.cls == 1 || a.members.any (fun m => m.ref == Reg.fabMapSwap.ref))) with
    | some a => .error (errAct stInUse a.handle)
    | none => .error (errObj stInUse Reg.fabMapNextState.ref)

/-- The value of a DOMAIN as a BLOCK read takes it. -/
def Device.domainBytes (d : Device) (ref : Nat) : Except Err (List Nat) :=
  if ref = Reg.fabMapActive.ref then .ok d.fab.active.shown
  else if ref = Reg.fabMapNext.ref then d.nextBytes
  else if ref = Reg.fabGrpDefectList.ref then .ok d.groupDefects
  else if ref = Reg.pktWmList.ref then .ok (d.pkt.wmList.flatMap (beBytes 4))
  else if ref = Reg.pktQConfig.ref then .ok d.allQueueRecords
  else if ref = Reg.timeHoHistory.ref then .ok d.historyBytes
  else if ref = Reg.schedList.ref then .ok d.schedList
  else if ref = Reg.pwrStateList.ref then .ok d.stateList
  else if ref = Reg.dictRestoreLog.ref then .ok (d.store.log.flatMap (beBytes 4))
  else if ref = Reg.dictExport.ref then .ok d.export
  else if ref = Reg.memErrLog.ref then .ok (d.mem.log.flatMap (beBytes 32))
  else if ref = Reg.telRingData.ref then .ok d.ringData
  else if ref = Reg.telLatchable.ref then .ok latchableList
  else if ref = Reg.telEventList.ref then .ok eventList
  else if ref = Reg.memHbmMap.ref then .ok hbmMap
  else if ref = Reg.memMramMap.ref then .ok mramMap
  else if ref = Reg.calTimeTrim.ref then .ok d.trimBytes
  else if ref = (Reg.lineTxPsTable 0).ref ∨ ref = (Reg.lineTxPsTable 1).ref then .ok psTable
  else if ref = Reg.fecCodeSpec.ref ∨ ref = Reg.pktFlowHashSpec.ref then
    .ok (Config.table ref)
  else if ref = Reg.calSet.ref ∧ d.dom ref = [] then .ok (Config.table ref)
  else .ok (d.dom ref)

/-- A DOMAIN that its length or its chapter's state rule may refuse; else its bytes are kept. -/
def keepBytes (ref : Nat) (ok : Bool) (e : Option Err) (bs : List Nat) (d : Device) : Device × Reply :=
  if !ok then (d, .fail (err stInvalidValue))
  else
    match e with
    | some e => (d, .fail e)
    | none => (d.putDomain ref bs, .ok [])

/-- The codes of TIME_HO_THERM_TABLE ascend. -/
def thermOk (bs : List Nat) : Bool :=
  let l := (recordsOf 6 bs).map (fun w => toSigned 32 (w / 2 ^ 16))
  (bs.isEmpty || bs.length == 96) && (l.zip (l.drop 1)).all (fun e => decide (e.1 < e.2))

/-- The effect of the bytes of a DOMAIN written by BLOCK. -/
def domainEffect (q : Req) (ref : Nat) (bs : List Nat) (d : Device) : Device × Reply :=
  let i := ref / 256
  if ref = Reg.fabMapNext.ref then (if bs.length % 24 ≠ 0 then (d, .fail (err stInvalidValue)) else fabEdit (recordsOf 24 bs) d)
  else if ref = (Reg.lineTxEmph 0).ref ∨ ref = (Reg.lineTxEmph 1).ref then
    keepBytes ref (bs.length == 512) (need (d.txQuiet (i - 0x2016)) (err stNotPermitted)) bs d
  else if ref = Reg.lineAspiXfer.ref then applyAspiXfer bs d
  else if ref = Reg.lineAspiSafe.ref ∨ ref = Reg.lineAspiResume.ref then
    keepBytes ref (aspiListOk 64 bs) none bs (if aspiListOk 64 bs then d else d.bump Reg.lineAspiErrors)
  else if i = 0x2802 ∨ i = 0x2803 then applyGrantNext (i - 0x2802) bs d
  else if ref = Reg.pktFlowEdit.ref then flowEditBytes q bs d
  else if ref = Reg.pktQConfig.ref then writeQueueConfig q bs d
  else if ref = Reg.timeHoThermTable.ref then keepBytes ref (thermOk bs) none bs d
  else if ref = Reg.timeHoImport.ref then importHistory bs d
  else if ref = Reg.secCgNext.ref then cgNext bs d
  else if ref = Reg.twinLocalList.ref then keepBytes ref (bs.length % 4 == 0 && decide (bs.length ≤ 256)) none bs d
  else if 0x8010 ≤ i ∧ i ≤ 0x8017 then writeSeqSteps (i - 0x8010) bs d
  else if ref = Reg.calSet.ref then writeCalSet bs d
  else if 0x9200 ≤ i ∧ i ≤ 0x921F then writeMembers (i - 0x9200) bs d
  else if ref = Reg.laneFlexeNext.ref then flexNext bs d
  else if ref = Reg.pwrImgData.ref then writeImage bs d
  else if ref = Reg.dictImport.ref then writeImport bs d
  else keepBytes ref true none bs d

end Sys2Proof.Machine
end

