-- ==== Sys2Proof/Machine/Eop.lean ====
section
/-! DEFINITION. The EOP services, sessions, subscriptions, BLOCK transfers, the management SPI slave and line messages (chapter 17). -/

namespace Sys2Proof.Machine

/-! ### READ (R415) -/

/-- The status and value bytes of one reference of a READ. -/
def Device.readItem (d : Device) (lvl ref : Nat) : Nat × Nat × List Nat :=
  match rowOf ref with
  | none => (stNoObject, 0, [])
  | some r =>
    if d.phase = .recovery ∧ ! [0x1000, 0xB000, 0xB002].contains (ref / 256) then (stNotPermitted, 0, [])
    else if r.ty = tyDomain then (stUseBlock, r.ty, [])
    else if r.access = .wo ∨ lvl < readLevel (ref / 256) then (stDenied, r.ty, [])
    else (stSuccess, r.ty, beBytes (rowObj r ref).bytes (d.scalar r ref))

/-- An item of the response: status, type, length, value (Table 17.4). -/
def itemBytes (e : Nat × Nat × List Nat) : List Nat := beBytes 1 e.1 ++ beBytes 1 e.2.1 ++ beBytes 2 e.2.2.length ++ e.2.2

/-- The item of a reference whose stored value may carry poison: "uncorrectable data" in place of the value (R256, Table 10.6, row 8). -/
def Device.readItemOr (d : Device) (lvl ref : Nat) (poisoned : Bool) : Nat × Nat × List Nat :=
  let e := d.readItem lvl ref
  if poisoned ∧ e.1 = stSuccess then (stUncorrectable, e.2.1, []) else e

/-- The dictionary server meets poison: a read of stored poison in class 1, and a consumption of row 8 (R251, R256). -/
def Device.poisonedRead (d : Device) : Device := (d.bump (Reg.memPoisonReads 0)).consumed 8 0xFFF0

/-- READ: every reference at one instant, each with its own status; the header says Success. `poisoned`: the references whose value the object store
delivers with the poison mark. -/
def execRead (q : Req) (refs poisoned : List (BitVec 24)) (s : State) : Host.Outcome State Fault Refusal :=
  onDev s (fun d => d.serve q 1 0 false Reg.pwrResetCause.ref (fun lvl d =>
    if 64 < refs.length then (d, .fail (err stMalformed))
    else
      let bad := refs.filter (fun r => poisoned.contains r && (d.readItem lvl r.toNat).1 == stSuccess)
      (d.each bad (fun _ x => x.poisonedRead), .ok (refs.flatMap (fun r => itemBytes (d.readItemOr lvl r.toNat (poisoned.contains r)))))))

/-! ### WRITE (R416) -/

/-- The level a write of value v to a reference needs; one that names no object is answered so at any level. -/
def levelOf (ref v : Nat) : Nat :=
  match rowOf ref with
  | some r => writeLevelOf r ref v
  | none => 0

/-- A write of an RW or WO scalar: its checks; its effect at once, or when the resources it needs are awake; the response, withheld while the
mirror is Current. -/
def writePlain (q : Req) (r : ObjRow) (ref : Nat) (v : Val) (d : Device) : Device × Reply :=
  d.plainWriteR (objOf r ref) r.range q v (fun d =>
    match plainEffect r ref v.raw d with
    | .error e => (d, .fail e)
    | .ok _ => d.whenReady q 2 ref v.raw [] (d.writeNeeds ref v.raw) (fun d => d.withhold q ref (ofExcept (plainEffect r ref v.raw d) d)))
where
  /-- The answer of an effect. -/
  ofExcept (x : Except Err Device) (d : Device) : Device × Reply :=
    match x with
    | .error e => (d, .fail e)
    | .ok x => (x, okWrite)

/-- A write of any value to an RWC object sets it to its Default. -/
def writeClear (q : Req) (r : ObjRow) (ref : Nat) (v : Val) (d : Device) : Device × Reply :=
  match d.writerCheck q ref v.raw with
  | some e => (d, .fail e)
  | none =>
    if q.bake ≠ 0 then (d, .fail (err stInvalidCombination))
    else if v.len ≠ (rowObj r ref).bytes then (d, .fail (err stWrongType))
    else
      match clearCheck ref d with
      | some e => (d, .fail e)
      | none => (clearEffect r ref d, okWrite)

/-- A write of any object by its reference. -/
def writeAny (q : Req) (ref : Nat) (v : Val) (d : Device) : Device × Reply :=
  match rowOf ref with
  | none => (d, .fail (err stNoObject))
  | some r =>
    if r.ty = tyDomain then (d, .fail (err stUseBlock))
    else
      match r.access with
      | .ro => (d, .fail (err stDenied))
      | .rws => writeRws q r ref v d
      | .rwc => writeClear q r ref v d
      | .rw => writePlain q r ref v d
      | .wo => writePlain q r ref v d

/-- WRITE of an object that has no row of its own (or has one: the effect is the same). -/
def execWrite (q : Req) (ref : BitVec 24) (v : Val) (s : State) : Host.Outcome State Fault Refusal :=
  onDev s (fun d => d.serve q 2 (levelOf ref.toNat v.raw) true ref.toNat (fun _ d => writeAny q ref.toNat v d))

/-! ### BUNDLE (R417) -/

/-- An error names the member it belongs to. -/
def Err.at_ (e : Err) (i : Nat) : Err := { e with member := i }

/-- RWS objects whose value alone is left by a member before its boundary: what they do needs the boundary. -/
def actsAtBoundary (ref : Nat) : Bool :=
  let i := ref / 256
  ref == Reg.fabMapSwap.ref || ref == Reg.secCgApply.ref || ref == Reg.laneFlexeApply.ref || decide ((0x9200 ≤ i ∧ i ≤ 0x921F) ∨ (0x9300 ≤ i ∧ i ≤ 0x9302))

/-- The check of an RWS member's value that its chapter makes when the write is accepted: SEC_CG_APPLY takes no 0 (R318). -/
def acceptCheck (ref v : Nat) : Option Err := if ref = Reg.secCgApply.ref ∧ v = 0 then some (err stInvalidValue) else none

/-- The check of an RWS member, and the state it would leave: at acceptance what its chapter refuses at once; at preparation (`firing`) all that
its firing checks (R418). -/
def rwsMember (firing : Bool) (r : ObjRow) (ref v : Nat) (d : Device) : Except Err Device :=
  if firing then rwsEffect r ref v d
  else
    match acceptCheck ref v with
    | some e => .error e
    | none => if actsAtBoundary ref then .ok (d.set (rowObj r ref) v) else rwsEffect r ref v d

/-- One member checked as a write of its own in the state d, and the state it would leave. -/
def memberCheck (firing : Bool) (q : Req) (lvl : Nat) (limited : Bool) (ref : Nat) (v : Val) (d : Device) : Except Err Device :=
  match rowOf ref with
  | none => .error (err stNoObject)
  | some r =>
    if r.ty = tyDomain then .error (err stInvalidCombination)
    else if r.access = .ro ∨ lvl < writeLevelOf r ref v.raw ∨ (limited && !limitedMay ref) = true then .error (err stDenied)
    else if r.access = .rws ∧ !calendarRws ref then .error (err stInvalidCombination)
    else
      match d.writerCheck q ref v.raw with
      | some e => .error e
      | none =>
        if r.access = .rwc then (if v.len ≠ (rowObj r ref).bytes then .error (err stWrongType) else
          match clearCheck ref d with
          | some e => .error e
          | none => .ok (clearEffect r ref d))
        else
          match valueCheck (objOf r ref) r.range v with
          | some e => .error e
          | none =>
            if r.access = .rws then rwsMember firing r ref v.raw d else plainEffect r ref v.raw d

/-- The members in order, each seeing the values the earlier ones would leave; an object must not appear twice. -/
def membersCheck (firing : Bool) (q : Req) (lvl : Nat) (limited : Bool) : Nat → List Nat → List BundleMember → Device → Option Err
  | _, _, [], _ => none
  | i, seen, m :: rest, d =>
    if seen.contains m.ref.toNat then some ((err stInvalidCombination).at_ i)
    else
      match memberCheck firing q lvl limited m.ref.toNat m.val d with
      | .error e => some (e.at_ i)
      | .ok x => membersCheck firing q lvl limited (i + 1) (m.ref.toNat :: seen) rest x

/-- The action of an accepted bundle: class 0x0009, kind Calendar; all its members; immediate with an all-zero bake time. -/
def Device.bundleAction (d : Device) (q : Req) (ms : List BundleMember) : Action :=
  let refs := ms.map (fun m => m.ref.toNat)
  { newAction .calendar .host 9 0 q.bake.toNat 0 with
    late1 := d.latePolicy q
    args := [d.sched.nextBundle]
    members := ms.map (fun m => ⟨m.ref.toNat, m.val.raw⟩)
    reply := if q.bake = 0 then some (respOf q 3 stSuccess []) else none
    needs := ms.flatMap (fun m => d.writeNeeds m.ref.toNat m.val.raw ++ d.rwsNeeds m.ref.toNat m.val.raw)
    epoch := if refs.any d.awaitsAck then d.twin.openEpoch else 0 }

/-- Accepts a bundle whose members passed. -/
def acceptBundle (q : Req) (ms : List BundleMember) (d : Device) : Device × Reply :=
  let a := d.bundleAction q ms
  let r := d.schedule a
  match r.2 with
  | .ok body =>
    let x := { r.1 with sched := { r.1.sched with nextBundle := r.1.sched.nextBundle + 1 } }
    let x := match x.action? (ofBytes body) with
      | some b => x.journalAction b
      | none => x
    if q.bake = 0 then (x, .later)
    else
      match (ms.map (fun m => m.ref.toNat)).find? d.awaitsAck with
      | some ref => x.withholdAs q 3 ref (x, .ok body)
      | none => (x, .ok body)
  | _ => r

/-- BUNDLE: 1 to 64 members that fill LENGTH (`fits`), all checked, one action. An immediate one answers with its outcome. -/
def execBundle (q : Req) (fits : Bool) (members : List BundleMember) (s : State) : Host.Outcome State Fault Refusal :=
  onDev s (fun d => d.serve q 3 0 true Reg.secKeySelect.ref (fun lvl d =>
    if members.isEmpty ∨ 64 < members.length ∨ !fits then (d, .fail (err stMalformed))
    else
      match membersCheck false q lvl ((d.sessionOf q).any (·.limited)) 0 [] members d with
      | some e => d.refuseAction e
      | none => acceptBundle q members d))

/-! ### SUBSCRIBE and notices (R420) -/

/-- The subscriptions of the requester: its session's, or its address's. -/
def subsOf (q : Req) (l : List Subscription) : List Subscription :=
  l.filter (fun s => s.session == q.session.toNat && (s.session != 0 || (s.transport == q.transport.val && s.addr == q.addr)))

/-- The lowest subscription number from 1 that the requester does not use. -/
def freeNum (used : List Nat) : Nat := ((List.range' 1 255).find? (fun n => !used.contains n)).getD 255

/-- SUBSCRIBE op 0: a new subscription, within 64 per session and 512 in all. -/
def execSubscribeAdd (q : Req) (first last period : BitVec 16) (s : State) : Host.Outcome State Fault Refusal :=
  onDev s (fun d => d.serve q 4 0 false (first.toNat * 256) (fun lvl d =>
    let mine := subsOf q d.eop.subs
    if last < first then (d, .fail (err stInvalidValue))
    else if lvl = 0 ∧ first.toNat ≤ 0x6FFF ∧ 0x6000 ≤ last.toNat then (d, .fail (err stDenied))
    else if 64 ≤ mine.length ∨ 512 ≤ d.eop.subs.length then (d, .fail (err stTableFull))
    else
      let n := freeNum (mine.map (·.num))
      ({ d with eop := { d.eop with
          subs := d.eop.subs ++ [⟨n, q.session.toNat, q.transport.val, q.addr, first.toNat, last.toNat, period.toNat, [], []⟩] } },
       .ok (beBytes 1 n))))

/-- SUBSCRIBE op 1: the requester's subscription of that number ends. -/
def execSubscribeCancel (q : Req) (num : BitVec 8) (s : State) : Host.Outcome State Fault Refusal :=
  onDev s (fun d => d.serve q 4 0 false 0 (fun _ d =>
    match (subsOf q d.eop.subs).find? (fun x => x.num == num.toNat) with
    | none => (d, .fail (err stInvalidValue))
    | some t =>
      ({ d with eop := { d.eop with subs := d.eop.subs.filter (fun x => !(sameOwner x t && x.num == t.num)) } }, .ok (beBytes 1 num.toNat))))

/-- NOTICE_PERIOD: the spacing of an object ends under the subscription at place `sub` of the list: a change that waited is sent with the latest value
and the spacing begins again. -/
def execNoticePeriod (sub : BitVec 16) (ref : BitVec 24) (s : State) : Host.Outcome State Fault Refusal :=
  onDev s (fun d =>
    if d.dead then d
    else
      let d := d.takeSeq
      match d.eop.subs[sub.toNat]? with
      | none => d.stale
      | some t =>
        if t.waiting.contains ref.toNat then
          (d.putSub { t with waiting := t.waiting.filter (· != ref.toNat) }).noticeTo t ref.toNat (.value (d.latest ref.toNat))
        else if t.spaced.contains ref.toNat then d.putSub { t with spaced := t.spaced.filter (· != ref.toNat) }
        else d.stale)

/-! ### BLOCK (R421) -/

/-- The longest value BLOCK writes: 12 MiB. -/
def blockMax : Nat := 12 * 2 ^ 20

/-- The transfer is the requester's. -/
def ownTransfer (q : Req) (t : Transfer) : Bool :=
  t.session == q.session.toNat && (t.session != 0 || (t.transport == q.transport.val && t.addr == q.addr))

/-- The transfer that runs on an object. -/
def Device.transferOf (d : Device) (ref : Nat) : Option Transfer := d.eop.transfers.find? (fun t => t.ref == ref)

/-- BLOCK names a DOMAIN that exists. -/
def blockRow (ref : Nat) : Except Err ObjRow :=
  match rowOf ref with
  | none => .error (err stNoObject)
  | some r => if r.ty = tyDomain then .ok r else .error (err stWrongType)

/-- BLOCK op 1: a write transfer opens; one transfer at a time on an object. -/
def execBlockOpenWrite (q : Req) (ref : BitVec 24) (total : BitVec 32) (s : State) : Host.Outcome State Fault Refusal :=
  onDev s (fun d => d.serve q 5 (levelOf ref.toNat 0) true ref.toNat (fun _ d =>
    match blockRow ref.toNat with
    | .error e => (d, .fail e)
    | .ok r =>
      if r.access = .ro then (d, .fail (err stDenied))
      else if blockMax < total.toNat then (d, .fail (err stInvalidValue))
      else
        match d.transferOf ref.toNat with
        | some t => (d, .fail (errSess stInUse t.session))
        | none =>
          ({ d with eop := { d.eop with
              transfers := d.eop.transfers ++ [⟨ref.toNat, q.session.toNat, q.transport.val, q.addr, true, total.toNat, []⟩] } }, .ok [])))

/-- The requester's transfer of the given direction on an object. -/
def Device.myTransfer (d : Device) (q : Req) (ref : Nat) : Except Err Transfer :=
  match blockRow ref with
  | .error e => .error e
  | .ok _ =>
    match d.transferOf ref with
    | none => .error (err stNotPermitted)
    | some t => if ownTransfer q t then .ok t else .error (errSess stInUse t.session)

/-- BLOCK op 2: a chunk at the next offset. -/
def execBlockChunk (q : Req) (ref : BitVec 24) (offset : BitVec 32) (data : List Byte) (s : State) : Host.Outcome State Fault Refusal :=
  onDev s (fun d => d.serve q 5 (levelOf ref.toNat 0) true ref.toNat (fun _ d =>
    if 1024 < data.length then (d, .fail (err stMalformed))
    else
      match d.myTransfer q ref.toNat with
      | .error e => (d, .fail e)
      | .ok t =>
        if !t.writing then (d, .fail (err stNotPermitted))
        else if offset.toNat ≠ t.data.length ∨ t.total < t.data.length + data.length then (d, .fail (err stInvalidValue))
        else
          ({ d with eop := { d.eop with transfers := d.eop.transfers.map (fun x =>
              if x.ref = ref.toNat then { x with data := x.data ++ data.map (·.toNat) } else x) } }, .ok [])))

/-- BLOCK op 3 on a DOMAIN: length and CRC-32 checked, then one write under the owning chapter's rules. -/
def execBlockEndWrite (q : Req) (ref : BitVec 24) (crc : BitVec 32) (s : State) : Host.Outcome State Fault Refusal :=
  onDev s (fun d => d.serve q 5 (levelOf ref.toNat 0) true ref.toNat (fun _ d =>
    match blockRow ref.toNat with
    | .error e => (d, .fail e)
    | .ok _ => d.takeBlock q ref.toNat crc.toNat (domainEffect q ref.toNat)))

/-- BLOCK op 4: the requester's transfer ends, nothing written. -/
def execBlockAbandon (q : Req) (ref : BitVec 24) (s : State) : Host.Outcome State Fault Refusal :=
  onDev s (fun d => d.serve q 5 0 false ref.toNat (fun _ d =>
    match d.myTransfer q ref.toNat with
    | .error e => (d, .fail e)
    | .ok _ => (d.keepTransfers (fun t => t.ref != ref.toNat), .ok [])))

/-- A chunk of the snapshot; the transfer ends once its last byte is served. -/
def serveChunk (ref offset wanted : Nat) (snap : List Nat) (d : Device) : Device × Reply :=
  let body := (snap.drop offset).take wanted
  let d := if snap = [] ∨ (offset < snap.length ∧ snap.length ≤ offset + wanted) then d.keepTransfers (fun t => t.ref != ref) else d
  (d, .ok (beBytes 4 offset ++ beBytes 4 snap.length ++ body))

/-- A read at offset 0 takes a snapshot and opens a read transfer. -/
def openRead (q : Req) (ref wanted : Nat) (d : Device) : Device × Reply :=
  match d.domainBytes ref with
  | .error e => (d, .fail e)
  | .ok snap =>
    let t : Transfer := ⟨ref, q.session.toNat, q.transport.val, q.addr, false, snap.length, snap⟩
    let d := { d with eop := { d.eop with transfers := d.eop.transfers.filter (fun x => x.ref != ref) ++ [t] } }
    let d := if ref = Reg.telRingData.ref then
        { d with tel := { d.tel with reading := some (d.get Reg.telRingFrom, d.get Reg.telRingFrom + snap.length) } }
      else d
    serveChunk ref 0 wanted snap d

/-- BLOCK op 5: a chunk of the value. -/
def execBlockRead (q : Req) (ref : BitVec 24) (offset : BitVec 32) (wanted : BitVec 32) (s : State) : Host.Outcome State Fault Refusal :=
  onDev s (fun d => d.serve q 5 (readLevel (ref.toNat / 256)) false ref.toNat (fun _ d =>
    match blockRow ref.toNat with
    | .error e => (d, .fail e)
    | .ok r =>
      if r.access = .wo then (d, .fail (err stDenied))
      else if wanted.toNat = 0 ∨ 1024 < wanted.toNat then (d, .fail (err stInvalidValue))
      else
        match d.transferOf ref.toNat with
        | none => if offset = 0 then openRead q ref.toNat wanted.toNat d else (d, .fail (err stNotPermitted))
        | some t =>
          if !ownTransfer q t ∨ (offset = 0 ∧ t.writing) then (d, .fail (errSess stInUse t.session))
          else if offset = 0 then openRead q ref.toNat wanted.toNat d
          else if t.writing then (d, .fail (err stNotPermitted))
          else serveChunk ref.toNat offset.toNat wanted.toNat t.data d))

/-- BLOCK_TRANSFER_TIMEOUT: 10 s without a request end a transfer. -/
def execBlockTransferTimeout (ref : BitVec 24) (s : State) : Host.Outcome State Fault Refusal :=
  onDev s (fun d =>
    if d.dead then d
    else
      let d := d.takeSeq
      if (d.transferOf ref.toNat).isSome then d.keepTransfers (fun t => t.ref != ref.toNat) else d.stale)

/-! ### SESSION (R422 to R424) -/

/-- The key of a pair and epoch in the tables of nonces and bases: a roll gives a new epoch, so B restarts at 0. -/
def nonceKey (pair epoch : Nat) : Nat := epoch * 65536 + pair

/-- The last OPEN nonce accepted under a pair and epoch. -/
def Device.lastNonce (d : Device) (pair epoch : Nat) : Option Nat :=
  (d.eop.nonces.find? (fun e => e.1 == pair && e.2.1 == epoch)).map (fun e => e.2.2)

/-- Opens a session: the lowest free number, B as its counter base. -/
def openSession (q : Req) (level base : Nat) (limited : Bool) (d : Device) : Device × Reply :=
  let n := freeNum (d.eop.sessions.map (·.num))
  ({ d with eop := { d.eop with sessions := d.eop.sessions ++ [⟨n, q.transport.val, q.addr, level, base, base, base, limited, []⟩] } },
   .ok (beBytes 1 0 ++ beBytes 1 n ++ beBytes 6 base))

/-- An installer or vendor OPEN: tagged under the pair named for its level, with a nonce above the last under the epoch; an untagged installer OPEN over
SPI while the pair has no Current half. -/
def openTagged (q : Req) (level nonce : Nat) (d : Device) : Device × Reply :=
  let p := d.get (Reg.eopAuthPair (level - 2))
  let h := (d.pair p).cur
  if p = 0xFFFF then (d, .fail (err stDenied))
  else if h.state ≠ 2 then
    if level = 2 ∧ q.transport.val = 1 ∧ !q.tagged then openSession q 2 0 true d else (d, .fail (err stDenied))
  else if !d.tagRight level 0 q ∨ q.counter.toNat ≠ nonce ∨ (d.lastNonce p h.epoch).any (fun n => decide (nonce ≤ n)) = true then
    (d.bump Reg.eopTagFails, .fail (err stSession))
  else
    let base := tblGetD d.eop.bases (nonceKey p h.epoch) 0
    if 2 ^ 48 ≤ base then (d, .fail (err stSession))
    else
      openSession q level base false { d with eop := { d.eop with
        nonces := d.eop.nonces.filter (fun e => e.1 != p) ++ [(p, h.epoch, nonce)]
        bases := tblPut (d.eop.bases.filter (fun e => e.1 % 65536 != p)) (nonceKey p h.epoch) (base + 2 ^ 32) } }

/-- SESSION op 0: the OPEN exchange uses SESSION 0; its level stays within the transport's limit and 32 sessions. -/
def execSessionOpen (q : Req) (level : BitVec 8) (nonce : BitVec 48) (s : State) : Host.Outcome State Fault Refusal :=
  onDev s (fun d => d.serve q 6 0 false 0 (fun _ d =>
    if q.session ≠ 0 then (d, .fail (err stMalformed))
    else if 3 < level.toNat then (d, .fail (err stInvalidValue))
    else if d.get (Reg.eopTransportMax q.transport) < level.toNat then (d, .fail (err stDenied))
    else if 32 ≤ d.eop.sessions.length then (d, .fail (err stTableFull))
    else if level.toNat < 2 then openSession q level.toNat 0 false d
    else openTagged q level.toNat nonce.toNat d))

/-- SESSION op 1: the session ends. -/
def execSessionClose (q : Req) (s : State) : Host.Outcome State Fault Refusal :=
  onDev s (fun d => d.serve q 6 0 false 0 (fun _ d =>
    if q.session = 0 then (d, .fail (err stSession)) else (d.keepSessions (fun x => x.num != q.session.toNat), .ok (beBytes 1 1))))

/-- SESSION op 2: the session lives on; any request restarts its idle time. -/
def execSessionKeepalive (q : Req) (s : State) : Host.Outcome State Fault Refusal :=
  onDev s (fun d => d.serve q 6 0 false 0 (fun _ d =>
    if q.session = 0 then (d, .fail (err stSession)) else (d, .ok (beBytes 1 2))))

/-- SESSION_IDLE_TIMEOUT: EOP_SESSION_IDLE seconds without a request end a session, or (session 0) the subscriptions of an address. -/
def execSessionIdleTimeout (session : BitVec 8) (transport : Fin 4) (addr : Nat) (s : State) : Host.Outcome State Fault Refusal :=
  onDev s (fun d =>
    if d.dead then d
    else
      let d := d.takeSeq
      if session ≠ 0 then
        if d.eop.sessions.any (fun x => x.num == session.toNat) then d.keepSessions (fun x => x.num != session.toNat) else d.stale
      else
        let mine (x : Subscription) : Bool := x.session == 0 && x.transport == transport.val && x.addr == addr
        if d.eop.subs.any mine then
          { d with eop := { d.eop with
              subs := d.eop.subs.filter (fun x => !mine x)
              lost := d.eop.lost.filter (fun x => !(x.session == 0 && x.transport == transport.val && x.addr == addr)) } }
        else d.stale)

/-! ### Messages that are not executed (R408) -/

/-- EOP_HEADER_UNREADABLE: discarded without answer, counted. -/
def execEopHeaderUnreadable (transport : Fin 4) (s : State) : Host.Outcome State Fault Refusal :=
  onDev s (fun d => if d.serves ∧ transport.val < 4 then d.takeSeq.bump Reg.eopDiscards else d)

/-- EOP_MESSAGE_MALFORMED: the header is intact, the rest is wrong: answered, not executed. -/
def execEopMessageMalformed (q : Req) (svc : BitVec 8) (s : State) : Host.Outcome State Fault Refusal :=
  onDev s (fun d => d.serve q svc.toNat 0 false Reg.pwrResetCause.ref (fun _ d => (d, .fail (err stMalformed))))

/-! ### The management SPI slave (R410, R411) -/

/-- The status byte shifted out with every command: [0] a message waits, [1] the last message write was lost, [2] the dictionary is ready. -/
def Device.spiStatus (d : Device) : Device :=
  d.send (.spiStatus (b2n (!d.eop.spiOut.isEmpty) + 2 * b2n d.eop.spiLost + 4 * d.get Reg.idDictReady))

/-- SPI_WRITE_MESSAGE: a message written in; its request runs as the command of its service. Without space it is lost and counted. -/
def execSpiWriteMessage (space : Bool) (s : State) : Host.Outcome State Fault Refusal :=
  onDev s (fun d =>
    if d.dead then d
    else
      let d := d.spiStatus
      let d := { d with eop := { d.eop with spiLost := !space } }
      if space then d else d.bump Reg.eopBusy)

/-- SPI_READ_MESSAGE: the oldest waiting response or notice leaves; length 0 where none waits. -/
def execSpiReadMessage (s : State) : Host.Outcome State Fault Refusal :=
  onDev s (fun d =>
    if d.dead then d
    else
      let d := d.spiStatus
      match d.eop.spiOut with
      | [] => d.send (.spiMessage none)
      | m :: r => ({ d with eop := { d.eop with spiOut := r } }).send (.spiMessage (some m)))

/-- Types that direct access reaches: BOOL, ENUM8, U8 to U64, I8 to I64 (codes 1 to 10 of Table 17.7). -/
def directType (r : ObjRow) : Bool := decide (1 ≤ r.ty ∧ r.ty ≤ 10)

/-- A scalar's value as 64 bits, zero- or sign-extended. -/
def Device.direct64 (d : Device) (r : ObjRow) (ref : Nat) : Nat := ofSigned 64 (rowValue r (d.scalar r ref))

/-- The status of a direct read. -/
def Device.directStatus (d : Device) (ref : Nat) : Except Nat ObjRow :=
  match rowOf ref with
  | none => .error stNoObject
  | some r =>
    if d.phase = .recovery ∧ ! [0x1000, 0xB000, 0xB002].contains (ref / 256) then .error stNotPermitted
    else if !directType r then .error stWrongType
    else if r.access = .wo then .error stDenied
    else .ok r

/-- SPI_DIRECT_READ: a half of a scalar at operator privilege. The low half of a 64-bit object latches the high half; the high half comes from the latch
within 1 ms and with no other direct read between, flag [0] set, else live. -/
def execSpiDirectRead (ref : BitVec 24) (high : Bool) (s : State) : Host.Outcome State Fault Refusal :=
  onDev s (fun d =>
    if d.dead then d
    else if !d.serves then d.spiStatus
    else
      let d := d.takeSeq.spiStatus
      let put (l : Option (Nat × Nat × Nat)) : Device := { d with eop := { d.eop with latch := l } }
      match d.directStatus ref.toNat with
      | .error e => (put none).send (.spiRead e 0 0)
      | .ok r =>
        let v := d.direct64 r ref.toNat
        if !high then
          (put (if r.width = 64 then some (ref.toNat, v / 2 ^ 32, d.now) else none)).send (.spiRead 0 0 (v % 2 ^ 32))
        else
          match d.eop.latch with
          | some (x, h, t) =>
            if x = ref.toNat ∧ d.now ≤ t + fuMs then d.send (.spiRead 0 1 h) else (put none).send (.spiRead 0 0 (v / 2 ^ 32))
          | none => d.send (.spiRead 0 0 (v / 2 ^ 32)))

/-- The request that a direct write stands for: SPI, no session, operator privilege, no bake time, the late policy of SCHED_LATE_POLICY. -/
def directReq : Req := ⟨1, 0, 0, 0, 0, 0, 0, 0, false, 0, 0, 0, []⟩

/-- The service code under which a deferred direct write waits: its status left at once. -/
def svcDirect : Nat := 0x21

/-- What a direct write of a word gives: the object reaches 32 bits, the word extends the object's width. -/
def directWrite (ref word : Nat) (d : Device) : Device × Nat :=
  match rowOf ref with
  | none => (d, stNoObject)
  | some r =>
    let v := word % 2 ^ r.width
    if !directType r ∨ 32 < r.width then (d, stWrongType)
    else if d.phase = .recovery then (d, stNotPermitted)
    else if 1 < writeLevelOf r ref v then (d, stDenied)
    else if ofSigned 32 (rowValue r v) ≠ word then (d, stInvalidValue)
    else
      let x := writeAny directReq ref ⟨(rowObj r ref).bytes, v⟩ d
      let d' := { x.1 with
        eop := { x.1.eop with withheld := d.eop.withheld }
        deferred := x.1.deferred.map (fun e => if d.deferred.contains e then e else { e with svc := svcDirect }) }
      match x.2 with
      | .fail e => (d', e.status)
      | _ => (d', stSuccess)

/-- SPI_DIRECT_WRITE: 32 bits into a scalar of 32 bits or fewer at operator privilege; the device sends a status. -/
def execSpiDirectWrite (ref : BitVec 24) (word : BitVec 32) (s : State) : Host.Outcome State Fault Refusal :=
  onDev s (fun d =>
    if d.dead then d
    else if !d.serves then d.spiStatus
    else
      let x := directWrite ref.toNat word.toNat d.takeSeq.spiStatus
      x.1.send (.spiWrite x.2))

/-! ### Line messages (R412, R413) -/

/-- The INDEX that marks a message already discarded, until its last segment has come. -/
def discarded : Nat := 65536

def Device.putParts (d : Device) (l : List Reassembly) : Device := { d with eop := { d.eop with reassembly := l } }

/-- EOP_SEGMENT: a segment continues its message at the next INDEX; a gap discards the message, counted once; the last segment completes it, and the
request (or answer) it holds runs as its own command. -/
def execEopSegment (c : CarrierNo) (leaf : Nat) (seg : BitVec 512) (s : State) : Host.Outcome State Fault Refusal :=
  onDev s (fun d =>
    let w := seg.toNat
    if !d.serves ∨ bits w 511 504 ≠ 0x40 then d
    else
      let d := d.takeSeq
      let msg := bits w 495 480
      let idx := bits w 479 464
      let mine (r : Reassembly) : Bool := r.carrier == c.val && r.leaf == leaf && r.msgId == msg
      let others := d.eop.reassembly.filter (fun r => !mine r)
      let last := bitAt w 502
      let keep (r : Reassembly) (x : Device) : Device := x.putParts (if last then others else others ++ [r])
      let data := beBytes 58 (w % 2 ^ 464)
      match d.eop.reassembly.find? mine with
      | some r =>
        if bitAt w 503 then
          let d := if r.nextIndex = discarded then d else d.bump Reg.eopDiscards
          if idx = 0 then keep ⟨c, leaf, msg, 1, data⟩ d else keep ⟨c, leaf, msg, discarded, []⟩ (d.bump Reg.eopDiscards)
        else if r.nextIndex = discarded then keep r d
        else if idx = r.nextIndex then keep { r with nextIndex := idx + 1, data := r.data ++ data } d
        else keep ⟨c, leaf, msg, discarded, []⟩ (d.bump Reg.eopDiscards)
      | none =>
        if bitAt w 503 ∧ idx = 0 then keep ⟨c, leaf, msg, 1, data⟩ d
        else keep ⟨c, leaf, msg, discarded, []⟩ (d.bump Reg.eopDiscards))

/-- EOP_REASSEMBLY_TIMEOUT: a message not complete 100 ms after its first segment is discarded and counted. -/
def execEopReassemblyTimeout (c : CarrierNo) (leaf : Nat) (msg : BitVec 16) (s : State) : Host.Outcome State Fault Refusal :=
  onDev s (fun d =>
    if d.dead then d
    else
      let d := d.takeSeq
      let mine (r : Reassembly) : Bool := r.carrier == c.val && r.leaf == leaf && r.msgId == msg.toNat
      match d.eop.reassembly.find? mine with
      | none => d.stale
      | some r =>
        let d := d.putParts (d.eop.reassembly.filter (fun r => !mine r))
        if r.nextIndex = discarded then d else d.bump Reg.eopDiscards)

/-- The answer to a forwarded request, under the original REQ_ID. -/
def forwardResp (f : Forward) (status : Nat) (body : List Nat) : Resp := ⟨f.transport, f.addr, f.service, f.session, f.reqId, status, body⟩

/-- A forward that waits for its answer, taken from the list. -/
def Device.takeForward (d : Device) (msg : Nat) : Device := { d with eop := { d.eop with forwards := d.eop.forwards.filter (fun f => f.msgId != msg) } }

/-- FORWARDED_ANSWER: the answer goes back to the asker. -/
def execForwardedAnswer (msg : BitVec 16) (status : BitVec 8) (body : List Byte) (s : State) : Host.Outcome State Fault Refusal :=
  onDev s (fun d =>
    match d.eop.forwards.find? (fun f => f.msgId == msg.toNat) with
    | none => d
    | some f => (d.takeSeq.takeForward msg.toNat).emit (forwardResp f status.toNat (body.map (·.toNat))))

/-- FORWARD_TIMEOUT: no answer within EOP_FORWARD_LIMIT. -/
def execForwardTimeout (msg : BitVec 16) (s : State) : Host.Outcome State Fault Refusal :=
  onDev s (fun d =>
    if d.dead then d
    else
      let d := d.takeSeq
      match d.eop.forwards.find? (fun f => f.msgId == msg.toNat) with
      | none => d.stale
      | some f => (d.takeForward msg.toNat).emit (forwardResp f stTimeout (errBytes (err stTimeout))))

/-! ### Writes that waited for sleeping resources (R477) -/

/-- A deferred write takes effect, and its response leaves. -/
def Device.resume (d : Device) (x : Deferred) : Device :=
  if x.svc = 5 then
    let r := domainEffect x.req x.ref x.data d
    let r := match r.2 with
      | .ok _ => d.withholdAs x.req 5 x.ref (r.1.journalData x.ref x.data, r.2)
      | _ => r
    r.1.reply x.req 5 r.2
  else
    match rowOf x.ref with
    | none => d
    | some r =>
      let y := writePlain.ofExcept (plainEffect r x.ref x.value d) d
      if x.svc = svcDirect then y.1
      else
        let y := d.withhold x.req x.ref y
        y.1.reply x.req x.svc y.2

/-- RESOURCE_READY: a waking resource reaches P0; writes that waited for it alone take effect in the order they came. -/
def execResourceReady (resource : Fin 848) (s : State) : Host.Outcome State Fault Refusal :=
  onDev s (fun d =>
    if d.dead ∨ !(d.resource resource).waking then d
    else
      let d := d.takeSeq.awake resource
      let l : List Deferred := d.deferred.map (fun x : Deferred => { x with needs := x.needs.filter (· != resource.val) })
      ({ d with deferred := l.filter (fun x => !x.needs.isEmpty) } : Device).each (l.filter (fun x => x.needs.isEmpty)) (fun x y => y.resume x))

end Sys2Proof.Machine
end

