-- ==== Sys2Proof/Machine/Sched.lean ====
section
/-! DEFINITION. The event arbiter, arming, time steps, bundles and the calendar boundary (chapters 02, 08 and 17). -/

namespace Sys2Proof.Machine

def Device.onSched (d : Device) (f : Sched → Sched) : Device := { d with sched := f d.sched }

/-! ### The arbiter (R31, R32) -/

/-- Rows 10 and 11 of Table 2.4 are timer expiries. -/
def isTimer (e : ArbEvent) : Bool := decide (10 ≤ e.row.val)

/-- The keys of events new in a cycle: row, sub-order, chapter order, clock, place within the source. -/
def arbKey (e : ArbEvent) : List Nat := [e.row, e.sub, e.order, e.clock, e.place]

/-- New events in the order of their keys. -/
def freshOrder (l : List ArbEvent) : List ArbEvent := sortBy (fun a b => lexLt (arbKey a) (arbKey b)) l

/-- Every waiting event in the order of R31: arrivals before timer expiries, carried ones before new ones in each. -/
def arbOrder (carried fresh : List ArbEvent) : List ArbEvent :=
  carried.filter (fun e => !isTimer e) ++ freshOrder (fresh.filter (fun e => !isTimer e)) ++ carried.filter isTimer ++ freshOrder (fresh.filter isTimer)

/-- ARBITER_CYCLE: the first 16 waiting events take the next sequence numbers, the rest are carried. Device time advances by the cycle's 2.5 ns inside the
calendar cycle. -/
def execArbiterCycle (fresh : List ArbEvent) (s : State) : Host.Outcome State Fault Refusal :=
  onDev s (fun d =>
    if d.phase = .reset then d
    else
      let l := arbOrder d.sched.carried fresh
      let n := min 16 l.length
      let last := d.sched.lastSeq + n
      let d := d.onSched (fun x => { x with
        lastSeq := last, carried := l.drop 16, granted := x.granted ++ (List.range n).map (fun k => x.lastSeq + k + 1) })
      let d := if d.now + fuArbiter < nextMultiple fuCycle d.now then { d with now := d.now + fuArbiter } else d
      d.set Reg.schedLastSeq last)

/-! ### Time steps (R19 to R21) -/

/-- SCHED_TIME_STEP. -/
def execSchedTimeStep (q : Req) (v : Val) (s : State) : Host.Outcome State Fault Refusal :=
  onDev s (fun d => d.serve q 2 1 true Reg.schedTimeStep.ref (fun _ d =>
    d.plainWrite Reg.schedTimeStep q v (fun d =>
      match applyTimeStep v.raw d with
      | .error e => (d, .fail e)
      | .ok x => (x, okWrite))))

/-- Instants kept for durations, under the new label: device time is relabelled, nothing that runs is disturbed (R20). m maps an instant, c a calendar
cycle. -/
def relabelTim (m : Nat → Nat) (t : Tim) : Tim :=
  { t with
    cands := t.cands.map (fun e => (e.1, { e.2 with proofEnd := m e.2.proofEnd }))
    pull := t.pull.map (fun e => (e.1, m e.2.1, e.2.2))
    hist := t.hist.map (fun e => (m e.1, e.2))
    gnssEdge := t.gnssEdge.map m
    gnssPaired := t.gnssPaired.map m
    extEdge := t.extEdge.map (fun e => (e.1, m e.2))
    outNext := t.outNext.map (fun e => (e.1, e.2.1, m e.2.2))
    ppsAt := t.ppsAt.map m
    ptp := t.ptp.map (fun e => (e.1, { e.2 with t2 := e.2.t2.map m, t3 := e.2.t3.map m, syncAt := e.2.syncAt.map m, announceAt := e.2.announceAt.map m, awaits := e.2.awaits.map (fun a => (a.1, m a.2)) }))
    lt := ⟨{ t.lt.c0 with exchangeAt := t.lt.c0.exchangeAt.map m, infoAt := t.lt.c0.infoAt.map m },
           { t.lt.c1 with exchangeAt := t.lt.c1.exchangeAt.map m, infoAt := t.lt.c1.infoAt.map m }⟩
    ho := { t.ho with lastTrace := t.ho.lastTrace.map m } }

/-- The same of the decoder pool: ready and placement instants. The windows of R120 end at their first end under the new time. -/
def relabelFec (m : Nat → Nat) (new : Nat) (f : FecPool) : FecPool :=
  let word (w : Codeword) : Codeword := { w with ready := m w.ready, placed := m w.placed }
  { f with
    slots := f.slots.map (fun e => (e.1, word e.2))
    held := f.held.map word
    stopped := f.stopped.map (fun w => { w with word := word w.word })
    win := ⟨{ f.win.c0 with start := new }, { f.win.c1 with start := new }⟩
    since := m f.since }

/-- The same of a framer: ticks, cycle marks and the messages sent until an instant. -/
def relabelFramer (m : Nat → Nat) (f : Framer) : Framer :=
  { f with
    tickAt := m f.tickAt
    rx := f.rx.map (fun e => (e.1, { e.2 with
      mark := e.2.mark.map m, pairedAt := m e.2.pairedAt, whole := e.2.whole.map (fun w => (m w.1, w.2)),
      held := e.2.held.map (fun u => { u with at_ := if u.slot = some 0 then m u.at_ else u.at_ }) }))
    tx := f.tx.map (fun e => (e.1, { e.2 with
      queue := e.2.queue.map (fun u => { u with ready := m u.ready }), sending := e.2.sending.map (fun x => { x with tick := m x.tick }) }))
    slots := f.slots.map (fun x => { x with till := if x.till = 0 then 0 else m x.till }) }

/-- The same of a hub carrier: leaves' windows and the cycles of grant switches. -/
def relabelHub (m c : Nat → Nat) (h : Hub) : Hub :=
  { h with
    leaves := h.leaves.map (fun e => (e.1, { e.2 with
      violations := e.2.violations.map m, snrs := e.2.snrs.map (fun x => (m x.1, x.2)), staleUntil := c e.2.staleUntil }))
    switches := h.switches.map (fun g => { g with launch := c g.launch, receive := c g.receive }) }

/-- The same of redundancy. -/
def relabelTwin (m : Nat → Nat) (t : Twin) : Twin :=
  { t with
    dissents := t.dissents.map (fun e => (e.1, m e.2))
    resyncAt := t.resyncAt.map (fun e => (e.1, m e.2))
    lowerSince := t.lowerSince.map m
    frameAt := t.frameAt.map m
    lostAt := t.lostAt.map m
    driveAt := t.driveAt.map m
    closed := t.closed.map (fun e => { e with closedAt := m e.closedAt }) }

/-- The same of a hitless group of n slots: the legs' arrivals and the output time. -/
def relabelHitless (new old n : Nat) (s : GroupState) : GroupState :=
  let shift (t : Option Int) : Option Int := t.map (fun x => x + n * ((new : Int) - old))
  { s with w := { s.w with norm := shift s.w.norm }, p := { s.p with norm := shift s.p.norm }, outBase := shift s.outBase }

/-- The same of packets, memories, the monitor, telemetry and the schedule: no arming point of a pending action lies before the step. -/
def Device.relabelRest (d : Device) (m c : Nat → Nat) : Device :=
  { d with
    resources := d.resources.map (fun e => (e.1, if e.2.waking then { e.2 with readyAt := m e.2.readyAt } else e.2))
    eop := { d.eop with latch := d.eop.latch.map (fun l => (l.1, l.2.1, m l.2.2)) }
    sched := { d.sched with actions := d.sched.actions.map (fun a =>
      { a with acceptAt := m a.acceptAt, notBefore := max (if a.notBefore = 0 then 0 else m a.notBefore) (m d.now - 1) }) }
    fab := { d.fab with states := d.fab.states.map (fun e => (e.1, { relabelHitless (m d.now) d.now (d.fab.active.members e.1).length e.2 with wtrEnd := m e.2.wtrEnd, pend := e.2.pend.map (fun x => (m x.1, x.2)) })) }
    pkt := { d.pkt with queues := d.pkt.queues.map (fun e =>
      (e.1, { e.2 with items := e.2.items.map (fun i => { i with deadline := m i.deadline }) })) }
    mem := { d.mem with lapStart := d.mem.lapStart.map (fun e => (e.1, m e.2)), mramAt := d.mem.mramAt.map (fun e => (e.1, m e.2)) }
    sec := { d.sec with mismatches := d.sec.mismatches.map m, ended := d.sec.ended.map (fun e => (e.1, m e.2)), matched := d.sec.matched.map (fun e => (e.1, m e.2)) }
    lane := { d.lane with
      txNext := d.lane.txNext.map (fun e => (e.1, c e.2))
      cwBad := d.lane.cwBad.map (fun e => (e.1, m e.2.1, e.2.2))
      flexUp := d.lane.flexUp.map (fun e => (e.1, m e.2)) }
    mon := { d.mon with
      yieldEnd := d.mon.yieldEnd.map m
      seqs := d.mon.seqs.map (fun e => (e.1, { e.2 with startAt := m e.2.startAt }))
      measured := d.mon.measured.map (fun e => (m e.1, e.2)) }
    tel := { d.tel with
      sweeps := d.tel.sweeps.map (fun e => (e.1, { e.2 with startAt := m e.2.startAt }))
      stepped := List.range 36
      bwStep := true } }

/-- Device time takes a new value at this boundary. -/
def Device.relabel (d : Device) (new : Nat) : Device :=
  let m (t : Nat) : Nat := t + new - d.now
  let c (n : Nat) : Nat := n + new / fuCycle - d.now / fuCycle
  let x := d.relabelRest m c
  { x with
    now := new
    frm := ⟨relabelFramer m d.frm.c0, relabelFramer m d.frm.c1⟩
    rx := ⟨{ d.rx.c0 with acqAt := m d.rx.c0.acqAt, cdAt := m d.rx.c0.cdAt }, { d.rx.c1 with acqAt := m d.rx.c1.acqAt, cdAt := m d.rx.c1.cdAt }⟩
    fec := relabelFec m new d.fec
    hub := ⟨relabelHub m c d.hub.c0, relabelHub m c d.hub.c1⟩
    tim := relabelTim m d.tim
    twin := relabelTwin m d.twin }

/-- Pending actions that a step made late under policy 0 end "failed" (R21, R25). -/
def Device.failLate (d : Device) : Device :=
  d.each (d.sched.actions.filter (fun a => a.armed.isNone && !a.held && a.epoch == 0 && !a.late1 && d.isLate a)) (fun a x => x.failAction a (err stBakePast))

/-- The value that a step due now gives device time: the host's, else that of the first acquisition. -/
def Device.stepDue (d : Device) : Option Nat :=
  match d.sched.step, d.tim.stepBy with
  | some t, _ => some t
  | none, some k => some ((d.now : Int) + k).toNat
  | none, none => none

/-- TIME_STEP_EFFECT: at the first calendar boundary with no armed action the boundary takes the new value; subscribers are told. A host's step leaves
Host-set. -/
def execTimeStepEffect (s : State) : Host.Outcome State Fault Refusal :=
  onDev s (fun d =>
    match d.stepDue with
    | none => d
    | some t =>
      if d.dead ∨ d.now % fuCycle ≠ 0 ∨ d.sched.actions.any (fun a => a.armed.isSome) then d
      else
        let host := d.sched.step.isSome
        let d := (d.takeSeq.relabel t).onSched (fun x => { x with step := none })
        let d := d.onTim (fun x => { x with stepBy := if host then x.stepBy else none })
        let d := if host ∧ d.get Reg.schedTimeState = 0 then d.set Reg.schedTimeState 1 else d
        (d.notice Reg.schedTimeStep [fuToTime96 t]).failLate)

/-! ### Cancelling (R24) -/

/-- SCHED_CANCEL. -/
def execSchedCancel (q : Req) (v : Val) (s : State) : Host.Outcome State Fault Refusal :=
  onDev s (fun d => d.serve q 2 1 true Reg.schedCancel.ref (fun _ d =>
    d.plainWrite Reg.schedCancel q v (fun d =>
      match applyCancel v.raw d with
      | .error e => (d, .fail e)
      | .ok x => (x, okWrite))))

/-! ### Arming (R24, R189, R418) -/

/-- A member as BUNDLE carries it. -/
def asWritten (m : Member) : BundleMember :=
  let n := match rowOf m.ref with
    | some r => (rowObj r m.ref).bytes
    | none => 0
  ⟨BitVec.ofNat 24 m.ref, ⟨n, m.value⟩⟩

/-- The pre-images of the members that MRAM stores. -/
def Device.preimages (d : Device) (l : List Member) : List Member :=
  (l.filter (fun m => storedScalar m.ref)).filterMap (fun m => (rowOf m.ref).map (fun r => ⟨m.ref, d.scalar r m.ref⟩))

/-- Preparation of a bundle at its arming: the checks against the state now in force; on success the pre-images and their writes to MRAM. -/
def Device.prepareBundle (d : Device) (a : Action) : Device :=
  let free : Device := { d with twin := { d.twin with applying := true } }
  match membersCheck true directReq 3 false 0 [] (a.members.map asWritten) free with
  | some e => d.putAction { a with prepFail := some e }
  | none =>
    let pre := d.preimages a.members
    (d.putAction { a with preimages := pre }).onSched (fun x => { x with bundles := x.bundles ++ [⟨a.args.headD 0, pre, [], false⟩] })

/-- A loading switch armed for boundary b is announced in every group it takes, with that group's first frame under it (R131); the reference group's is that of
the ACK (R97). A hub code is announced on its own group (R151). -/
def Device.announceSwitch (d : Device) (a : Action) (b : Nat) : Device :=
  let frame (x : Device) (m g : Nat) : Nat := Config.frameAt m g (x.txg m g).frameCount x.now b % 2 ^ 48
  let tell (x : Device) (m g table f : Nat) : Device := if x.txCarries m g then x.putTxg m g { x.txg m g with announce := some (table, f) } else x
  if a.target = 0 then
    match a.args with
    | c :: table :: _ =>
      let acked := ((d.rx.at c).ackOut.filter (fun t => t.1 == table)).map (·.2.2)
      let ref := d.txReference c
      d.each (d.loadCarriers c) (fun m x => x.each (x.groups m) (fun g y =>
        tell y m g table (if m = c ∧ ref = some g then acked.getD (frame y m g) else frame y m g)))
    | _ => d
  else
    let p := dsCodeOf a.target
    if d.on (Reg.hubEnable p.1) ∧ d.get (Reg.lineTxState p.1) ≠ 0 then tell d p.1 p.2 a.value (frame d p.1 p.2) else d

/-- An armed action's class-specific preparation: a swap begins its pass, a bundle prepares its members, a grant switch tells its leaves, a loading switch
is announced. -/
def Device.prepare (d : Device) (a : Action) (b : Nat) : Device :=
  let d := if swaps a then { d with fab := { d.fab with passed := false } }.set Reg.fabMapNextState 2 else d
  if a.cls = 0x0009 then d.prepareBundle a
  else if a.cls = 0x000A then prepareGrant a b d
  else if a.cls = 0x0002 then d.announceSwitch a b
  else d

/-- The boundary that an action is armed for: the first eligible one; of a running transmit frame clock, the tick given, if it is eligible. -/
def Device.armBoundary (d : Device) (a : Action) (tick : Nat) : Option Nat :=
  match kindCarrier a.kind with
  | some c =>
    if d.tickIsCalendar c then (if d.eligible a ≤ d.now + fuArm then some (d.eligible a) else none)
    else if max (bakeFu a) (max a.acceptAt a.notBefore + fuArm + 1) ≤ tick ∧ d.now < tick ∧ tick ≤ d.now + fuArm then some tick
    else none
  | none => if d.eligible a ≤ d.now + fuArm then some (d.eligible a) else none

/-- ACTION_ARMING: 25.6 µs before its boundary an action is armed, its boundary fixed; stale where a cancel came first. A swap whose arming point falls
while the next bank is not ready waits for the rebuild (R189). `tick`: the start of the line frame, for a line-frame kind. -/
def execActionArming (handle : BitVec 32) (tick : Nat) (s : State) : Host.Outcome State Fault Refusal :=
  onDev s (fun d =>
    if d.dead then d
    else
      match d.action? handle.toNat with
      | none => d.takeSeq.stale
      | some a =>
        if a.armed.isSome ∨ a.held ∨ a.epoch ≠ 0 then d
        else
          match d.armBoundary a tick with
          | none => d
          | some b =>
            let d := d.takeSeq
            if swaps a ∧ d.get Reg.fabMapNextState ≠ 0 then d.putAction { a with held := true }
            else
              let a := { a with armed := some b, armSeq := d.sched.cur }
              (d.putAction a).prepare a b)

/-- DEVICE_ACTION_PLACE_FREED: the device-created action that has waited longest takes the place that freed (R28). -/
def execDeviceActionPlaceFreed (s : State) : Host.Outcome State Fault Refusal :=
  onDev s (fun d =>
    match d.sched.waiting with
    | [] => d
    | a :: r =>
      if d.dead then d
      else if d.deviceUsed < 256 then ((d.takeSeq.onSched (fun x => { x with waiting := r })).enter { a with hostPlace := false }).1
      else if d.hostUsed < 3840 then ((d.takeSeq.onSched (fun x => { x with waiting := r })).enter { a with hostPlace := true }).1
      else d)

/-! ### Firing (R23, R29, R418, R419) -/

/-- Class 0x0008 actions whose firing has a row of its own. -/
def firesElsewhere (a : Action) : Bool :=
  let i := a.target / 256
  a.target == Reg.secCgApply.ref || a.target == Reg.timeLoopMode.ref || a.target == Reg.laneFlexeApply.ref ||
    (decide (0x8010 ≤ i ∧ i ≤ 0x8017) && a.value == 1) || (decide (0x9300 ≤ i ∧ i ≤ 0x9302) && a.value == 1)

/-- SINGLE_RWS_WRITE_FIRE: the value written comes into force. -/
def execSingleRwsWriteFire (handle : BitVec 32) (poison : Bool) (s : State) : Host.Outcome State Fault Refusal :=
  onDev s (fun d =>
    if d.dead then d
    else
      match d.action? handle.toNat with
      | none => d
      | some a =>
        if firesElsewhere a then d
        else d.fire handle.toNat 0x0008 poison (fun a d =>
          match rowOf a.target with
          | some r => rwsEffect r a.target a.value d
          | none => .ok d))

/-- One member takes effect. -/
def memberEffect (ref v : Nat) (d : Device) : Except Err Device :=
  match rowOf ref with
  | none => .error (err stNoObject)
  | some r =>
    match r.access with
    | .rws => rwsEffect r ref v d
    | .rwc =>
      match clearCheck ref d with
      | some e => .error e
      | none => .ok (clearEffect r ref d)
    | _ => plainEffect r ref v d

/-- Every member in order, as one step; the first that fails, or meets poison, fails them all. -/
def membersEffect (poisoned : Option Nat) : Nat → List Member → Device → Except Err Device
  | _, [], d => .ok d
  | i, m :: r, d =>
    if poisoned = some i then .error ((err stUncorrectable).at_ i)
    else
      match memberEffect m.ref m.value d with
      | .error e => .error (e.at_ i)
      | .ok x => membersEffect poisoned (i + 1) r x

/-- A bundle's effect at its boundary: its members, and its new stored values behind their pre-images. -/
def bundleEffect (poisoned : Option Nat) (a : Action) (d : Device) : Except Err Device :=
  match membersEffect poisoned 0 a.members d with
  | .error e => .error e
  | .ok x => .ok (x.onSched (fun t => { t with bundles := t.bundles.map (fun b => if b.bundle = a.args.headD 0 then { b with values := a.members } else b) }))

/-- A bundle that failed: its pre-images go, and its pass. -/
def Device.bundleFailed (d : Device) (a : Action) : Device :=
  let d := d.onSched (fun t => { t with bundles := t.bundles.filter (fun b => !(b.bundle == a.args.headD 0 && b.values.isEmpty)) })
  if swaps a ∧ d.get Reg.fabMapNextState = 2 then d.undoPass else d

/-- TIMED_BUNDLE_FIRE: a bundle, timed or immediate, fires: every member takes effect, or none. `poisoned`: the member whose apply met poison. -/
def execTimedBundleFire (handle : BitVec 32) (poisoned : Option Nat) (s : State) : Host.Outcome State Fault Refusal :=
  onDev s (fun d =>
    if d.dead then d
    else
      match d.action? handle.toNat with
      | none => d
      | some a =>
        if a.prepFail.isNone ∧ (swapMember a).isSome ∧ !d.fab.passed then d
        else
        let x := d.fire handle.toNat 0x0009 false (bundleEffect poisoned)
        if a.cls ≠ 0x0009 ∨ (x.action? handle.toNat).isSome then x
        else
          let x := if poisoned.isSome ∧ a.prepFail.isNone then x.consumed 9 0x7FF0 else x
          if x.sched.bundles.any (fun b => b.bundle == a.args.headD 0 && !b.values.isEmpty) then x else x.bundleFailed a)

/-- PREIMAGE_DURABLE: every pre-image of a bundle is durable; the writes of its new values go ahead. -/
def execPreimageDurable (bundle : Nat) (s : State) : Host.Outcome State Fault Refusal :=
  onDev s (fun d =>
    if d.phase = .reset then d
    else d.onSched (fun t => { t with bundles := t.bundles.map (fun b => if b.bundle = bundle then { b with preDurable := true } else b) }))

/-- Every stored value of the members is durable. -/
def Device.valuesDurable (d : Device) (l : List Member) : Bool := l.all (fun m => !(tblGet d.store.live m.ref).any (·.waits))

/-- BUNDLE_COMMIT_MARK: with every new stored value durable the mark is written and the pre-images freed. -/
def execBundleCommitMark (bundle : Nat) (s : State) : Host.Outcome State Fault Refusal :=
  onDev s (fun d =>
    if d.phase = .reset then d
    else d.onSched (fun t => { t with bundles := t.bundles.filter (fun b =>
      !(b.bundle == bundle && b.preDurable && !b.values.isEmpty && d.valuesDurable b.values)) }))

/-- Pre-images whose bundle has no commit mark are restored, members in reverse order (R419). -/
def Device.restorePreimages (d : Device) : Device :=
  let l := (d.sched.bundles.filter (fun b => !b.values.isEmpty)).reverse.flatMap (fun b => b.preimages.reverse)
  let d := d.each l (fun m x =>
    match memberEffect m.ref m.value x with
    | .ok y => y
    | .error _ => x)
  d.onSched (fun t => { t with bundles := t.bundles.filter (fun b => b.values.isEmpty) })

/-! ### The calendar boundary (R17, R175) -/

/-- A correction that waited for this boundary comes into use (R283, R305). -/
def Device.takeCorrection (d : Device) : Device :=
  match d.tim.cNext with
  | none => d
  | some c => (d.onTim (fun t => { t with cNext := none })).setLoop c

/-- CALENDAR_BOUNDARY: device time reaches the next multiple of 12.8 µs. The cycle that ends has read its outputs under the bank in force since its beginning,
a swap that fired there included (R187), and written its inputs: `upsets`, what has come to differ in copies of the map; `errors`, those that blocks met in their memories. Ports and counters end their cycle, and the
power states are chosen afresh. Before the image is proved only the mate lanes work (Table 20.3, step 1). -/
def execCalendarBoundary (upsets : List Upset) (errors : List MemError) (lanes : List LaneReport) (counts : List (Nat × Nat)) (s : State) :
    Host.Outcome State Fault Refusal :=
  onDev s (fun d =>
    if d.phase = .reset then d
    else
      let d := { d with now := nextMultiple fuCycle d.now, pwr := { d.pwr with cycles := d.pwr.cycles + 1 } }
      if d.dead then d.sendLanes
      else
        let d := (((d.memErrors errors).cycleEnds lanes upsets).takeCorrection).selectorsMove
        let d := (d.lanesBoundary lanes).countCycle counts
        if d.phase = .running then d.powerChoices else d)

end Sys2Proof.Machine
end

