-- ==== Sys2Proof/Machine/Mirror.lean ====
section
/-! DEFINITION. The standby takes the mirror: records applied to its own hardware, epochs committed, a baseline taken (R27, R354 to R358). -/

namespace Sys2Proof.Machine

/-! ### Places of mirrored actions (R27, R28) -/

/-- The most recently accepted device-created action that is not armed and holds a place of the host pool. -/
def Device.lastOwnInHost (d : Device) : Option Action :=
  (d.sched.actions.filter (fun a => (a.origin == .device || a.origin == .line) && a.hostPlace && a.armed.isNone)).foldl
    (fun m a => match m with
      | none => some a
      | some b => if b.acceptSeq ≤ a.acceptSeq then some a else some b) none

/-- That action gives up its place and is handled as one that finds neither pool free (R28). -/
def Device.giveUpPlace (d : Device) (a : Action) : Device :=
  ((d.dropAction a.handle).bump Reg.schedDeviceWaits).waitPlace a

/-- A mirrored action is never refused: it takes a place of the host pool, else of the device pool, else that of a device-created action. Resources it names
that sleep begin to wake (R35). -/
def Device.enterMirror (d : Device) (a : Action) : Device :=
  let w := d.wakeFor { a with acceptAt := d.now }
  let a := w.2
  let d := w.1
  if d.hostUsed < 3840 then (d.enter { a with hostPlace := true }).1
  else if d.deviceUsed < 256 then (d.enter { a with hostPlace := false }).1
  else
    match d.lastOwnInHost with
    | some x => ((d.giveUpPlace x).enter { a with hostPlace := true }).1
    | none => (d.enter { a with hostPlace := true }).1

/-! ### Records (R354 to R356) -/

/-- The kind of a code (Table 2.2). -/
def kindOf (n : Nat) : ActKind := if n = 1 then .lineC0 else if n = 2 then .lineC1 else if n = 3 then .pps else .calendar

/-- The action a record holds, as the standby schedules it: origin twin mirror, at the boundary the record carries; without one it waits for the
boundary (R357). -/
def Device.mirrorAction (d : Device) (num : Nat) (r : MirrorRec) : Action :=
  let a := newAction (kindOf (r.data.getD 1 0)) .mirror (r.data.getD 0 0) r.ref r.bake r.value
  { a with
    late1 := r.data.getD 2 0 == 1
    args := if a.cls = 9 then [d.sched.nextBundle] else []
    members := r.members
    mirrorOf := r.handle
    epoch := if r.boundary = 0 then num + 1 else 0
    notBefore := if r.boundary = 0 then 0 else r.boundary - fuArm - 1
    needs := d.rwsNeeds r.ref r.value ++ r.members.flatMap (fun m => d.writeNeeds m.ref m.value ++ d.rwsNeeds m.ref m.value) }

/-- A value as the host would write it, under the selector its record carries. -/
def applyMirrorValue (r : MirrorRec) (d : Device) : Except Err Device :=
  let own := d.get Reg.secKeySelect
  let bySelector := r.ref = Reg.secKeyWrite.ref ∨ r.ref = Reg.secPairShared.ref
  match memberEffect r.ref r.value (if bySelector then d.set Reg.secKeySelect r.selector else d) with
  | .error e => .error e
  | .ok x => .ok (if bySelector then x.set Reg.secKeySelect own else x)

/-- One record of an epoch. -/
def applyMirrorRec (num : Nat) (r : MirrorRec) (d : Device) : Except Err Device :=
  match r.kind with
  | 0 => applyMirrorValue r d
  | 1 => if r.ref = Reg.timeHoTwinModel.ref then .ok (d.adoptModel r.data) else ofReply (domainEffect directReq r.ref r.data d)
  | 2 =>
    let a := d.mirrorAction num r
    .ok ((d.enterMirror a).onSched (fun x => { x with nextBundle := if a.cls = 9 then x.nextBundle + 1 else x.nextBundle }))
  | _ =>
    match d.sched.actions.find? (fun a => a.mirrorOf == r.handle && r.handle != 0) with
    | some a => .ok ((d.dropAction a.handle).outcome a 3 none)
    | none => .ok d

/-- Records in order; what a check refuses is left as it is. The records refused come back with the state. -/
def applyMirrorRecs (num : Nat) : List MirrorRec → Device → Device × List MirrorRec
  | [], d => (d, [])
  | r :: l, d =>
    match applyMirrorRec num r d with
    | .ok x => applyMirrorRecs num l x
    | .error _ =>
      let y := applyMirrorRecs num l d
      (y.1, r :: y.2)

def Device.setApplying (d : Device) (b : Bool) : Device := d.onTwin (fun t => { t with applying := b })

/-- An epoch is committed: its records, TWIN_EPOCH, the ACK. -/
def Device.commitEpoch (d : Device) (e : Epoch) : Device :=
  let d := (applyMirrorRecs e.num e.records d).1
  let d := d.set Reg.twinEpoch e.num
  if d.get Reg.twinState = 3 then d.send (.epochAck e.num) else d

/-- EPOCH_COMMIT: at a calendar boundary the epochs received whole are applied, in order, as one step; also those whose link or role went since. -/
def execEpochCommit (s : State) : Host.Outcome State Fault Refusal :=
  onDev s (fun d =>
    if d.dead ∨ d.get Reg.twinMirrorState = 1 ∨ d.now % fuCycle ≠ 0 ∨ d.twin.ready.isEmpty then d
    else
      let l := d.twin.ready
      let d := (d.takeSeq.onTwin (fun t => { t with ready := [] })).setApplying true
      (d.each l (fun e x => x.commitEpoch e)).setApplying false)

/-! ### The baseline (R27, R358) -/

/-- The flow table that edit records give from an empty one. -/
def Device.baseFlows (d : Device) (b : Baseline) : Device :=
  let fs := b.flows.foldl (fun fs w => applyFlowEdit (d.now / fuCycle % 2 ^ 32) fs w) []
  { d with pkt := { d.pkt with flows := fs } }.set Reg.pktFlowCount fs.length

/-- Both banks of the slice map with the generation. -/
def Device.baseMap (d : Device) (b : Baseline) : Device :=
  let empty : Bank := ⟨[], [], [], []⟩
  let active := applyEdits b.mapActive empty
  let d := { d with fab := { d.fab with next := active } }.swapBanks b.mapGen
  { d with fab := { d.fab with next := applyEdits b.mapNext empty, held := [] } }.set Reg.fabMapNextState 0

/-- The halves of a pair as the baseline lists them. -/
def baseHalf (h : Nat × Nat × Nat) : KeyHalf := ⟨h.1, h.2.1, h.2.2⟩

/-- Keys, half states and epochs, SEC_PAIR_SHARED. -/
def Device.baseKeys (d : Device) (b : Baseline) : Device :=
  d.each b.keys (fun e x => x.putPair e.1 { x.pair e.1 with cur := baseHalf e.2.1, next := baseHalf e.2.2.1, shared := e.2.2.2 })

/-- Queue records and the crypt-group table with its generation. -/
def Device.baseTables (d : Device) (b : Baseline) : Device :=
  let d := (queueConfig (b.queues.flatMap (beBytes 16)) d).1
  match applyCgTable b.cgGen (d.setDom Reg.secCgNext.ref (b.crypt.flatMap (beBytes 16))) with
  | .ok x => x
  | .error _ => d

/-- The whole baseline: values and DOMAINs first, those refused once more, then maps, flows, keys and tables; its actions replace those on mirrored objects that the unit
held, which leave as cancelled (R27, R37). -/
def Device.takeBaseline (d : Device) (b : Baseline) : Device :=
  let d := d.each (d.sched.actions.filter (fun a => a.origin == .mirror || (a.origin == .host && d.actMirrored a))) (fun a x => (x.dropAction a.handle).outcome a 3 none)
  let values := b.records.filter (fun r => decide (r.kind < 2))
  let x := applyMirrorRecs b.epoch values d
  let d := (applyMirrorRecs b.epoch x.2 x.1).1
  let d := (((d.baseMap b).baseFlows b).baseKeys b).baseTables b
  (applyMirrorRecs b.epoch (b.records.filter (fun r => decide (2 ≤ r.kind))) d).1

/-- BASELINE_COMPLETE: at a calendar boundary the standby commits the baseline and the epochs that followed it in one step; the mirror is Current. -/
def execBaselineComplete (b : Baseline) (s : State) : Host.Outcome State Fault Refusal :=
  onDev s (fun d =>
    if d.dead ∨ !d.standby ∨ d.get Reg.twinMirrorState ≠ 1 ∨ d.now % fuCycle ≠ 0 then d
    else
      let later := d.twin.ready.filter (fun e => decide (b.epoch < e.num))
      let d := d.takeSeq.onTwin (fun t => { t with ready := [], part := t.part.filter (fun p => decide (b.epoch < p.1)) })
      let d := (d.setApplying true).takeBaseline b
      let d := ((d.set Reg.twinEpoch b.epoch).set Reg.twinMirrorState 2).set Reg.twinBaselineLeft 0
      (((d.send (.epochAck b.epoch)).each later (fun e x => x.commitEpoch e)).setApplying false).refreshCg)

end Sys2Proof.Machine
end

