-- ==== Sys2Proof/Machine/Boot.lean ====
section
/-! DEFINITION. Reset, boot, the load of the dictionary at power-up and the end of a control restart (chapters 14, 17, 18 and 20: R342, R419, R436 to
R443, R463 to R470). -/

namespace Sys2Proof.Machine

/-! ### What MRAM keeps through a reset (Table 10.2) -/

/-- A scalar's line writes that were not durable are lost: the record they would have replaced is in force (R437). -/
def keptScalar (r : StoreRec) : Option StoreRec :=
  if r.waits then r.before.map (fun b => ⟨b.1, b.2, none, false⟩) else some { r with before := none }

/-- A slot whose rewrite ran keeps its other copy (R438); the first rewrite of a slot leaves nothing. -/
def keptSlot (x : DomSlot) : Option DomSlot :=
  if x.rewriting then (if x.gen ≤ 1 then none else some ⟨x.gen - 1, x.before, none, false, none⟩) else some x

/-- The store: the live image as it was durable; a save in progress has left the saved image invalid (R442). -/
def keptStore (s : Store) : Store :=
  { s with
    live := s.live.filterMap (fun e => (keptScalar e.2).map (fun r => (e.1, r)))
    liveDoms := s.liveDoms.filterMap (fun e => (keptSlot e.2).map (fun x => (e.1, x)))
    saving := none, loading := false, loadDoms := [], loadSwap := none }

/-- Wrapped keys, with CUR_USES of each half as it stands (Table 13.4); reservations; the erase-pending record. -/
def keptSec (s : Sec) : Sec :=
  ⟨[], s.wrapped.map (fun e => (e.1, { e.2 with uses := ((tblGet s.pairs e.1).map (·.uses)).getD e.2.uses })), [], s.res, [], [], [], [], [], [], s.erasePending⟩

/-- The starter's history and the two copies of its model. -/
def keptStarter (h : Starter) : Starter := { Starter.initial with history := h.history, copies := h.copies }

/-- The objects that lie in MRAM areas of their own: the state and generation of the calibration set, the boot count. -/
def keptDict (l : List (Nat × Nat)) : List (Nat × Nat) :=
  l.filter (fun e => [Reg.calSetState.ref, Reg.calSetGen.ref, Reg.schedBootCount.ref].contains e.1)

/-- The DOMAINs that lie there: the calibration set, the twin's model (R315). -/
def keptDoms (l : List (Nat × List Nat)) : List (Nat × List Nat) := l.filter (fun e => [Reg.calSet.ref, Reg.timeHoTwinModel.ref].contains e.1)

/-- The device in reset: what MRAM holds is kept, everything else is as it leaves manufacture (R439, R463). An image on its way to MRAM leaves its slot
invalid (R469); pre-images that are not durable are lost (R418). -/
def Device.wiped (d : Device) (cause : Nat) (clock : Bool) : Device :=
  let z := Device.initial
  { z with
    dict := keptDict d.dict
    doms := keptDoms d.doms
    free := d.free
    out := d.out
    eop := { z.eop with nonces := d.eop.nonces, bases := d.eop.bases }
    sched := { z.sched with bundles := d.sched.bundles.filter (fun b => b.preDurable && !b.values.isEmpty) }
    store := keptStore d.store
    mem := { z.mem with mram := d.mem.mram, poisoned := d.mem.poisoned.filter (fun e => e.1 / 2 ^ 48 == 5) }
    tim := { z.tim with ho := keptStarter d.tim.ho }
    sec := keptSec d.sec
    pwr := { z.pwr with
      cause := cause, clock := clock, slots := d.pwr.slots, prefer := d.pwr.prefer, rollback := d.pwr.rollback, boots := d.pwr.boots } }

/-- RESET_ASSERT: RESET_N low, or (`supply`) a supply below its threshold: the device is in reset (R463). -/
def execResetAssert (supply : Bool) (s : State) : Host.Outcome State Fault Refusal :=
  onDev s (fun d =>
    if supply then d.wiped 0 false
    else if d.phase = .reset then d
    else d.wiped 1 d.pwr.clock)

/-- BROWNOUT: a supply below its threshold for 1 µs during operation (R465). -/
def execBrownout (s : State) : Host.Outcome State Fault Refusal :=
  onDev s (fun d => if d.phase = .reset then d else d.wiped 2 false)

/-- OCXO_CLK_RUNNING: the oscillator has run for 1 ms without a break (R493). -/
def execOcxoClkRunning (s : State) : Host.Outcome State Fault Refusal := onDev s (fun d => d.onPwr (fun p => { p with clock := true }))

/-- A stored BOOL is 1. -/
def Device.stored (d : Device) (o : Obj) : Bool := (tblGet d.store.live o.ref).any (fun r => r.value == 1)

/-- X (R464): UNIT_SEL sampled, the boot count raised, device time from 0 in Unset, the cause recorded, the monitor reference enabled, the mate lanes send marks
if the stored TWIN_ENABLE is 1 (R377, Table 20.3); then the boot code checks the slots (R467). -/
def Device.leaveReset (d : Device) (unitSel : Nat) (good : Bool × Bool) : Device :=
  let d := { d with now := 0 }.onPwr (fun p => { p with boots := p.boots + 1, cycles := 0 })
  let d := { d with lane := { d.lane with mateOn := d.stored Reg.twinEnable } }
  let d := (d.set Reg.schedBootCount d.pwr.boots).set Reg.twinUnit unitSel
  ((d.set Reg.pwrResetCause d.pwr.cause).set Reg.monRefState 1).bootFrom good

/-- RESET_END: reset ends. `good`: which slots the boot code would find valid. -/
def execResetEnd (unitSel : Fin 2) (good : Bool × Bool) (s : State) : Host.Outcome State Fault Refusal :=
  onDev s (fun d => if d.phase = .reset ∧ d.pwr.clock = true then d.leaveReset unitSel good else d)

/-- BOOT_FAILURE_TIMEOUT: 2 s from X the dictionary is not ready: the attempt fails (R467). -/
def execBootFailureTimeout (good : Bool × Bool) (s : State) : Host.Outcome State Fault Refusal :=
  onDev s (fun d => if d.phase = .boot ∨ d.phase = .loading then d.bootFailed good else d)

/-- IMAGE_WRITE_DURABLE: the last line is durable: the slot is valid (R469). In recovery the image is booted at once, by a reset with cause "image
switch" (R468). -/
def execImageWriteDurable (s : State) : Host.Outcome State Fault Refusal :=
  onDev s (fun d =>
    match d.pwr.writing with
    | none => d
    | some (k, h) =>
      let x := ((d.putSlot k 1 h).onPwr (fun p => { p with writing := none })).showImages
      if x.phase = .recovery then x.wiped 3 true else x)

/-! ### The end of a control restart (R25, R342, R419) -/

/-- An action that fell due during the restart: with late policy 1, or as soon as possible, it waits for its next eligible boundary; else it is late and
fails. -/
def Device.afterRestart (d : Device) (a : Action) : Device :=
  if a.late1 ∨ a.bake = 0 then
    let d := d.onSched (fun t => { t with bundles := t.bundles.filter (fun b => !(a.cls == 9 && b.bundle == a.args.headD 0 && b.values.isEmpty)) })
    let d := d.putAction { a with armed := none, notBefore := d.now, preimages := [], prepFail := none }
    if swaps a ∧ d.get Reg.fabMapNextState = 2 then d.undoPass else d
  else if a.cls = 9 then (d.failAction a (err stBakePast)).bundleFailed a
  else d.failAction a (err stBakePast)

/-- The actions a control restart held back whose boundary has come. -/
def Device.fellDue (d : Device) : List Action :=
  d.sched.actions.filter (fun a => [6, 8, 9].contains a.cls && (match a.armed with | some b => decide (b ≤ d.now) | none => false))

/-- CONTROL_RESTART_END: the cores resume: pre-images without a commit mark are restored, what fell due is taken up, and the restart is notified. -/
def execControlRestartEnd (s : State) : Host.Outcome State Fault Refusal :=
  onDev s (fun d =>
    if d.phase = .restarting then
      let d := { d.takeSeq with phase := if 2 ≤ d.pwr.active then .recovery else .running }.restorePreimages
      let d := d.each d.fellDue (fun a x => x.afterRestart a)
      d.notice Reg.twinCtrlRestarts [d.get Reg.twinCtrlRestarts]
    else d)

/-! ### The load (R419, R436, R439, R440, R443) -/

/-- The Default of a stored scalar. -/
def storedDefault (ref : Nat) : Nat :=
  match rowOf ref with
  | some r => (objOf r ref).dflt
  | none => 0

/-- Pre-images without a commit mark go back into the live image (R419). -/
def restoreLive (bundles : List BundleStore) (l : List (Nat × StoreRec)) : List (Nat × StoreRec) :=
  (bundles.reverse.flatMap (fun b => b.preimages.reverse)).foldl (fun l m =>
    tblPut l m.ref ⟨((tblGet l m.ref).map (·.gen + 1)).getD 1 % 2 ^ 32, m.value, none, false⟩) l

/-- Compaction: pairs that hold the Default are freed (R436). -/
def compact (l : List (Nat × StoreRec)) : List (Nat × StoreRec) := l.filter (fun e => e.2.value != storedDefault e.1)

/-- The enable objects, applied by the last pass (R439). -/
def enableRef (ref : Nat) : Bool :=
  [(Reg.lineTxEnable 0).ref, (Reg.lineTxEnable 1).ref, (Reg.lineRxEnable 0).ref, (Reg.lineRxEnable 1).ref].contains ref ||
    ref / 256 == (Reg.lanePortEnable 0).ref / 256 || (List.range 8).any (fun k => ref == (Reg.monSeqRun k).ref)

/-- The order of Table 18.10. -/
def loadOrder (ref : Nat) : Nat :=
  let i := ref / 256
  if i < 0x2000 then 1
  else if 0xA000 ≤ i ∧ i ≤ 0xAFFF then 2
  else if i < 0x5000 then 3
  else if (0x5010 ≤ i ∧ i ≤ 0x501F) ∨ (0x5040 ≤ i ∧ i ≤ 0x507F) then 4
  else if 0x5020 ≤ i ∧ i ≤ 0x503F then 5
  else if i ≤ 0x500F then 6
  else 7

/-- Stored scalars in the order of the load. -/
def inLoadOrder (l : List (Nat × Nat)) : List (Nat × Nat) := sortBy (fun a b => lexLt [loadOrder a.1, a.1] [loadOrder b.1, b.1]) l

/-- A value applied as a write by the device, under the checks of a host write. -/
def loadScalar (ref v : Nat) (d : Device) : Except Err Device :=
  match rowOf ref with
  | none => .error (err stNoObject)
  | some r =>
    match valueCheck (objOf r ref) r.range ⟨(objOf r ref).bytes, v⟩ with
    | some e => .error e
    | none => memberEffect ref v d

/-- One pass over values; those refused come back with their status. -/
def loadPass (l : List (Nat × Nat)) (d : Device) : Device × List (Nat × Nat × Nat) :=
  l.foldl (fun x e => match loadScalar e.1 e.2 x.1 with
    | .ok y => (y, x.2)
    | .error e' => (x.1, x.2 ++ [(e.1, e.2, e'.status)])) (d, [])

/-- A refusal of the load: its log record, its block's fault bit, its Default in the live image (R440). -/
def Device.refusedAtLoad (d : Device) (ref status : Nat) : Device :=
  let d := d.onStore (fun s => { s with
    log := (s.log ++ [ref * 256 + status]).take 256, live := tblDel s.live ref, liveDoms := tblDel s.liveDoms ref })
  let b := blockOf (ref / 256)
  if b = 0 then d else d.blockFault b 2

/-- The image the load takes: DICT_BOOT_SOURCE, the scalars, the DOMAINs (R443). A request for a saved image that is no longer valid loads the live one. -/
def Device.chosenImage (d : Device) : Nat × List (Nat × Nat) × List (Nat × List Nat) :=
  let s := d.store
  let live := s.live.map (fun e => (e.1, e.2.value))
  let doms := (slotContents s.liveDoms).map (fun e => (e.1, e.2.2))
  match s.request with
  | 2 => (3, [], [])
  | 3 => (4, live.filter (fun e => decide (0x1100 ≤ e.1 / 256 ∧ e.1 / 256 ≤ 0x1108)), [])
  | 1 =>
    if s.saved.valid then (2, s.saved.scalars.map (fun e => (e.1, e.2.2)), s.saved.domains.map (fun e => (e.1, e.2.2))) else (1, live, doms)
  | _ => (if s.live.isEmpty ∧ s.liveDoms.isEmpty then 0 else 1, live, doms)

/-- Keys come back from their wrapped copies, after an erase that was pending; a Current half that does not unwrap is Empty, with a notice. SEG of each port
resumes at its reservation (R330, R335). -/
def Device.loadKeys (d : Device) (lost : List Nat) : Device :=
  let d := if d.sec.erasePending then d.onSec (fun s => { s with wrapped := [], erasePending := false }) else d
  let back := d.sec.wrapped.map (fun e => if lost.contains e.1 ∧ e.2.cur.state = 2 then (e.1, { e.2 with cur := halfEmpty }) else e)
  let d := d.onSec (fun s => { s with pairs := back, wrapped := back, segs := s.res })
  d.each (lost.filter (fun p => d.sec.wrapped.any (fun e => e.1 == p))) (fun p x => x.notice Reg.secPairStatus [p])

/-- The model of the valid copy with the higher generation. -/
def newestModel (l : List (Nat × HoModel)) : Option HoModel :=
  l.foldl (fun a e => match a with
    | some m => if m.gen < e.2.gen then some e.2 else some m
    | none => some e.2) none

/-- The starter: poisoned samples skipped, the model of the valid copy with the higher generation, none where both copies are unusable; each
case noticed: 0 a sample, 1 a copy, 2 both (R313). -/
def Device.loadStarter (d : Device) (samples bad : List Nat) : Device :=
  let hit := d.tim.ho.copies.filter (fun e => bad.contains e.1)
  let left := d.tim.ho.copies.filter (fun e => !bad.contains e.1)
  let h := (d.tim.ho.history.zipIdx.filter (fun e => !samples.contains e.2)).map (·.1)
  let d := d.onHo (fun x => { x with history := h, copies := left, model := newestModel left })
  let d := d.set Reg.timeHoLearnTime (16 * h.length)
  d.each (samples.map (fun _ => 0) ++ hit.map (fun _ => 1) ++ (if left.isEmpty && !hit.isEmpty then [2] else [])) (fun k x => x.notice Reg.timeHoState [k])

/-- The calibration set: unusable items take the outcome of Table 16.7 (R405). -/
def Device.loadCal (d : Device) (items : List Nat) (header : Bool) : Device :=
  if header then ((d.set Reg.calSetState 3).calUsable (List.range 5)).notice Reg.calSetState []
  else if items.isEmpty then d
  else ((d.set Reg.calSetState 2).calUsable items).each items (fun k x => x.notice Reg.calSetState [k])

/-- What takes effect at power-up from the values loaded: TWIN_ENABLE, LANE_MATE_ENABLE's link, PWR_FEC_ACTIVE, trained stacks, failed ports. -/
def Device.latchLoaded (d : Device) : Device :=
  let on := d.on Reg.twinEnable
  let d := d.onTwin (fun t => { t with enabled := on, listening := on })
  let d := if on then (d.set Reg.twinState 1).set Reg.twinRole 1 else d
  let d := { d with lane := { d.lane with mateOn := on, mateCtrl := d.get Reg.laneMateCtrl, mateClock := d.get Reg.laneMateClock } }
  let d := d.each (List.range 4) (fun k x => x.set (Reg.memStackState k) 1)
  let d := d.set Reg.fecPoolSlots (4 * d.get Reg.pwrFecActive)
  d.each (List.range 32) (fun p x => x.refreshPort p)

/-- The scalar pass: every value but those of enable objects, those refused once more; what the load cannot read has status "uncorrectable data". -/
def Device.scalarPass (d : Device) (scalars : List (Nat × Nat)) (damaged : List Nat) : Device :=
  let good := scalars.filter (fun e => !damaged.contains e.1)
  let first := loadPass (inLoadOrder (good.filter (fun e => !enableRef e.1))) d
  let again := loadPass (first.2.map (fun e => (e.1, e.2.1))) first.1
  let d := (scalars.filter (fun e => damaged.contains e.1)).foldl (fun x e => x.refusedAtLoad e.1 stUncorrectable) again.1
  again.2.foldl (fun x e => x.refusedAtLoad e.1 e.2.2) d

/-- The slice map: edits to the next bank, then a swap of origin device to the stored generation, as soon as possible (Table 18.6). -/
def Device.loadMap (d : Device) (bs : List Nat) : Device :=
  let r := fabEdit (recordsOf 24 (bs.drop 2)) d
  match r.2 with
  | .fail e => d.refusedAtLoad Reg.fabMapActive.ref e.status
  | _ =>
    let h := d.sched.nextHandle
    (r.1.scheduleOwn (newAction .calendar .device 0x0001 Reg.fabMapSwap.ref 0 (ofBytes (bs.take 2)))).onStore (fun s => { s with loadSwap := some h })

/-- The image's values are put where the live image does not hold them yet: after a request the live image starts empty and takes the result. -/
def Device.takeImage (d : Device) (src : Nat) (scalars : List (Nat × Nat)) : Device :=
  if src ≤ 1 then d
  else
    let d := d.onStore (fun s => { s with live := [], liveDoms := [] })
    d.each (scalars.filter (fun e => enableRef e.1)) (fun e x => x.storeScalar e.1 e.2 (storedDefault e.1))

/-- A block's power-up self-test has failed, whole or in part: its fault bit, its state, an event (R433). -/
def Device.selfTestFailed (d : Device) (b : Nat) (whole : Bool) : Device :=
  let d := (d.takeSeq.blockFault b 3).onPwr (fun p => if whole then { p with failed := b :: p.failed } else p)
  d.notice (blkState b) [d.blockStateOf b]

/-- POWER_UP_LOAD: the live image is compacted, the image that the restore request names is loaded: the scalar pass, and the start of the DOMAIN pass, which
waits for the restored swap. -/
def execPowerUpLoad (m : LoadFaults) (s : State) : Host.Outcome State Fault Refusal :=
  onDev s (fun d =>
    if d.phase = .boot then
      let d := d.takeSeq
      let live := compact (restoreLive d.sched.bundles d.store.live)
      let d := (d.onSched (fun t => { t with bundles := [] })).onStore (fun s => { s with live := live, loading := true, log := [] })
      let im := d.chosenImage
      let damaged := m.damaged.map (·.toNat)
      let d := d.each m.selfTest (fun e x => x.selfTestFailed (blockIndices.getD e.1 0) e.2)
      let d := ({ d with phase := .loading }.takeImage im.1 im.2.1).set Reg.dictBootSource im.1
      let d := ((d.loadKeys (m.keys.map (·.toNat))).loadStarter m.samples (m.model.map (·.val))).loadCal (m.cal.map (·.val)) m.calHeader
      let d := (d.scalarPass im.2.1 damaged).latchLoaded.publishHo.refreshCg
      let d := d.setBit Reg.dictStoreState 2 (!damaged.isEmpty && (im.1 == 1 || im.1 == 4))
      let d := (im.2.2.filter (fun e => damaged.contains e.1)).foldl (fun x e => x.refusedAtLoad e.1 stUncorrectable) d
      let doms := im.2.2.filter (fun e => !damaged.contains e.1)
      let d := d.onStore (fun s => { s with loadDoms := doms, loadSwap := none })
      match doms.find? (fun e => e.1 == Reg.fabMapActive.ref) with
      | some e => d.loadMap e.2
      | none => d
    else d)

/-- The order of Table 18.6 behind the slice map. -/
def domainOrder : List Nat :=
  [Reg.pktQConfig.ref, Reg.secCgActive.ref, Reg.laneFlexeActive.ref, (Reg.lineTxEmph 0).ref, (Reg.lineTxEmph 1).ref, Reg.lineAspiSafe.ref,
   Reg.lineAspiResume.ref, Reg.timeHoThermTable.ref] ++ (List.range 8).map (fun k => (Reg.monSeqSteps k).ref) ++ [Reg.twinLocalList.ref]

/-- One stored DOMAIN restored as Table 18.6 states. -/
def loadDomain (ref : Nat) (bs : List Nat) (d : Device) : Except Err Device :=
  if ref = Reg.secCgActive.ref then
    match ofReply (cgNext (bs.drop 2) d) with
    | .ok x => .ok (x.scheduleOwn (newAction .calendar .device 0x0008 Reg.secCgApply.ref 0 (ofBytes (bs.take 2))))
    | .error e => .error e
  else if ref = Reg.laneFlexeActive.ref then
    match ofReply (flexNext bs d) with
    | .ok x => .ok (x.scheduleOwn (newAction .calendar .device 0x0008 Reg.laneFlexeApply.ref 0 1))
    | .error e => .error e
  else ofReply (domainEffect directReq ref bs d)

/-- The rest of the DOMAIN pass. -/
def Device.domainPass (d : Device) (doms : List (Nat × List Nat)) : Device :=
  d.each domainOrder (fun ref x =>
    match tblGet doms ref with
    | none => x
    | some bs =>
      match loadDomain ref bs x with
      | .ok y => y
      | .error e => x.refusedAtLoad ref e.status)

/-- The restored swap did not bring the stored generation into force: it failed (R440). -/
def Device.mapRefused (d : Device) (doms : List (Nat × List Nat)) : Bool :=
  d.store.loadSwap.isSome && (doms.find? (fun e => e.1 == Reg.fabMapActive.ref)).any (fun e => d.get Reg.fabMapGen != ofBytes (e.2.take 2))

/-- The dictionary is ready: objects of the store, CLAIM_WON without a twin (Table 21.6), the bias outputs at their safe codes (R66), one notice if anything was refused. -/
def Device.dictReady (d : Device) : Device :=
  let d := ({ d with phase := .running }.set Reg.idDictReady 1).onPwr (fun p =>
    { p with slots := p.slots.put p.active { p.slots.at p.active with fails := 0 } })
  let d := d.onTwin (fun t => { t with won := !t.enabled })
  let d := d.onStore (fun s => { s with loading := false, loadDoms := [], loadSwap := none, request := 0 })
  let d := ((d.set Reg.dictRestore 0).setBit Reg.dictStoreState 4 false).set Reg.dictRecords d.store.live.length
  let d := (d.setBit Reg.dictStoreState 1 (d.store.liveDoms.any (fun e => e.2.value.isNone))).showSaved
  let d := d.each (List.range 12) (fun n x => x.send (.bias n (x.biasOut n)))
  if d.store.log.isEmpty then d else d.notice Reg.dictRestoreLog [d.store.log.length]

/-- One enable object written by the device: the line enables at once, or when their engines are awake; ports and sequences by actions of origin device. -/
def Device.enableOne (d : Device) (ref v : Nat) : Device :=
  match rowOf ref with
  | none => d
  | some r =>
    if r.access = .rws then
      let w := d.wakeFor { newAction .calendar .device 0x0008 ref 0 v with needs := d.rwsNeeds ref v, acceptAt := d.now }
      w.1.scheduleOwn w.2
    else
      let x := writeAny directReq ref ⟨(objOf r ref).bytes, v⟩ d
      match x.2 with
      | .fail e => d.refusedAtLoad ref e.status
      | _ => { x.1 with deferred := x.1.deferred.map (fun e => if d.deferred.contains e then e else { e with svc := svcDirect }) }

/-- The enable pass, in ascending index (R439). -/
def Device.enablePass (d : Device) : Device :=
  d.each (d.store.live.filter (fun e => enableRef e.1)) (fun e x => x.enableOne e.1 e.2.value)

/-- DOMAIN_PASS_RESUME: the restored swap has fired or failed (or none was needed): the DOMAIN pass ends, the dictionary is ready, and the enable pass runs. -/
def execDomainPassResume (s : State) : Host.Outcome State Fault Refusal :=
  onDev s (fun d =>
    if d.phase = .loading ∧ d.store.loadSwap.all (fun h => (d.action? h).isNone) = true then
      let d := d.takeSeq
      let doms := d.store.loadDoms
      let d := if d.mapRefused doms then d.refusedAtLoad Reg.fabMapActive.ref stInvalidCombination else d
      (d.domainPass doms).dictReady.enablePass
    else d)

end Sys2Proof.Machine
end

