-- ==== Sys2Proof/Machine/Dispatch.lean ====
section
/-! DEFINITION. One arm per command: the direct call of its meaning. -/

namespace Sys2Proof.Machine

def exec (i : Instr) (s : State) : Host.Outcome State Fault Refusal :=
  match i with
  | .read q refs poisoned => Sys2Proof.Machine.execRead q refs poisoned s
  | .write q ref v => Sys2Proof.Machine.execWrite q ref v s
  | .bundle q fits members => Sys2Proof.Machine.execBundle q fits members s
  | .subscribeAdd q first last period => Sys2Proof.Machine.execSubscribeAdd q first last period s
  | .subscribeCancel q num => Sys2Proof.Machine.execSubscribeCancel q num s
  | .blockOpenWrite q ref total => Sys2Proof.Machine.execBlockOpenWrite q ref total s
  | .blockChunk q ref offset data => Sys2Proof.Machine.execBlockChunk q ref offset data s
  | .blockEndWrite q ref crc => Sys2Proof.Machine.execBlockEndWrite q ref crc s
  | .blockAbandon q ref => Sys2Proof.Machine.execBlockAbandon q ref s
  | .blockRead q ref offset wanted => Sys2Proof.Machine.execBlockRead q ref offset wanted s
  | .blockTransferTimeout ref => Sys2Proof.Machine.execBlockTransferTimeout ref s
  | .sessionOpen q level nonce => Sys2Proof.Machine.execSessionOpen q level nonce s
  | .sessionClose q => Sys2Proof.Machine.execSessionClose q s
  | .sessionKeepalive q => Sys2Proof.Machine.execSessionKeepalive q s
  | .sessionIdleTimeout session transport addr => Sys2Proof.Machine.execSessionIdleTimeout session transport addr s
  | .eopHeaderUnreadable transport => Sys2Proof.Machine.execEopHeaderUnreadable transport s
  | .spiWriteMessage space => Sys2Proof.Machine.execSpiWriteMessage space s
  | .spiReadMessage => Sys2Proof.Machine.execSpiReadMessage s
  | .spiDirectRead ref high => Sys2Proof.Machine.execSpiDirectRead ref high s
  | .spiDirectWrite ref word => Sys2Proof.Machine.execSpiDirectWrite ref word s
  | .eopSegment c leaf seg => Sys2Proof.Machine.execEopSegment c leaf seg s
  | .eopReassemblyTimeout c leaf msg => Sys2Proof.Machine.execEopReassemblyTimeout c leaf msg s
  | .forwardedAnswer msg status body => Sys2Proof.Machine.execForwardedAnswer msg status body s
  | .forwardTimeout msg => Sys2Proof.Machine.execForwardTimeout msg s
  | .noticePeriod sub ref => Sys2Proof.Machine.execNoticePeriod sub ref s
  | .arbiterCycle fresh => Sys2Proof.Machine.execArbiterCycle fresh s
  | .schedTimeStep q v => Sys2Proof.Machine.execSchedTimeStep q v s
  | .timeStepEffect => Sys2Proof.Machine.execTimeStepEffect s
  | .schedCancel q v => Sys2Proof.Machine.execSchedCancel q v s
  | .actionArming handle tick => Sys2Proof.Machine.execActionArming handle tick s
  | .deviceActionPlaceFreed => Sys2Proof.Machine.execDeviceActionPlaceFreed s
  | .singleRwsWriteFire handle poison => Sys2Proof.Machine.execSingleRwsWriteFire handle poison s
  | .timedBundleFire handle poisoned => Sys2Proof.Machine.execTimedBundleFire handle poisoned s
  | .preimageDurable bundle => Sys2Proof.Machine.execPreimageDurable bundle s
  | .bundleCommitMark bundle => Sys2Proof.Machine.execBundleCommitMark bundle s
  | .calendarBoundary upsets errors lanes counts => Sys2Proof.Machine.execCalendarBoundary upsets errors lanes counts s
  | .lineTxEnableOn q c => Sys2Proof.Machine.execLineTxEnableOn q c s
  | .lineTxEnableOff q c => Sys2Proof.Machine.execLineTxEnableOff q c s
  | .txActiveEntry c => Sys2Proof.Machine.execTxActiveEntry c s
  | .txStartTimeout c => Sys2Proof.Machine.execTxStartTimeout c s
  | .lineTxSquelchSet q c => Sys2Proof.Machine.execLineTxSquelchSet q c s
  | .lineTxSquelchClear q c => Sys2Proof.Machine.execLineTxSquelchClear q c s
  | .txoffNLow => Sys2Proof.Machine.execTxoffNLow s
  | .txoffNClear => Sys2Proof.Machine.execTxoffNClear s
  | .dacSynthLockLoss c => Sys2Proof.Machine.execDacSynthLockLoss c s
  | .lineAspiXfer q crc => Sys2Proof.Machine.execLineAspiXfer q crc s
  | .aspiTransferDone word => Sys2Proof.Machine.execAspiTransferDone word s
  | .lineItlaUse q port v => Sys2Proof.Machine.execLineItlaUse q port v s
  | .lineItlaRaw q port v => Sys2Proof.Machine.execLineItlaRaw q port v s
  | .itlaResponse port answer => Sys2Proof.Machine.execItlaResponse port answer s
  | .itlaResponseTimeout port => Sys2Proof.Machine.execItlaResponseTimeout port s
  | .itlaPendingPoll port => Sys2Proof.Machine.execItlaPendingPoll port s
  | .itlaTuneLimitExpiry port => Sys2Proof.Machine.execItlaTuneLimitExpiry port s
  | .itlaStatusPoll port => Sys2Proof.Machine.execItlaStatusPoll port s
  | .itlaSrq port => Sys2Proof.Machine.execItlaSrq port s
  | .lineBiasMode q loop v => Sys2Proof.Machine.execLineBiasMode q loop v s
  | .biasDitherPeriodEnd => Sys2Proof.Machine.execBiasDitherPeriodEnd s
  | .biasVisitEnd => Sys2Proof.Machine.execBiasVisitEnd s
  | .lineRxEnableOn q c => Sys2Proof.Machine.execLineRxEnableOn q c s
  | .lineRxEnableOff q c => Sys2Proof.Machine.execLineRxEnableOff q c s
  | .rxStageComplete c result adc => Sys2Proof.Machine.execRxStageComplete c result adc s
  | .rxAcqTimeout c => Sys2Proof.Machine.execRxAcqTimeout c s
  | .rxCauseSet c cause => Sys2Proof.Machine.execRxCauseSet c cause s
  | .rxCauseClear c cause => Sys2Proof.Machine.execRxCauseClear c cause s
  | .cdTrackUpdate c estimate freq clock => Sys2Proof.Machine.execCdTrackUpdate c estimate freq clock s
  | .eqStateWindow c sc snr ser reinit => Sys2Proof.Machine.execEqStateWindow c sc snr ser reinit s
  | .phaseSlipSuspect c sc => Sys2Proof.Machine.execPhaseSlipSuspect c sc s
  | .quadrantResolved c sc samples => Sys2Proof.Machine.execQuadrantResolved c sc samples s
  | .snrWindowEnd c sc snr meas => Sys2Proof.Machine.execSnrWindowEnd c sc snr meas s
  | .loadUpgradeInterval c => Sys2Proof.Machine.execLoadUpgradeInterval c s
  | .loadReq c g msg => Sys2Proof.Machine.execLoadReq c g msg s
  | .loadAck c g msg demapped => Sys2Proof.Machine.execLoadAck c g msg demapped s
  | .loadNak c g msg => Sys2Proof.Machine.execLoadNak c g msg s
  | .loadRestart c g msg => Sys2Proof.Machine.execLoadRestart c g msg s
  | .loadProposalAbandon c => Sys2Proof.Machine.execLoadProposalAbandon c s
  | .loadFallbackExpiry c => Sys2Proof.Machine.execLoadFallbackExpiry c s
  | .lineLoadPropose q c v => Sys2Proof.Machine.execLineLoadPropose q c v s
  | .loadingTableSwitch handle poison => Sys2Proof.Machine.execLoadingTableSwitch handle poison s
  | .codewordReady words => Sys2Proof.Machine.execCodewordReady words s
  | .heldCodewordRetry => Sys2Proof.Machine.execHeldCodewordRetry s
  | .codewordDecodeStop slot => Sys2Proof.Machine.execCodewordDecodeStop slot s
  | .decodeCutoff num => Sys2Proof.Machine.execDecodeCutoff num s
  | .blockDelivery num => Sys2Proof.Machine.execBlockDelivery num s
  | .fecBerWindowEnd c => Sys2Proof.Machine.execFecBerWindowEnd c s
  | .fecMsIntervalEnd => Sys2Proof.Machine.execFecMsIntervalEnd s
  | .frmBondMode q v => Sys2Proof.Machine.execFrmBondMode q v s
  | .txFrameTick c g tick poison => Sys2Proof.Machine.execTxFrameTick c g tick poison s
  | .rxBlock c g arrival => Sys2Proof.Machine.execRxBlock c g arrival s
  | .delineationAccept c g start samples => Sys2Proof.Machine.execDelineationAccept c g start samples s
  | .delineationTableTimeout c g => Sys2Proof.Machine.execDelineationTableTimeout c g s
  | .huntBlockLimit c g => Sys2Proof.Machine.execHuntBlockLimit c g s
  | .lofSetExpiry c g => Sys2Proof.Machine.execLofSetExpiry c g s
  | .lofClearExpiry c g => Sys2Proof.Machine.execLofClearExpiry c g s
  | .scLostExpiry c sc => Sys2Proof.Machine.execScLostExpiry c sc s
  | .scProbeExpiry c sc => Sys2Proof.Machine.execScProbeExpiry c sc s
  | .setEntry q rec => Sys2Proof.Machine.execSetEntry q rec s
  | .setRange q rec => Sys2Proof.Machine.execSetRange q rec s
  | .clearRange q rec => Sys2Proof.Machine.execClearRange q rec s
  | .portSizes q rec => Sys2Proof.Machine.execPortSizes q rec s
  | .groupRecord q rec => Sys2Proof.Machine.execGroupRecord q rec s
  | .fabMapRevert q v => Sys2Proof.Machine.execFabMapRevert q v s
  | .fabMapSwap q v => Sys2Proof.Machine.execFabMapSwap q v s
  | .swapValidationPass handle upsets => Sys2Proof.Machine.execSwapValidationPass handle upsets s
  | .sliceMapBankSwap handle poison => Sys2Proof.Machine.execSliceMapBankSwap handle poison s
  | .nextBankRebuilt => Sys2Proof.Machine.execNextBankRebuilt s
  | .retimingSlip port beyond => Sys2Proof.Machine.execRetimingSlip port beyond s
  | .groupHeader group leg header poison arrival => Sys2Proof.Machine.execGroupHeader group leg header poison arrival s
  | .glofExpiry group leg declare => Sys2Proof.Machine.execGlofExpiry group leg declare s
  | .holdOffExpiry group leg degrade => Sys2Proof.Machine.execHoldOffExpiry group leg degrade s
  | .wtrExpiry group => Sys2Proof.Machine.execWtrExpiry group s
  | .pgClear q group => Sys2Proof.Machine.execPgClear q group s
  | .lockout q group => Sys2Proof.Machine.execLockout q group s
  | .forcedSwitch q group => Sys2Proof.Machine.execForcedSwitch q group s
  | .manualSwitchP q group => Sys2Proof.Machine.execManualSwitchP q group s
  | .manualSwitchW q group => Sys2Proof.Machine.execManualSwitchW q group s
  | .realign q group => Sys2Proof.Machine.execRealign q group s
  | .dacSynthesiserRelock c => Sys2Proof.Machine.execDacSynthesiserRelock c s
  | .hubEnable q c v => Sys2Proof.Machine.execHubEnable q c v s
  | .hubDsCode q c sc v => Sys2Proof.Machine.execHubDsCode q c sc v s
  | .hubGrantNext q c crc => Sys2Proof.Machine.execHubGrantNext q c crc s
  | .hubGrantTable q c v => Sys2Proof.Machine.execHubGrantTable q c v s
  | .hubGrantTableSwitch handle poison => Sys2Proof.Machine.execHubGrantTableSwitch handle poison s
  | .grantUpstreamCycle c => Sys2Proof.Machine.execGrantUpstreamCycle c s
  | .burstWindowOpen c sc leaf => Sys2Proof.Machine.execBurstWindowOpen c sc leaf s
  | .burstDetection c sc power corr pos => Sys2Proof.Machine.execBurstDetection c sc power corr pos s
  | .burstBDetection c sc power corr pos => Sys2Proof.Machine.execBurstBDetection c sc power corr pos s
  | .burstSyncFound c sc word shift rssi => Sys2Proof.Machine.execBurstSyncFound c sc word shift rssi s
  | .burstSyncMissed c sc => Sys2Proof.Machine.execBurstSyncMissed c sc s
  | .burstWindowClose c sc => Sys2Proof.Machine.execBurstWindowClose c sc s
  | .burstEnd c sc m => Sys2Proof.Machine.execBurstEnd c sc m s
  | .rogueBurst c sc corr header unit => Sys2Proof.Machine.execRogueBurst c sc corr header unit s
  | .discoveryPeriod c => Sys2Proof.Machine.execDiscoveryPeriod c s
  | .register c => Sys2Proof.Machine.execRegister c s
  | .upstreamHubMessage c => Sys2Proof.Machine.execUpstreamHubMessage c s
  | .leafTrimPeriod c => Sys2Proof.Machine.execLeafTrimPeriod c s
  | .leafAssignTimeout c leaf => Sys2Proof.Machine.execLeafAssignTimeout c leaf s
  | .leafDeregTimeout c leaf => Sys2Proof.Machine.execLeafDeregTimeout c leaf s
  | .hubLeafEnableOn q c leaf => Sys2Proof.Machine.execHubLeafEnableOn q c leaf s
  | .hubLeafEnableOff q c leaf => Sys2Proof.Machine.execHubLeafEnableOff q c leaf s
  | .pktPortMode q port v => Sys2Proof.Machine.execPktPortMode q port v s
  | .ingressFrameStart port bytes unreadable => Sys2Proof.Machine.execIngressFrameStart port bytes unreadable s
  | .ingressOversize port => Sys2Proof.Machine.execIngressOversize port s
  | .ingressFrameEnd port rest macError recPoison headTaken => Sys2Proof.Machine.execIngressFrameEnd port rest macError recPoison headTaken s
  | .flowAdd q rec => Sys2Proof.Machine.execFlowAdd q rec s
  | .flowReplace q rec => Sys2Proof.Machine.execFlowReplace q rec s
  | .flowDelete q rec => Sys2Proof.Machine.execFlowDelete q rec s
  | .pktQConfig q crc => Sys2Proof.Machine.execPktQConfig q crc s
  | .egressItemEnd group headTaken => Sys2Proof.Machine.execEgressItemEnd group headTaken s
  | .extractorItemHeader group => Sys2Proof.Machine.execExtractorItemHeader group s
  | .channelItemBoundary group poison => Sys2Proof.Machine.execChannelItemBoundary group poison s
  | .portTxItemBoundary port bad => Sys2Proof.Machine.execPortTxItemBoundary port bad s
  | .pktQFlush q v => Sys2Proof.Machine.execPktQFlush q v s
  | .flushFence queue headTaken => Sys2Proof.Machine.execFlushFence queue headTaken s
  | .flushComplete queue => Sys2Proof.Machine.execFlushComplete queue s
  | .pktQWmLatch q v => Sys2Proof.Machine.execPktQWmLatch q v s
  | .sweepRead cls stack errs symbol raced owner => Sys2Proof.Machine.execSweepRead cls stack errs symbol raced owner s
  | .ceRateSecond stackFree => Sys2Proof.Machine.execCeRateSecond stackFree s
  | .matrixRequest master target write address data len named mapped errs symbol owner rivals => Sys2Proof.Machine.execMatrixRequest master target write address data len named mapped errs symbol owner rivals s
  | .mramLineWrite which => Sys2Proof.Machine.execMramLineWrite which s
  | .memErrLogClear q v => Sys2Proof.Machine.execMemErrLogClear q v s
  | .ppsBoundary meas loopMean loopNow => Sys2Proof.Machine.execPpsBoundary meas loopMean loopNow s
  | .todTxStart => Sys2Proof.Machine.execTodTxStart s
  | .gnssPpsEdge rising at_ => Sys2Proof.Machine.execGnssPpsEdge rising at_ s
  | .gnssTodMessage valid status seconds => Sys2Proof.Machine.execGnssTodMessage valid status seconds s
  | .extRefEdge k at_ => Sys2Proof.Machine.execExtRefEdge k at_ s
  | .ptpMessage port m => Sys2Proof.Machine.execPtpMessage port m s
  | .ptpMessageTransmit port kind => Sys2Proof.Machine.execPtpMessageTransmit port kind s
  | .esmcMessage port good ssm enhanced => Sys2Proof.Machine.execEsmcMessage port good ssm enhanced s
  | .esmcMessageTransmit port => Sys2Proof.Machine.execEsmcMessageTransmit port s
  | .esmcTimeout port => Sys2Proof.Machine.execEsmcTimeout port s
  | .candidateFaultChange cand fault declare => Sys2Proof.Machine.execCandidateFaultChange cand fault declare s
  | .proofingExpiry cand => Sys2Proof.Machine.execProofingExpiry cand s
  | .timeCandSource q cand v => Sys2Proof.Machine.execTimeCandSource q cand v s
  | .timeForce q v => Sys2Proof.Machine.execTimeForce q v s
  | .referenceChange handle phase poison => Sys2Proof.Machine.execReferenceChange handle phase poison s
  | .pullComplete => Sys2Proof.Machine.execPullComplete s
  | .lockWindowReached => Sys2Proof.Machine.execLockWindowReached s
  | .timeLoopMode q v => Sys2Proof.Machine.execTimeLoopMode q v s
  | .softwareLoopEntry handle poison => Sys2Proof.Machine.execSoftwareLoopEntry handle poison s
  | .softwareLoopExit handle phase poison => Sys2Proof.Machine.execSoftwareLoopExit handle phase poison s
  | .timeSwFreq q v => Sys2Proof.Machine.execTimeSwFreq q v s
  | .timeSwPhase q v => Sys2Proof.Machine.execTimeSwPhase q v s
  | .swWatchdogExpiry => Sys2Proof.Machine.execSwWatchdogExpiry s
  | .timePpsOffset q freq k v => Sys2Proof.Machine.execTimePpsOffset q freq k v s
  | .ttMarkInterval c txOffset => Sys2Proof.Machine.execTtMarkInterval c txOffset s
  | .ttInfo c g msg failedHalf arrival => Sys2Proof.Machine.execTtInfo c g msg failedHalf arrival s
  | .ttReturn c g msg failedHalf => Sys2Proof.Machine.execTtReturn c g msg failedHalf s
  | .thermConversion code beyond => Sys2Proof.Machine.execThermConversion code beyond s
  | .tempInvalidTimeout => Sys2Proof.Machine.execTempInvalidTimeout s
  | .learningSampleComplete => Sys2Proof.Machine.execLearningSampleComplete s
  | .oscillatorRetrace => Sys2Proof.Machine.execOscillatorRetrace s
  | .modelFit => Sys2Proof.Machine.execModelFit s
  | .timeHoImport q crc => Sys2Proof.Machine.execTimeHoImport q crc s
  | .timeHoClear q v => Sys2Proof.Machine.execTimeHoClear q v s
  | .secCgNext q crc => Sys2Proof.Machine.execSecCgNext q crc s
  | .secCgApply q v => Sys2Proof.Machine.execSecCgApply q v s
  | .cryptTableApply handle poison => Sys2Proof.Machine.execCryptTableApply handle poison s
  | .secSeg c g msg poison => Sys2Proof.Machine.execSecSeg c g msg poison s
  | .secKeyWrite q v => Sys2Proof.Machine.execSecKeyWrite q v s
  | .secRoll q v => Sys2Proof.Machine.execSecRoll q v s
  | .keyRoll handle poison => Sys2Proof.Machine.execKeyRoll handle poison s
  | .secErase q v => Sys2Proof.Machine.execSecErase q v s
  | .keyErase handle poison => Sys2Proof.Machine.execKeyErase handle poison s
  | .retireHoldExpiry pair => Sys2Proof.Machine.execRetireHoldExpiry pair s
  | .guardThreshold pair => Sys2Proof.Machine.execGuardThreshold pair s
  | .segReservation c g => Sys2Proof.Machine.execSegReservation c g s
  | .dualMismatch c g cg transmit => Sys2Proof.Machine.execDualMismatch c g cg transmit s
  | .tamperDetection sensor => Sys2Proof.Machine.execTamperDetection sensor s
  | .tamperSensorClear sensor => Sys2Proof.Machine.execTamperSensorClear sensor s
  | .wrappedEraseComplete => Sys2Proof.Machine.execWrappedEraseComplete s
  | .secAlarmClear q v => Sys2Proof.Machine.execSecAlarmClear q v s
  | .secSensorClass q v => Sys2Proof.Machine.execSecSensorClass q v s
  | .secClassLock q v => Sys2Proof.Machine.execSecClassLock q v s
  | .coreDissent core allDiffer => Sys2Proof.Machine.execCoreDissent core allDiffer s
  | .coreResync gap => Sys2Proof.Machine.execCoreResync gap s
  | .twinCoreRetry q v => Sys2Proof.Machine.execTwinCoreRetry q v s
  | .twinHostClass q v => Sys2Proof.Machine.execTwinHostClass q v s
  | .healthHoldExpiry => Sys2Proof.Machine.execHealthHoldExpiry s
  | .claimListenEnd presence => Sys2Proof.Machine.execClaimListenEnd presence s
  | .claimFrameStart => Sys2Proof.Machine.execClaimFrameStart s
  | .claimSyncJoin => Sys2Proof.Machine.execClaimSyncJoin s
  | .claimEffectInstant bus presence stuck => Sys2Proof.Machine.execClaimEffectInstant bus presence stuck s
  | .bothLinksLostTakeover => Sys2Proof.Machine.execBothLinksLostTakeover s
  | .sharedOutputStart => Sys2Proof.Machine.execSharedOutputStart s
  | .mateControlMessage m => Sys2Proof.Machine.execMateControlMessage m s
  | .mateLinkDown => Sys2Proof.Machine.execMateLinkDown s
  | .epochClose poison => Sys2Proof.Machine.execEpochClose poison s
  | .epochReceived num records good => Sys2Proof.Machine.execEpochReceived num records good s
  | .epochAck num => Sys2Proof.Machine.execEpochAck num s
  | .epochAckTimeout => Sys2Proof.Machine.execEpochAckTimeout s
  | .lanePortType q port v => Sys2Proof.Machine.execLanePortType q port v s
  | .laneTrain q lane v => Sys2Proof.Machine.execLaneTrain q lane v s
  | .lanePortEnable q port v => Sys2Proof.Machine.execLanePortEnable q port v s
  | .trainingTimeout lane => Sys2Proof.Machine.execTrainingTimeout lane s
  | .laneLockChange lane lock snr => Sys2Proof.Machine.execLaneLockChange lane lock snr s
  | .portLinkChange port aligned highBer localFault remoteFault => Sys2Proof.Machine.execPortLinkChange port aligned highBer localFault remoteFault s
  | .flexeRejoinExpiry port => Sys2Proof.Machine.execFlexeRejoinExpiry port s
  | .flexeOverheadLockChange port lock => Sys2Proof.Machine.execFlexeOverheadLockChange port lock s
  | .laneFlexeNext q crc => Sys2Proof.Machine.execLaneFlexeNext q crc s
  | .laneFlexeApply q v => Sys2Proof.Machine.execLaneFlexeApply q v s
  | .flexeCalendarStart handle poison => Sys2Proof.Machine.execFlexeCalendarStart handle poison s
  | .flexeCalendarSwap => Sys2Proof.Machine.execFlexeCalendarSwap s
  | .mateLaneMark lane mark blocks skew => Sys2Proof.Machine.execMateLaneMark lane mark blocks skew s
  | .mateWidthSwitch transmit => Sys2Proof.Machine.execMateWidthSwitch transmit s
  | .monResult code ovr => Sys2Proof.Machine.execMonResult code ovr s
  | .monRefReady => Sys2Proof.Machine.execMonRefReady s
  | .monRefEnable q v => Sys2Proof.Machine.execMonRefEnable q v s
  | .monCalStart q v => Sys2Proof.Machine.execMonCalStart q v s
  | .monSelfCalDone delays => Sys2Proof.Machine.execMonSelfCalDone delays s
  | .dieTempTrigger temp => Sys2Proof.Machine.execDieTempTrigger temp s
  | .monSeqSteps q k crc => Sys2Proof.Machine.execMonSeqSteps q k crc s
  | .monSeqRunStart q k => Sys2Proof.Machine.execMonSeqRunStart q k s
  | .monSeqRunStop q k => Sys2Proof.Machine.execMonSeqRunStop q k s
  | .seqPassStart k handle poison => Sys2Proof.Machine.execSeqPassStart k handle poison s
  | .seqStepDone k => Sys2Proof.Machine.execSeqStepDone k s
  | .calRun q c v => Sys2Proof.Machine.execCalRun q c v s
  | .calEstimateDone c adc => Sys2Proof.Machine.execCalEstimateDone c adc s
  | .calRampStep c transmit => Sys2Proof.Machine.execCalRampStep c transmit s
  | .calReportSend c terms => Sys2Proof.Machine.execCalReportSend c terms s
  | .calReport c g msg => Sys2Proof.Machine.execCalReport c g msg s
  | .calTxSettleExpiry c delays => Sys2Proof.Machine.execCalTxSettleExpiry c delays s
  | .calTxNoReportTimeout c => Sys2Proof.Machine.execCalTxNoReportTimeout c s
  | .calTxEnable q c v => Sys2Proof.Machine.execCalTxEnable q c v s
  | .calSet q crc => Sys2Proof.Machine.execCalSet q crc s
  | .telCntCtrl q block k v => Sys2Proof.Machine.execTelCntCtrl q block k v s
  | .telCnt q block k v => Sys2Proof.Machine.execTelCnt q block k v s
  | .telGrpMembers q g crc => Sys2Proof.Machine.execTelGrpMembers q g crc s
  | .telGrpDump q g v => Sys2Proof.Machine.execTelGrpDump q g v s
  | .counterGroupDump handle poisoned poison => Sys2Proof.Machine.execCounterGroupDump handle poisoned poison s
  | .ringRecordWrite => Sys2Proof.Machine.execRingRecordWrite s
  | .telRingFrom q v => Sys2Proof.Machine.execTelRingFrom q v s
  | .telSweepStart q set v => Sys2Proof.Machine.execTelSweepStart q set v s
  | .sweepStart set handle poison => Sys2Proof.Machine.execSweepStart set handle poison s
  | .sweepItemRead set flow => Sys2Proof.Machine.execSweepItemRead set flow s
  | .sweepPeriodDue set handle poison => Sys2Proof.Machine.execSweepPeriodDue set handle poison s
  | .bwWindowEnd => Sys2Proof.Machine.execBwWindowEnd s
  | .resetAssert supply => Sys2Proof.Machine.execResetAssert supply s
  | .brownout => Sys2Proof.Machine.execBrownout s
  | .ocxoClkRunning => Sys2Proof.Machine.execOcxoClkRunning s
  | .resetEnd unitSel good => Sys2Proof.Machine.execResetEnd unitSel good s
  | .bootFailureTimeout good => Sys2Proof.Machine.execBootFailureTimeout good s
  | .pwrImgData q crc => Sys2Proof.Machine.execPwrImgData q crc s
  | .imageWriteDurable => Sys2Proof.Machine.execImageWriteDurable s
  | .pwrImgSwitch q v => Sys2Proof.Machine.execPwrImgSwitch q v s
  | .firmwareImageSwitch handle poison => Sys2Proof.Machine.execFirmwareImageSwitch handle poison s
  | .pwrImgConfirm q v => Sys2Proof.Machine.execPwrImgConfirm q v s
  | .imageTrialExpiry => Sys2Proof.Machine.execImageTrialExpiry s
  | .powerStateEntry handle poison => Sys2Proof.Machine.execPowerStateEntry handle poison s
  | .powerStateWake handle poison => Sys2Proof.Machine.execPowerStateWake handle poison s
  | .resourceReady resource => Sys2Proof.Machine.execResourceReady resource s
  | .pwrFecActive q v => Sys2Proof.Machine.execPwrFecActive q v s
  | .controlRestartEnd => Sys2Proof.Machine.execControlRestartEnd s
  | .epochCommit => Sys2Proof.Machine.execEpochCommit s
  | .baselineComplete b => Sys2Proof.Machine.execBaselineComplete b s
  | .powerUpLoad m => Sys2Proof.Machine.execPowerUpLoad m s
  | .domainPassResume => Sys2Proof.Machine.execDomainPassResume s
  | .domainSlotRewrite ref => Sys2Proof.Machine.execDomainSlotRewrite ref s
  | .dictSave q v => Sys2Proof.Machine.execDictSave q v s
  | .dictSaveComplete => Sys2Proof.Machine.execDictSaveComplete s
  | .dictRestoreCancel q => Sys2Proof.Machine.execDictRestoreCancel q s
  | .dictRestoreSaved q => Sys2Proof.Machine.execDictRestoreSaved q s
  | .dictRestoreDefaults q => Sys2Proof.Machine.execDictRestoreDefaults q s
  | .dictRestoreKeepComm q => Sys2Proof.Machine.execDictRestoreKeepComm q s
  | .dictImport q crc => Sys2Proof.Machine.execDictImport q crc s
  | .eopMessageMalformed q svc => Sys2Proof.Machine.execEopMessageMalformed q svc s

end Sys2Proof.Machine
end

