-- ==== Sys2Proof/Safety.lean ====
section
/-! DEFINITION. The vocabulary of the claims: what follows a command's effect, which objects follow by themselves, which requests the device executes,
what a command leaves as it was. -/

namespace Sys2Proof.Machine

/-- The state after an effect that leaves the device as d: the derived objects brought up to date, the notices of value changes made; the queue as it was. -/
def State.after (s : State) (d : Device) : State := { s with dev := d.settle.changes s.dev }

/-- The device a command finds: what the last command sent out is gone. -/
def State.fresh (s : State) : Device := { s.dev with out := [] }

/-- References that settling may write: the bring-up stages and their times, FEC_POOL_LOAD, SCHED_PENDING, EOP_SESSIONS, TIME_PULL_LEFT, TIME_OUT_DRIVING,
TEL_SWEEP_STATE, the state and statistics of line-path runs, LINE_RX_ADC_STATE, MON_CAL_STATE, SEC_OVER_SLOTS, SEC_CG_STATE of every crypt group, and MON_SEQ_STATE of
whatever sequence waits. -/
def followsByItself (ref : Nat) : Bool :=
  [Reg.pwrBringup.ref, Reg.pwrStageTime 0 |>.ref, Reg.pwrStageTime 1 |>.ref, Reg.pwrStageTime 2 |>.ref, Reg.pwrStageTime 3 |>.ref, Reg.pwrStageTime 4 |>.ref,
   Reg.fecPoolLoad.ref, Reg.schedPending.ref, Reg.eopSessions.ref, Reg.timePullLeft.ref, Reg.timeOutDriving.ref, (Reg.telSweepState 0).ref,
   (Reg.telSweepState 1).ref, (Reg.telSweepState 2).ref, (Reg.calState 0).ref, (Reg.calState 1).ref, (Reg.calRuns 0).ref, (Reg.calRuns 1).ref,
   (Reg.calLast 0).ref, (Reg.calLast 1).ref, (Reg.calTempLast 0).ref, (Reg.calTempLast 1).ref, Reg.monCalState.ref, Reg.secOverSlots.ref,
   (Reg.lineRxAdcState 0).ref, (Reg.lineRxAdcState 1).ref].contains ref ||
    ref / 256 == (Reg.secCgState 0).ref / 256 ||
    (ref % 256 == (Reg.monSeqState 0).ref % 256 && decide ((Reg.monSeqState 0).ref ≤ ref))

/-! ### Requests that are executed -/

/-- The privilege a request runs at: its session's level, operator without one (R422). -/
def Device.privilege (d : Device) (q : Req) : Nat := if q.session = 0 then 0 else ((d.sessionOf q).map (·.level)).getD 0

/-- The session a request names lets it through at a level: no session for level 0, else an open session of the requester at that level or above, not the
untagged installer session, the tag and COUNTER right, the REQ_ID none of the last 16 (R422 to R425). -/
def Device.sessionLets (d : Device) (q : Req) (level : Nat) : Bool :=
  if q.session = 0 then level == 0
  else (d.sessionOf q).any (fun s => !s.limited && d.tagPasses s q && decide (level ≤ s.level) && s.cache.all (fun r => r.reqId != q.reqId.toNat))

/-- A request for this device (ROUTE 0) that it executes at a level: it is in service, takes the message, fewer than four wait, and the session lets it
through (R409, R413, R422 to R425, Table 17.2). -/
def Device.grants (d : Device) (q : Req) (level : Nat) : Bool :=
  d.phase == .running && !d.unheard q && !d.vlanFull q && decide (q.waiting < 4) && q.route == 0 && d.sessionLets q level

/-- A write of an object is executed: the request at its level, without a bake time, and not for the standby of a pair to refuse (R345, R416). -/
def Device.writes (d : Device) (q : Req) (level ref : Nat) : Bool := d.grants q level && q.bake == 0 && (d.roleCheck ref).isNone

/-- The device that the service of an executed request finds: after a gap of the core, the message counted and numbered, its session's COUNTER moved up (R31, R423, Table 17.2). -/
def Device.found (d : Device) (q : Req) : Device :=
  let d := (d.countVlan q).coreSeq
  if q.session = 0 then d
  else
    match d.sessionOf q with
    | none => d
    | some s => { d with eop := { d.eop with sessions := d.eop.sessions.map (fun x => if x.num = s.num then { x with lastIn := max x.lastIn q.counter.toNat } else x) } }

/-! ### Frames -/

/-- A framer without the EOP segments that wait for its overhead slots, which responses and notices over the line join (R412). -/
def Framer.noSegs (f : Framer) : Framer := { f with slots := f.slots.filter (fun m => m.cls != 3) }

/-- Both framers, without EOP segments. -/
def Device.framers (d : Device) : Pair Framer := ⟨d.frm.c0.noSegs, d.frm.c1.noSegs⟩

/-- The parts of the device beside its objects. `stored` is the DOMAIN contents, `schedule` the actions and bundles, `journal` the records of the open epoch. -/
inductive Part where
  | stored | now | phase | resources | deferred | schedule | fab | frm | rx | tx | fec | hub | pkt | itla | aspi | store | twin | journal | mem | tim | sec
  | lane | pwr
deriving DecidableEq, Repr

/-- A part is the same in two devices. Of `now`: device time has not moved, or to the end of a resynchronisation gap for which the
control core waits; of `frm`: both framers but for EOP segments in their slots; of `sec`: all but since when a crypt group sends no ciphertext,
which follows its state. -/
def samePart (a b : Device) : Part → Prop
  | .stored => b.doms = a.doms
  | .now => b.twin.gapEnd = a.twin.gapEnd ∧ (b.now = a.now ∨ b.now = max a.now a.twin.gapEnd)
  | .phase => b.phase = a.phase
  | .resources => b.resources = a.resources
  | .deferred => b.deferred = a.deferred
  | .schedule => b.sched.actions = a.sched.actions ∧ b.sched.waiting = a.sched.waiting ∧ b.sched.bundles = a.sched.bundles ∧ b.sched.step = a.sched.step ∧
      b.sched.nextHandle = a.sched.nextHandle ∧ b.sched.nextBundle = a.sched.nextBundle
  | .fab => b.fab = a.fab
  | .frm => b.framers = a.framers
  | .rx => b.rx = a.rx
  | .tx => b.tx = a.tx
  | .fec => b.fec = a.fec
  | .hub => b.hub = a.hub
  | .pkt => b.pkt = a.pkt
  | .itla => b.itla = a.itla
  | .aspi => b.aspi = a.aspi
  | .store => b.store = a.store
  | .twin => { b.twin with journal := [] } = { a.twin with journal := [] }
  | .journal => b.twin.journal = a.twin.journal
  | .mem => b.mem = a.mem
  | .tim => b.tim = a.tim
  | .sec => { b.sec with ended := [] } = { a.sec with ended := [] }
  | .lane => b.lane = a.lane
  | .pwr => b.pwr = a.pwr

/-- From device d to e only the objects and parts named may differ. -/
def Device.keeps (d e : Device) (refs : List Nat) (parts : List Part) : Prop :=
  (∀ o : Obj, refs.contains o.ref = false → e.get o = d.get o) ∧ ∀ p : Part, parts.contains p = false → samePart d e p

/-- From s to t nothing changes but the objects and the parts named: every other object that does not follow by itself reads as before, every other part
and the queue are as they were. -/
def State.leaves (s t : State) (refs : List Nat) (parts : List Part) : Prop :=
  t.pending = s.pending ∧ (∀ o : Obj, refs.contains o.ref = false → followsByItself o.ref = false → t.dev.get o = s.dev.get o) ∧
  ∀ p : Part, parts.contains p = false → samePart s.dev t.dev p

/-- From s to t nothing changes but the objects at the indices named (first and last of each range), the objects named and the parts named. -/
def State.leavesAt (s t : State) (ranges : List (Nat × Nat)) (refs : List Nat) (parts : List Part) : Prop :=
  t.pending = s.pending ∧
  (∀ o : Obj, ranges.any (fun r => decide (r.1 ≤ o.ref / 256 ∧ o.ref / 256 ≤ r.2)) = false → refs.contains o.ref = false →
    followsByItself o.ref = false → t.dev.get o = s.dev.get o) ∧
  ∀ p : Part, parts.contains p = false → samePart s.dev t.dev p

/-- The objects of the line: LINE, FEC, FRM and HUB with their block objects (Table 18.1), and the counters that may count their blocks' events (R448). -/
def lineRange : List (Nat × Nat) := [(0x2000, 0x2FFF), (0x9100, 0x910F)]

/-- The objects of the line and of the slice fabric, which acts on line defects (R142). -/
def lineAndFabric : List (Nat × Nat) := [(0x2000, 0x2FFF), (0x3000, 0x3FFF), (0x9100, 0x910F)]

/-- The objects of time and of the schedule, which a change of candidates may reach (TIME and SCHED, Table 18.1), and the counters that may count their events (R448). -/
def timing : List (Nat × Nat) := [(0x5000, 0x5FFF), (0x9100, 0x910F)]

/-- What an event with a number of its own may also change: SCHED_LAST_SEQ (R31). -/
def numbered : List Nat := [Reg.schedLastSeq.ref]

/-- The programmable counters of a block and their control words: they count its events (R448). -/
def eventCounters (b : Nat) : List Nat :=
  match blockIndices.findIdx? (· == b) with
  | some n => (List.range 8).flatMap (fun k => [(Reg.telCnt n k).ref, (Reg.telCntCtrl n k).ref])
  | none => []

/-- What a notice about an object also changes: the counters of its block's notices, and of its events (R433, R448). -/
def noticed (ref : Nat) : List Nat :=
  [(blkNotices (blockOf (ref / 256))).ref, (blkLastSeq (blockOf (ref / 256))).ref] ++ eventCounters (blockOf (ref / 256))

/-- What an accepted write of an object also changes: SCHED_LAST_SEQ, the store's status, its block's _BLK_CHANGED (R31, R433, R434). -/
def written (ref : Nat) : List Nat :=
  [Reg.schedLastSeq.ref, Reg.dictRecords.ref, Reg.dictUnstored.ref, Reg.dictStoreState.ref, (blkChanged (blockOf (ref / 256))).ref]

/-- A refused or stale command: its number, and the count the spec names. -/
def counted (o : Obj) : List Nat := [Reg.schedLastSeq.ref, o.ref]

/-- The response to a request left the device in its bytes: on its transport, or into the queue that is read over SPI (R409, R410). -/
def State.answers (t : State) (r : Resp) : Prop := ∃ bytes, .message (.resp r bytes) ∈ t.dev.out ∨ .resp r bytes ∈ t.dev.eop.spiOut

/-- A counter has moved up by one (what it holds past its top the spec does not say). -/
def State.counts (s t : State) (o : Obj) : Prop := s.dev.get o + 1 < 2 ^ o.width → t.dev.get o = s.dev.get o + 1

/-- An event is raised about an object: its block's notice count goes up (R433). -/
def State.raises (s t : State) (o : Obj) : Prop := s.counts t (blkNotices (blockOf (o.ref / 256)))

/-! ### Writes of DOMAINs -/

/-- A BLOCK write of a DOMAIN ends right: executed at its level, the transfer x the requester's, its length and CRC-32 right (R421). -/
abbrev State.endsBlock (s : State) (q : Req) (level ref : Nat) (crc : BitVec 32) (x : Transfer) : Prop :=
  s.fresh.writes q level ref = true ∧ s.dev.eop.transfers.find? (fun y => y.ref == ref && y.writing) = some x ∧ x.session = q.session.toNat ∧
    x.data.length = x.total ∧ crc32 x.data = crc.toNat

/-- The bytes of a DOMAIN that is kept whole, with no effect of its own: the transmit pre-emphasis of a quiet carrier, the ASPI safe and resume lists, the
thermistor table and the list of unit-local objects, each as its chapter's layout asks (R46, R56, R298, R351). -/
def Device.keepsWhole (d : Device) (ref : Nat) (bs : List Nat) : Bool :=
  if ref = (Reg.lineTxEmph 0).ref ∨ ref = (Reg.lineTxEmph 1).ref then bs.length == 512 && d.txQuiet (ref / 256 - 0x2016)
  else if ref = Reg.lineAspiSafe.ref ∨ ref = Reg.lineAspiResume.ref then aspiListOk 64 bs
  else if ref = Reg.timeHoThermTable.ref then thermOk bs
  else if ref = Reg.twinLocalList.ref then bs.length % 4 == 0 && decide (bs.length ≤ 256)
  else false

/-! ### Writes that create actions -/

/-- A write of an RWS object: the command, the level it needs, the object, the value, kind and class of its action, the resources and the numbers the action
carries, and what its chapter asks of it besides. -/
structure RwsWrite where
  cmd : Instr
  level : Nat
  obj : Obj
  val : Val
  kind : ActKind
  cls : Nat
  needs : List Nat
  args : List Nat
  allowed : Bool

/-- The action such a write creates, before it has a handle; a reference change has late policy 1 (R24 to R26, R276, R416). -/
def State.planned (s : State) (q : Req) (w : RwsWrite) : Action :=
  { newAction w.kind .host w.cls w.obj.ref q.bake.toNat w.val.raw with
    late1 := w.cls == 4 || s.dev.latePolicy q, acceptAt := s.fresh.afterGap.now, needs := w.needs, args := w.args }

/-- The write gets as far as its action: executed at its level, no standby's to refuse, its value right, its chapter's check passed (R345, R416). -/
abbrev State.reaches (s : State) (q : Req) (w : RwsWrite) : Prop :=
  s.fresh.grants q w.level = true ∧ s.dev.roleCheck w.obj.ref = none ∧ valueCheck w.obj (rangeOf w.obj.ref) w.val = none ∧ w.allowed = true ∧
    time96Valid q.bake.toNat = true ∧ bakeFu (s.planned q w) ≤ s.fresh.afterGap.now + s.dev.get Reg.schedMaxAhead * fuSec ∧
    s.dev.hostPlaceFree (s.planned q w) = true ∧ s.fresh.afterGap.mustWake (s.planned q w) = false

/-- The action enters the schedule last, under the next handle, which is the answer; nothing else changes (R24, R27). -/
def State.schedules (s t : State) (q : Req) (a : Action) : Prop :=
  t.dev.sched.actions = s.dev.sched.actions ++ [{ a with handle := s.dev.sched.nextHandle, acceptSeq := (s.fresh.found q).sched.cur }] ∧
    t.answers (respOf q 2 stSuccess (beBytes 4 s.dev.sched.nextHandle)) ∧ s.leaves t numbered [.schedule]

/-! ### Firing -/

/-- The action h fires now and at its boundary: of class cls, armed, its turn come, nothing found against it, none of the kinds whose outcome has a notice of its
own besides SCHED_LIST's (R23, R29, R37). -/
abbrev Device.fires (d : Device) (h : Nat) (a : Action) (cls : Nat) : Prop :=
  d.action? h = some a ∧ a.cls = cls ∧ d.mayFire a = true ∧ d.heldBack cls = false ∧ a.prepFail = none

/-- The device on which a firing action's effect runs: the arming event's number in force, the action out of the schedule (R23, R37). -/
def State.firing (s : State) (a : Action) (h : Nat) : Device := Device.dropAction { s.fresh with sched := { s.dev.sched with cur := a.armSeq } } h

/-- What a firing changes beside its effect: SCHED_LATE_COUNT and SCHED_LIST's notice counters (R25, R37). -/
def fired : List Nat := Reg.schedLateCount.ref :: noticed Reg.schedList.ref

/-! ### Control messages -/

/-- A control message on group g of carrier c is taken: the group is in Sync, the carrier no hub carrier, the message new (R132, R92). -/
def Device.takesControl (d : Device) (c g w : Nat) : Bool :=
  !d.dead && bitAt (d.groupMask c) g && d.get (Reg.frmAlignState c g) == 4 && !d.on (Reg.hubEnable c) && !(d.frm.at (d.loadCarrier c)).lastControl.contains w

/-! ### Packets -/

/-- Counter k of packet port p: 0 received, 1 accepted, 2 refused, 3 policed, 4 errored, 5 dropped, 6 and 9 poison misses, 7 transmitted, 8 dropped at egress. -/
def Device.portCount (d : Device) (p k : Nat) : Nat := tblGetD d.pkt.counts (16 * p + k) 0

/-- A queue whose open item of n words so far is taken back, counted where the queue is not Disabled (R225, R226). -/
def PktQueue.undone (x : PktQueue) (n : Nat) : PktQueue :=
  let y := x.rewind n
  if y.state = 0 then y else { y with rewound := y.rewound + 1 }

/-- From queue x to y at instant t an item of l bytes is committed whose words from word n on are w: behind the others, due when all that the queue then holds
has been sent at its rate, and counted (R225, R228). -/
def commits (x y : PktQueue) (t l : Nat) (w : List PktWord) : Prop :=
  let z := w.foldl PktQueue.push x
  y.items = x.items ++ [⟨l, t + ceilDiv ((queueDepth x + chargeOf l) * fuCycle) (qcRate x.cfg)⟩] ∧ y.accepted = x.accepted + 1 ∧
    y.head = z.head ∧ y.mid = z.mid ∧ y.tail = z.tail ∧ y.cfg = x.cfg ∧ y.state = x.state

/-- The flow's policer lets a frame of l bytes through (R226). -/
def Device.conforms (d : Device) (flow : Option Nat) (l : Nat) : Prop :=
  ∀ k f, flow = some k → tblGet d.pkt.flows k = some f → f.cir = 0 ∨ l ≤ (refill (d.now / fuCycle % 2 ^ 32) f).tokens

/-- An item of a queue ends past its deadline plus J (R233). -/
def Device.endsLate (d : Device) (k : Nat) (i : PktItem) : Bool := (d.jitterFu (d.queue k).cfg).any (fun j => decide (i.deadline + j < d.now))

/-- What a consumer of Table 10.6 that meets poisoned data changes (R256, R448, R449). -/
def poisonRefs (row block : Nat) : List Nat := [(Reg.memPoisonConsumed (row - 1)).ref, (blkFaults block).ref] ++ eventCounters block

/-! ### Transmit states and ITLA queues -/

/-- The transmit state once a squelch cause is present: Starting and Active become Squelched (R63). -/
def squelched (st : Nat) : Nat := if st = 1 ∨ st = 3 then 2 else st

/-- The transmit state once squelch cause k has cleared: with the last cause Squelched ends, in Active if the carrier was Active, its lasers stayed on
and R62 holds, else in Starting (R64). -/
def Device.unsquelched (d : Device) (c k : Nat) : Nat :=
  let w := d.get (Reg.lineTxCauses c)
  if bitAt w k && decide (withBit w k false % 65536 = 0) && d.get (Reg.lineTxState c) == 2 then
    (if (d.tx.at c).wasActive && !(d.tx.at c).laserOff && d.txConditions c then 3 else 1)
  else d.get (Reg.lineTxState c)

/-- Every local-oscillator laser of a carrier is ready and stays on when the host enables the carrier: none is to be enabled first (R66, Table 4.4). -/
def Device.loStays (d : Device) (c : Nat) : Bool :=
  (d.itlaPorts c 1).all (fun n => d.get (Reg.lineItlaState n) == 2 && (bitAt (d.get (Reg.lineItlaUse n)) 0 || (d.port n).disHigh))

/-- A transaction joins a port's queue: behind the others, or out at once on a port with none (R50). -/
def joinsPort (d e : Device) (n : Nat) (c : ItlaCmd) : Prop :=
  ((d.port n).out ≠ none → e.port n = { d.port n with queue := (d.port n).queue ++ [c] }) ∧
  ((d.port n).out = none → (d.port n).queue = [] → (e.port n).out = some c ∧ .itla n c ∈ e.out)

/-! ### Telemetry, images and resources -/

/-- A record joins those that wait for the ring, behind the others. -/
def State.records (s t : State) (r : RingRec) : Prop := t.dev.tel.waiting = s.dev.tel.waiting ++ [r]

/-- The objects that show the image slots (R466 to R470). -/
def imageRefs : List Nat :=
  [(Reg.pwrImgState 0).ref, (Reg.pwrImgState 1).ref, (Reg.pwrImgVersion 0).ref, (Reg.pwrImgVersion 1).ref, (Reg.pwrImgMirror 0).ref,
   (Reg.pwrImgMirror 1).ref, Reg.pwrImgPrefer.ref, Reg.pwrImgRollbackMin.ref, Reg.idImageSlot.ref, Reg.idImageVersion.ref, Reg.twinMirrorVersion.ref]

/-- What the boot code has chosen from slots p (preferred) and its other, of which `good` finds some valid: the preferred slot while it is valid and has
failed fewer than 3 times, else the other if valid, else the preferred one if valid, either counted as a fallback; with neither valid the device is in
recovery (R467, R468). -/
def State.booted (s t : State) (slots : Pair ImgSlot) (prefer : Nat) (good : Bool × Bool) : Prop :=
  let valid := fun k => (slots.at k).state == 1 && (if k = 0 then good.1 else good.2)
  (valid prefer = true → (slots.at prefer).fails < 3 → t.dev.phase = .boot ∧ t.dev.pwr.active = prefer) ∧
  (valid prefer = true → 3 ≤ (slots.at prefer).fails → valid (1 - prefer) = true →
    t.dev.phase = .boot ∧ t.dev.pwr.active = 1 - prefer ∧ s.counts t Reg.pwrImgFallbacks) ∧
  (valid prefer = true → 3 ≤ (slots.at prefer).fails → valid (1 - prefer) = false →
    t.dev.phase = .boot ∧ t.dev.pwr.active = prefer ∧ s.counts t Reg.pwrImgFallbacks) ∧
  (valid prefer = false → valid (1 - prefer) = true → t.dev.phase = .boot ∧ t.dev.pwr.active = 1 - prefer ∧ s.counts t Reg.pwrImgFallbacks) ∧
  (valid prefer = false → valid (1 - prefer) = false → t.dev.phase = .recovery ∧ t.dev.pwr.active = 2)

/-! ### Memories -/

/-- MRAM and HBM have the canonical form: addresses strictly rising, no byte listed that reads as an unlisted one. -/
abbrev Device.memWf (d : Device) : Prop := Memory.wf d.mem.mram = true ∧ Memory.wf d.mem.hbm = true

/-! ### Checksums -/

/-- The product of two polynomials over GF(2), bit i the coefficient of x^i; the first has n terms. -/
def polyTimes : Nat → Nat → Nat → Nat
  | 0, _, _ => 0
  | n + 1, a, b => (if bitAt a n then b * 2 ^ n else 0) ^^^ polyTimes n a b

/-! ### What the device shows of itself -/

/-- The conditions of the stages of Table 20.2. -/
def Device.stages (d : Device) : List Bool := [d.on Reg.idDictReady, d.stageLanes, d.stageLine, d.stageTime, d.stageTwin]

/-- What the device shows agrees with what it is: PWR_BRINGUP has the bit of a stage exactly where its condition and those of every lower stage hold, and no other
bit; FEC_POOL_LOAD is the load of the configuration in force; SCHED_PENDING counts the actions; TIME_PULL_LEFT is what is left of the pull; TIME_OUT_DRIVING is what
R291 and R352 let the device drive; a set without a sweep shows whether an action or a bundle will start one (R471, R117, R27, R277, R291, R457). -/
def Device.agrees (d : Device) : Prop :=
  (∀ k : Fin 5, bitAt (d.get Reg.pwrBringup) k = (d.stages.take (k + 1)).all id) ∧ d.get Reg.pwrBringup < 32 ∧
  d.get Reg.fecPoolLoad = roundDiv d.poolLoad 8000 % 2 ^ Reg.fecPoolLoad.width ∧
  d.get Reg.schedPending = d.sched.actions.length % 2 ^ Reg.schedPending.width ∧
  d.get Reg.timePullLeft = ofSigned Reg.timePullLeft.width d.pullLeft % 2 ^ Reg.timePullLeft.width ∧
  d.get Reg.timeOutDriving = d.driving % 2 ^ Reg.timeOutDriving.width ∧
  ∀ k : Fin 3, d.get (Reg.telSweepState k) ≤ 1 →
    d.get (Reg.telSweepState k) =
      b2n (d.sched.actions.any (fun a => a.target == (Reg.telSweepStart k).ref || a.members.any (fun m => m.ref == (Reg.telSweepStart k).ref)))

end Sys2Proof.Machine
end

