-- ==== Sys2Proof/Certificates/Slice0/Obligations.lean ====
section
/-! DEFINITION. The statements: what each command does, what it leaves as it was, what every command keeps. In a statement `s.after e` is the state with
the effect e, the derived objects brought up to date and the notices of value changes made; `s.fresh.found q` is the device that the service of request q
finds; `s.leaves t refs parts` is the frame: nothing but the named objects and parts changes. -/

open Sys2Proof Sys2Proof.Machine

/-! ### Stepping -/

/-- The front command runs on the rest of the queue; an empty queue idles (the model's choice, assumption 1). -/
def Obligations.StepRunsTheFrontCommand : Prop :=
  ∀ (c : Instr) (s : State), step { s with pending := c :: s.pending } = exec c s ∧ (s.pending = [] → step s = .next s)

/-! ### Object access (chapter 17) -/

/-- READ (R415): the header says Success, each reference carries its own item, nothing changes but SCHED_LAST_SEQ; a scalar that holds its own value carries its
type, length and value; one whose value the store delivers with poison carries "uncorrectable data"; a DOMAIN carries "use BLOCK", a WO object "access denied", both with length 0.
WRITE of an object with neither a check nor an effect of its own (R6, R416): an RW object holds the value written, reserved bits 0; an RWC object goes to its
Default; nothing else changes but what every accepted write changes. A write of an RO object is answered "access denied", one of a DOMAIN "use BLOCK". -/
def Obligations.ReadsAndWritesAnswer : Prop :=
  (∀ (s : State) (q : Req) (refs poisoned : List (BitVec 24)), s.fresh.grants q 0 = true → refs.length ≤ 64 →
    (∃ t, exec (.read q refs poisoned) s = .next t ∧
      t.answers (respOf q 1 stSuccess (refs.flatMap (fun r =>
        itemBytes ((s.fresh.found q).readItemOr (s.fresh.privilege q) r.toNat (poisoned.contains r))))) ∧
      s.leaves t (numbered ++ if poisoned = [] then [] else [(Reg.memPoisonReads 0).ref, (Reg.memPoisonConsumed 7).ref, (blkFaults 0xFFF0).ref] ++ eventCounters 0xFFF0) []) ∧
    (∀ r lvl, (s.dev.readItem lvl r).1 = stSuccess → (s.dev.readItemOr lvl r true).1 = stUncorrectable ∧ (s.dev.readItemOr lvl r true).2.2 = []) ∧
    ∀ r row, rowOf r = some row →
      (row.ty = tyDomain → (s.fresh.found q).readItem (s.fresh.privilege q) r = (stUseBlock, row.ty, [])) ∧
      (row.ty ≠ tyDomain → row.access = .wo → (s.fresh.found q).readItem (s.fresh.privilege q) r = (stDenied, row.ty, [])) ∧
      (row.ty ≠ tyDomain → row.access ≠ .wo → readLevel (r / 256) ≤ s.fresh.privilege q → (s.fresh.found q).shown r = none → r ≠ Reg.schedLastSeq.ref →
        (s.fresh.found q).readItem (s.fresh.privilege q) r = (stSuccess, row.ty, beBytes (rowObj row r).bytes (s.dev.get (rowObj row r))))) ∧
  ∀ (s : State) (q : Req) (ref : BitVec 24) (v : Val) (row : ObjRow), rowOf ref.toNat = some row →
    s.fresh.writes q (writeLevelOf row ref.toNat v.raw) ref.toNat = true → followsByItself ref.toNat = false →
    (row.access = .rw → row.ty ≠ tyDomain → valueCheck (objOf row ref.toNat) row.range v = none → (written ref.toNat).contains ref.toNat = false →
      ownEffect ref.toNat v.raw (s.fresh.found q) = none →
      ∃ t, exec (.write q ref v) s = .next t ∧ t.dev.get (objOf row ref.toNat) = rangeKeep row.range v.raw % 2 ^ (objOf row ref.toNat).width ∧
        s.leaves t (ref.toNat :: written ref.toNat) [.store, .journal]) ∧
    (row.access = .rwc → row.ty ≠ tyDomain → v.len = (rowObj row ref.toNat).bytes →
      clearCheck ref.toNat (s.fresh.found q) = none →
      (∃ t, exec (.write q ref v) s = .next t ∧ t = s.after ((clearEffect row ref.toNat (s.fresh.found q)).reply q 2 okWrite)) ∧
      (ref.toNat / 256 ≠ 0x3012 → ¬(0x9100 ≤ ref.toNat / 256 ∧ ref.toNat / 256 ≤ 0x910F) → (s.fresh.found q).packetClear ref.toNat = none →
      ∃ t, exec (.write q ref v) s = .next t ∧ t.dev.get (rowObj row ref.toNat) = rowDefault row ref.toNat % 2 ^ row.width ∧
        t.answers (respOf q 2 stSuccess (beBytes 4 0)) ∧ s.leaves t (ref.toNat :: numbered) [])) ∧
    (row.access = .ro → row.ty ≠ tyDomain →
      ∃ t, exec (.write q ref v) s = .next t ∧ t.answers (respOf q 2 stDenied (errBytes (err stDenied))) ∧ s.leaves t numbered []) ∧
    (row.ty = tyDomain →
      ∃ t, exec (.write q ref v) s = .next t ∧ t.answers (respOf q 2 stUseBlock (errBytes (err stUseBlock))) ∧ s.leaves t numbered [])

/-- BUNDLE (R417): one whose members pass becomes one action of class 0x0009, kind Calendar, with its members in their order; an immediate one withholds its
response, a timed one is answered with the handle. A bundle without members, with more than 64 or not filling LENGTH is answered "message malformed". -/
def Obligations.BundleBecomesOneAction : Prop :=
  ∀ (s : State) (q : Req) (fits : Bool) (members : List BundleMember), s.fresh.grants q 0 = true →
    (members ≠ [] → members.length ≤ 64 → fits = true →
      membersCheck false q (s.fresh.privilege q) (((s.fresh.found q).sessionOf q).any (·.limited)) 0 [] members (s.fresh.found q) = none →
      (∀ m ∈ members, (s.fresh.found q).writeNeeds m.ref.toNat m.val.raw = [] ∧ (s.fresh.found q).rwsNeeds m.ref.toNat m.val.raw = []) →
      time96Valid q.bake.toNat = true → bakeFu ((s.fresh.found q).bundleAction q members) ≤ (s.fresh.found q).now + s.dev.get Reg.schedMaxAhead * fuSec →
      s.dev.hostPlaceFree ((s.fresh.found q).bundleAction q members) = true →
      ((s.fresh.found q).isLate { (s.fresh.found q).bundleAction q members with acceptAt := (s.fresh.found q).now } = false ∨ s.dev.latePolicy q = true) →
      ∃ t a, exec (.bundle q fits members) s = .next t ∧ t.dev.sched.actions = s.dev.sched.actions ++ [a] ∧
        a.cls = 9 ∧ a.kind = .calendar ∧ a.handle = s.dev.sched.nextHandle ∧ a.bake = q.bake.toNat ∧
        a.members = members.map (fun m => ⟨m.ref.toNat, m.val.raw⟩) ∧
        (q.bake ≠ 0 → s.dev.journals = false → t.answers (respOf q 3 stSuccess (beBytes 4 s.dev.sched.nextHandle))) ∧
        s.leaves t numbered [.schedule, .journal]) ∧
    (members = [] ∨ 64 < members.length ∨ fits = false →
      ∃ t, exec (.bundle q fits members) s = .next t ∧ t.answers (respOf q 3 stMalformed (errBytes (err stMalformed))) ∧ s.leaves t numbered [])

/-- SUBSCRIBE and the spacing of change notices (R420): an add that finds room gives the requester's lowest free number; a cancel ends that subscription and no
other; at the end of a spacing with no change waiting the object is no longer spaced. -/
def Obligations.SubscriptionsComeAndGo : Prop :=
  (∀ (s : State) (q : Req) (first last period : BitVec 16), s.fresh.grants q 0 = true → first ≤ last →
    (s.fresh.privilege q = 0 → ¬(first.toNat ≤ 0x6FFF ∧ 0x6000 ≤ last.toNat)) → (subsOf q s.dev.eop.subs).length < 64 → s.dev.eop.subs.length < 512 →
    ∃ e, exec (.subscribeAdd q first last period) s =
        .next (s.after (e.reply q 4 (.ok (beBytes 1 (freeNum ((subsOf q s.dev.eop.subs).map (·.num))))))) ∧
      e.eop.subs = s.dev.eop.subs ++ [⟨freeNum ((subsOf q s.dev.eop.subs).map (·.num)), q.session.toNat, q.transport.val, q.addr, first.toNat, last.toNat,
        period.toNat, [], []⟩] ∧ s.fresh.keeps e numbered []) ∧
  (∀ (s : State) (q : Req) (num : BitVec 8) (x : Subscription), s.fresh.grants q 0 = true →
    (subsOf q s.dev.eop.subs).find? (fun y => y.num == num.toNat) = some x →
    ∃ e, exec (.subscribeCancel q num) s = .next (s.after (e.reply q 4 (.ok (beBytes 1 num.toNat)))) ∧
      e.eop.subs = s.dev.eop.subs.filter (fun y => !(sameOwner y x && y.num == x.num)) ∧ s.fresh.keeps e numbered []) ∧
  (∀ (s : State) (sub : BitVec 16) (ref : BitVec 24) (x : Subscription), s.dev.dead = false → s.dev.eop.subs[sub.toNat]? = some x →
    x.waiting.contains ref.toNat = false → x.spaced.contains ref.toNat = true →
    ∃ e, exec (.noticePeriod sub ref) s = .next (s.after e) ∧
      e.eop.subs = s.dev.eop.subs.map (fun y => if sameOwner y x && y.num == x.num then { x with spaced := x.spaced.filter (· != ref.toNat) } else y) ∧
      s.leaves (s.after e) numbered [])

/-- BLOCK (R421): a write transfer opens on a DOMAIN that no transfer holds; its chunks come one after the other; its end, with length and CRC-32 right, gives the
DOMAIN the bytes under the owning chapter's rules; an abandon and 10 s without a request end it with nothing written; a read at offset 0 is answered with the
snapshot's length and first bytes, a later one with the bytes at its offset. -/
def Obligations.BlockTransfersMoveDomains : Prop :=
  (∀ (s : State) (q : Req) (ref : BitVec 24) (total : BitVec 32) (row : ObjRow), rowOf ref.toNat = some row → row.ty = tyDomain →
    s.fresh.grants q (levelOf ref.toNat 0) = true → row.access ≠ .ro → total.toNat ≤ 12 * 2 ^ 20 →
    s.dev.eop.transfers.find? (fun x => x.ref == ref.toNat) = none →
    ∃ e, exec (.blockOpenWrite q ref total) s = .next (s.after (e.reply q 5 (.ok []))) ∧
      e.eop.transfers = s.dev.eop.transfers ++ [⟨ref.toNat, q.session.toNat, q.transport.val, q.addr, true, total.toNat, []⟩] ∧ s.fresh.keeps e numbered []) ∧
  (∀ (s : State) (q : Req) (ref : BitVec 24) (offset : BitVec 32) (data : List Byte) (row : ObjRow) (x : Transfer), rowOf ref.toNat = some row →
    row.ty = tyDomain → s.fresh.grants q (levelOf ref.toNat 0) = true → data.length ≤ 1024 →
    s.dev.eop.transfers.find? (fun y => y.ref == ref.toNat) = some x → ownTransfer q x = true → x.writing = true → offset.toNat = x.data.length →
    x.data.length + data.length ≤ x.total →
    ∃ e, exec (.blockChunk q ref offset data) s = .next (s.after (e.reply q 5 (.ok []))) ∧
      e.eop.transfers = s.dev.eop.transfers.map (fun y => if y.ref = ref.toNat then { y with data := y.data ++ data.map (·.toNat) } else y) ∧
      s.fresh.keeps e numbered []) ∧
  (∀ (s : State) (q : Req) (ref : BitVec 24) (crc : BitVec 32) (row : ObjRow) (x : Transfer), rowOf ref.toNat = some row → row.ty = tyDomain →
    s.endsBlock q (levelOf ref.toNat 0) ref.toNat crc x →
    let d := (s.fresh.found q).keepTransfers (fun y => !(y.ref == ref.toNat && y.writing))
    (∃ e, exec (.blockEndWrite q ref crc) s = .next (s.after (e.1.reply q 5 e.2)) ∧ e = d.domainWrite q ref.toNat x.data (domainEffect q ref.toNat) ∧
      e.1.eop.transfers = s.dev.eop.transfers.filter (fun y => !(y.ref == ref.toNat && y.writing))) ∧
    (s.dev.keepsWhole ref.toNat x.data = true →
      ∃ t, exec (.blockEndWrite q ref crc) s = .next t ∧ t.dev.dom ref.toNat = x.data ∧
        (s.dev.journals = false → t.answers (respOf q 5 stSuccess [])) ∧ s.leaves t (written ref.toNat) [.stored, .store, .journal])) ∧
  (∀ (s : State) (q : Req) (ref : BitVec 24) (row : ObjRow) (x : Transfer), rowOf ref.toNat = some row → row.ty = tyDomain → s.fresh.grants q 0 = true →
    s.dev.eop.transfers.find? (fun y => y.ref == ref.toNat) = some x → ownTransfer q x = true →
    ∃ e, exec (.blockAbandon q ref) s = .next (s.after (e.reply q 5 (.ok []))) ∧ e.eop.transfers = s.dev.eop.transfers.filter (fun y => y.ref != ref.toNat) ∧
      s.fresh.keeps e numbered []) ∧
  (∀ (s : State) (q : Req) (ref : BitVec 24) (wanted : BitVec 32) (row : ObjRow) (snap : List Nat), rowOf ref.toNat = some row → row.ty = tyDomain →
    s.fresh.grants q (readLevel (ref.toNat / 256)) = true → row.access ≠ .wo → 1 ≤ wanted.toNat → wanted.toNat ≤ 1024 →
    s.dev.eop.transfers.find? (fun y => y.ref == ref.toNat) = none → (s.fresh.found q).domainBytes ref.toNat = .ok snap →
    ∃ t, exec (.blockRead q ref 0 wanted) s = .next t ∧
      t.answers (respOf q 5 stSuccess (beBytes 4 0 ++ beBytes 4 snap.length ++ snap.take wanted.toNat)) ∧ s.leaves t numbered []) ∧
  (∀ (s : State) (q : Req) (ref : BitVec 24) (offset wanted : BitVec 32) (row : ObjRow) (x : Transfer), rowOf ref.toNat = some row → row.ty = tyDomain →
    s.fresh.grants q (readLevel (ref.toNat / 256)) = true → row.access ≠ .wo → 1 ≤ wanted.toNat → wanted.toNat ≤ 1024 → offset ≠ 0 →
    s.dev.eop.transfers.find? (fun y => y.ref == ref.toNat) = some x → ownTransfer q x = true → x.writing = false →
    ∃ t, exec (.blockRead q ref offset wanted) s = .next t ∧
      t.answers (respOf q 5 stSuccess (beBytes 4 offset.toNat ++ beBytes 4 x.data.length ++ (x.data.drop offset.toNat).take wanted.toNat)) ∧
      s.leaves t numbered []) ∧
  (∀ (s : State) (ref : BitVec 24) (x : Transfer), s.dev.dead = false → s.dev.eop.transfers.find? (fun y => y.ref == ref.toNat) = some x →
    ∃ e, exec (.blockTransferTimeout ref) s = .next (s.after e) ∧ e.eop.transfers = s.dev.eop.transfers.filter (fun y => y.ref != ref.toNat) ∧
      s.leaves (s.after e) numbered [])

/-- Sessions (R422, R423): an OPEN within the transport's limit and below 32 sessions opens the lowest free number and answers it: at a level below installer, and at
installer or vendor level with the tag of its pair right and a nonce above the last, whose base then rises by 2^32; CLOSE
and EOP_SESSION_IDLE seconds without a request end a session with its subscriptions; KEEPALIVE is answered and ends nothing. -/
def Obligations.SessionsOpenAndClose : Prop :=
  (∀ (s : State) (q : Req) (level : BitVec 8) (nonce : BitVec 48), s.fresh.grants q 0 = true → q.session = 0 → level.toNat < 2 →
    level.toNat ≤ s.dev.get (Reg.eopTransportMax q.transport) → s.dev.eop.sessions.length < 32 →
    ∃ e, exec (.sessionOpen q level nonce) s =
        .next (s.after (e.reply q 6 (.ok (beBytes 1 0 ++ beBytes 1 (freeNum (s.dev.eop.sessions.map (·.num))) ++ beBytes 6 0)))) ∧
      e.eop.sessions = s.dev.eop.sessions ++ [⟨freeNum (s.dev.eop.sessions.map (·.num)), q.transport.val, q.addr, level.toNat, 0, 0, 0, false, []⟩] ∧
      s.fresh.keeps e numbered []) ∧
  (∀ (s : State) (q : Req) (level : BitVec 8) (nonce : BitVec 48), s.fresh.grants q 0 = true → q.session = 0 → 2 ≤ level.toNat → level.toNat ≤ 3 →
    level.toNat ≤ s.dev.get (Reg.eopTransportMax q.transport) → s.dev.eop.sessions.length < 32 → s.dev.get (Reg.eopAuthPair (level.toNat - 2)) ≠ 0xFFFF →
    (s.dev.pair (s.dev.get (Reg.eopAuthPair (level.toNat - 2)))).cur.state = 2 → s.dev.tagRight level.toNat 0 q = true → q.counter = nonce →
    let p := s.dev.get (Reg.eopAuthPair (level.toNat - 2))
    let base := tblGetD s.dev.eop.bases (nonceKey p (s.dev.pair p).cur.epoch) 0
    (s.dev.lastNonce p (s.dev.pair p).cur.epoch).any (fun n => decide (nonce.toNat ≤ n)) = false → base < 2 ^ 48 →
    ∃ e, exec (.sessionOpen q level nonce) s =
        .next (s.after (e.reply q 6 (.ok (beBytes 1 0 ++ beBytes 1 (freeNum (s.dev.eop.sessions.map (·.num))) ++ beBytes 6 base)))) ∧
      e.eop.sessions = s.dev.eop.sessions ++ [⟨freeNum (s.dev.eop.sessions.map (·.num)), q.transport.val, q.addr, level.toNat, base, base, base, false, []⟩] ∧
      e.lastNonce p (s.dev.pair p).cur.epoch = some nonce.toNat ∧ s.fresh.keeps e numbered []) ∧
  (∀ (s : State) (q : Req), s.fresh.grants q 0 = true → q.session ≠ 0 →
    (∃ e, exec (.sessionClose q) s = .next (s.after (e.reply q 6 (.ok (beBytes 1 1)))) ∧ (∀ x ∈ e.eop.sessions, x.num ≠ q.session.toNat) ∧
      (∀ x ∈ e.eop.subs, x.session ≠ q.session.toNat) ∧ s.fresh.keeps e numbered []) ∧
    ∃ t, exec (.sessionKeepalive q) s = .next t ∧ t.answers (respOf q 6 stSuccess (beBytes 1 2)) ∧ s.leaves t numbered []) ∧
  (∀ (s : State) (n : BitVec 8) (tr : Fin 4) (addr : Nat), s.dev.dead = false → n ≠ 0 → s.dev.eop.sessions.any (fun x => x.num == n.toNat) = true →
    ∃ e, exec (.sessionIdleTimeout n tr addr) s = .next (s.after e) ∧ (∀ x ∈ e.eop.sessions, x.num ≠ n.toNat) ∧ (∀ x ∈ e.eop.subs, x.session ≠ n.toNat) ∧
      s.leaves (s.after e) numbered [])

/-- The management SPI slave and messages that are not executed (R408 to R411): a message written without space is counted in EOP_BUSY and lost; a read takes the
oldest waiting message; a direct read gives a half of the object's 64-bit extension, a direct write gives the object its value; an unreadable header is counted in EOP_DISCARDS, a malformed message answered.
Line messages and forwarding (R412, R413): the first segment of a message of several begins its reassembly, and a message not complete in time is
discarded and counted in EOP_DISCARDS; an answer goes back under the original REQ_ID; without one the asker gets "timeout". -/
def Obligations.MessagesOfOtherTransports : Prop :=
  ((∀ s : State, s.dev.dead = false →
    (∃ t, exec (.spiWriteMessage true) s = .next t ∧ t.dev.eop.spiLost = false ∧ s.leaves t [] []) ∧
    ∃ t, exec (.spiWriteMessage false) s = .next t ∧ t.dev.eop.spiLost = true ∧
      s.counts t Reg.eopBusy ∧ s.leaves t [Reg.eopBusy.ref] []) ∧
  (∀ s : State, s.dev.dead = false →
    ∃ e, exec .spiReadMessage s = .next (s.after e) ∧ .spiMessage s.dev.eop.spiOut.head? ∈ e.out ∧ e.eop.spiOut = s.dev.eop.spiOut.tail ∧
      s.leaves (s.after e) [] []) ∧
  (∀ (s : State) (ref : BitVec 24) (row : ObjRow), s.dev.phase = .running → rowOf ref.toNat = some row → directType row = true → row.access ≠ .wo →
    row.width < 64 → s.fresh.takeSeq.spiStatus.shown ref.toNat = none → ref.toNat ≠ Reg.schedLastSeq.ref →
    ∃ t, exec (.spiDirectRead ref false) s = .next t ∧
      .spiRead 0 0 (ofSigned 64 (rowValue row (s.dev.get (rowObj row ref.toNat))) % 2 ^ 32) ∈ t.dev.out ∧ s.leaves t numbered []) ∧
  (∀ (s : State) (ref : BitVec 24) (word : BitVec 32) (row : ObjRow), s.dev.phase = .running → rowOf ref.toNat = some row → directType row = true →
    row.width ≤ 32 → writeLevelOf row ref.toNat (word.toNat % 2 ^ row.width) ≤ 1 → ofSigned 32 (rowValue row (word.toNat % 2 ^ row.width)) = word.toNat →
    let v := word.toNat % 2 ^ row.width
    let x := writeAny directReq ref.toNat ⟨(rowObj row ref.toNat).bytes, v⟩ s.fresh.takeSeq.spiStatus
    (∃ t, exec (.spiDirectWrite ref word) s = .next t ∧ .spiWrite (match x.2 with | .fail e => e.status | _ => stSuccess) ∈ t.dev.out) ∧
    (row.access = .rw → s.dev.roleCheck ref.toNat = none → followsByItself ref.toNat = false → (written ref.toNat).contains ref.toNat = false →
      valueCheck (objOf row ref.toNat) row.range ⟨(rowObj row ref.toNat).bytes, v⟩ = none → ownEffect ref.toNat v s.fresh.takeSeq.spiStatus = none →
      ∃ t, exec (.spiDirectWrite ref word) s = .next t ∧ t.dev.get (objOf row ref.toNat) = rangeKeep row.range v % 2 ^ (objOf row ref.toNat).width ∧
        .spiWrite stSuccess ∈ t.dev.out ∧ s.leaves t (ref.toNat :: written ref.toNat) [.store, .journal])) ∧
  (∀ (s : State) (tr : Fin 4), s.dev.phase = .running →
    ∃ t, exec (.eopHeaderUnreadable tr) s = .next t ∧ s.counts t Reg.eopDiscards ∧
      s.leaves t (counted Reg.eopDiscards) []) ∧
  (∀ (s : State) (q : Req) (svc : BitVec 8), s.fresh.grants q 0 = true →
    ∃ t, exec (.eopMessageMalformed q svc) s = .next t ∧ t.answers (respOf q svc.toNat stMalformed (errBytes (err stMalformed))) ∧ s.leaves t numbered [])) ∧
  (∀ (s : State) (c : CarrierNo) (leaf : Nat) (seg : BitVec 512), s.dev.phase = .running → bits seg.toNat 511 504 = 0x40 → bitAt seg.toNat 503 = true →
    bitAt seg.toNat 502 = false → bits seg.toNat 479 464 = 0 →
    s.dev.eop.reassembly.find? (fun r => r.carrier == c.val && r.leaf == leaf && r.msgId == bits seg.toNat 495 480) = none →
    ∃ t, exec (.eopSegment c leaf seg) s = .next t ∧ ⟨c, leaf, bits seg.toNat 495 480, 1, beBytes 58 (seg.toNat % 2 ^ 464)⟩ ∈ t.dev.eop.reassembly ∧
      s.leaves t numbered []) ∧
  (∀ (s : State) (c : CarrierNo) (leaf : Nat) (msg : BitVec 16) (r : Reassembly), s.dev.dead = false →
    s.dev.eop.reassembly.find? (fun r => r.carrier == c.val && r.leaf == leaf && r.msgId == msg.toNat) = some r → r.nextIndex < 65536 →
    ∃ t, exec (.eopReassemblyTimeout c leaf msg) s = .next t ∧
      (∀ x ∈ t.dev.eop.reassembly, ¬(x.carrier = c.val ∧ x.leaf = leaf ∧ x.msgId = msg.toNat)) ∧
      s.counts t Reg.eopDiscards ∧ s.leaves t (counted Reg.eopDiscards) []) ∧
  (∀ (s : State) (msg : BitVec 16) (f : Forward), s.dev.eop.forwards.find? (fun f => f.msgId == msg.toNat) = some f →
    (∀ (status : BitVec 8) (body : List Byte), ∃ t, exec (.forwardedAnswer msg status body) s = .next t ∧
      t.answers ⟨f.transport, f.addr, f.service, f.session, f.reqId, status.toNat, body.map (·.toNat)⟩ ∧
      (∀ g ∈ t.dev.eop.forwards, g.msgId ≠ msg.toNat) ∧ s.leaves t numbered []) ∧
    (s.dev.dead = false → ∃ t, exec (.forwardTimeout msg) s = .next t ∧
      t.answers ⟨f.transport, f.addr, f.service, f.session, f.reqId, stTimeout, errBytes (err stTimeout)⟩ ∧
      (∀ g ∈ t.dev.eop.forwards, g.msgId ≠ msg.toNat) ∧ s.leaves t numbered []))

/-! ### Device time and the scheduler (chapter 02) -/

/-- The arbiter (R31 to R33): of the waiting events, arrivals before timer expiries, the first sixteen take the next sequence numbers, each one above the
last, and the rest are carried in their order; nothing else changes but device time within the calendar cycle. -/
def Obligations.ArbiterNumbersSixteenInOrder : Prop :=
  (∀ (s : State) (fresh : List ArbEvent), s.dev.phase ≠ .reset →
    ∃ t, exec (.arbiterCycle fresh) s = .next t ∧
      t.dev.sched.lastSeq = s.dev.sched.lastSeq + min 16 (s.dev.sched.carried.length + fresh.length) ∧
      t.dev.get Reg.schedLastSeq = t.dev.sched.lastSeq % 2 ^ 64 ∧
      t.dev.sched.carried = (arbOrder s.dev.sched.carried fresh).drop 16 ∧
      t.dev.sched.granted = s.dev.sched.granted ++ (List.range (min 16 (s.dev.sched.carried.length + fresh.length))).map (s.dev.sched.lastSeq + 1 + ·) ∧
      t.dev.now / fuCycle = s.dev.now / fuCycle ∧ s.leaves t numbered [.now]) ∧
  ∀ (carried fresh : List ArbEvent),
    (∀ e, e ∈ arbOrder carried fresh ↔ e ∈ carried ∨ e ∈ fresh) ∧
    ∃ k, (∀ e ∈ (arbOrder carried fresh).take k, isTimer e = false) ∧ ∀ e ∈ (arbOrder carried fresh).drop k, isTimer e = true

/-- Time steps (R19 to R21) and the calendar boundary (R17): an accepted SCHED_TIME_STEP waits with its whole value; at a calendar boundary with no armed
action it becomes device time, and Unset becomes Host-set; a calendar boundary moves device time to the next multiple of 12.8 µs. -/
def Obligations.DeviceTimeStepsAndAdvances : Prop :=
  (∀ (s : State) (q : Req) (v : Val), s.fresh.writes q 1 Reg.schedTimeStep.ref = true → v.len = 12 → v.raw < 2 ^ 96 → time96Valid v.raw = true →
    s.dev.get Reg.schedTimeState < 2 → s.dev.standby = false → bits v.raw 47 16 % 12800 = 0 → bits v.raw 15 0 = 0 →
    ∃ t, exec (.schedTimeStep q v) s = .next t ∧ t.dev.sched.step = some (time96ToFu v.raw) ∧ t.dev.sched.actions = s.dev.sched.actions ∧
      t.answers (respOf q 2 stSuccess (beBytes 4 0)) ∧ s.leaves t numbered [.schedule]) ∧
  (∀ (s : State) (n : Nat), s.dev.dead = false → s.dev.stepDue = some n → s.dev.now % fuCycle = 0 → (∀ a ∈ s.dev.sched.actions, a.armed = none) →
    ∃ t, exec .timeStepEffect s = .next t ∧ t.dev.now = n ∧ t.dev.sched.step = none ∧
      t.dev.get Reg.schedTimeState =
        (if s.dev.sched.step.isSome = true ∧ s.dev.get Reg.schedTimeState = 0 then 1 else s.dev.get Reg.schedTimeState) ∧
      s.leavesAt t [(0x5800, 0x5FFF), (0x9100, 0x910F)] []
        [.now, .resources, .schedule, .fab, .frm, .rx, .tx, .fec, .hub, .pkt, .itla, .aspi, .twin, .mem, .tim, .sec, .lane, .pwr]) ∧
  (∀ (s : State) (upsets : List Upset) (errors : List MemError) (lanes : List LaneReport) (counts : List (Nat × Nat)), s.dev.phase ≠ .reset →
    ∃ t, exec (.calendarBoundary upsets errors lanes counts) s = .next t ∧ t.dev.now = (s.dev.now / fuCycle + 1) * fuCycle ∧
      t.dev.pwr.cycles = s.dev.pwr.cycles + 1 ∧
      (errors = [] → s.leavesAt t [(0x3000, 0x4FFF), (0x9000, 0x9FFF), (0xA000, 0xAFFF), (0xB000, 0xBFFF), (0xF000, 0xFFFF)]
        (Reg.timeLoopFreq.ref :: Reg.schedDeviceWaits.ref :: numbered ++ noticed Reg.schedList.ref)
        [.now, .pwr, .fab, .frm, .lane, .pkt, .tim, .schedule, .resources]))

/-- Cancelling and arming (R24, R28, R32): a cancel of a pending action takes it out of the schedule; one of an armed action is refused with "action armed", one
of an unknown handle with "invalid value", and changes nothing; arming fixes an action's boundary; the arming of an action that is gone is stale; a place that frees goes to the
device-created action that has waited longest. -/
def Obligations.ActionsAreCancelledAndArmed : Prop :=
  (∀ (s : State) (q : Req) (v : Val), s.fresh.writes q 1 Reg.schedCancel.ref = true → v.len = 4 → v.raw < 2 ^ 32 → s.dev.standby = false →
    (∀ a, s.dev.action? v.raw = some a → a.armed = none →
      ∃ t, exec (.schedCancel q v) s = .next t ∧ t.dev.sched.actions = s.dev.sched.actions.filter (fun x => x.handle != a.handle) ∧
        t.answers (respOf q 2 stSuccess (beBytes 4 0)) ∧ s.leaves t (numbered ++ noticed Reg.schedList.ref) [.schedule, .journal]) ∧
    (∀ a, s.dev.action? v.raw = some a → a.armed ≠ none →
      ∃ t, exec (.schedCancel q v) s = .next t ∧ t.answers (respOf q 2 stArmed (errBytes (errAct stArmed a.handle))) ∧ s.leaves t numbered []) ∧
    (s.dev.action? v.raw = none →
      ∃ t, exec (.schedCancel q v) s = .next t ∧ t.answers (respOf q 2 stInvalidValue (errBytes (err stInvalidValue))) ∧ s.leaves t numbered [])) ∧
  (∀ (s : State) (h : BitVec 32) (tick : Nat), s.dev.dead = false →
    (∀ a, s.dev.action? h.toNat = some a → a.armed = none → a.held = false → a.epoch = 0 → a.kind = .calendar → swaps a = false → a.cls ≠ 2 → a.cls ≠ 9 → a.cls ≠ 10 →
      s.dev.eligible a ≤ s.dev.now + fuArm →
      ∃ t, exec (.actionArming h tick) s = .next t ∧
        t.dev.sched.actions = s.dev.sched.actions.map (fun x =>
          if x.handle = a.handle then { a with armed := some (s.dev.eligible a), armSeq := s.fresh.takeSeq.sched.cur } else x) ∧
        s.leaves t numbered [.schedule]) ∧
    (s.dev.action? h.toNat = none →
      ∃ t, exec (.actionArming h tick) s = .next t ∧ s.counts t Reg.schedStaleCount ∧ s.leaves t (counted Reg.schedStaleCount) [])) ∧
  (∀ (s : State) (a : Action) (r : List Action), s.dev.dead = false → s.dev.sched.waiting = a :: r → (s.dev.deviceUsed < 256 ∨ s.dev.hostUsed < 3840) →
    ∃ t, exec .deviceActionPlaceFreed s = .next t ∧ t.dev.sched.waiting = r ∧
      t.dev.sched.actions = s.dev.sched.actions ++
        [{ a with hostPlace := decide (256 ≤ s.dev.deviceUsed), handle := s.dev.sched.nextHandle, acceptSeq := s.fresh.takeSeq.sched.cur, acceptAt := s.dev.now }] ∧
      s.leaves t numbered [.schedule])

/-- Firing (R23, R29, R418): an action on one RWS object, and a bundle, that may fire give every object the value its effect gives it, and the outcome is told under
SCHED_LIST; poisoned data fails an action of any class and changes no object beside (Table 10.6, row 9); durable pre-images let a bundle's new values go ahead; the commit mark frees the pre-images of the bundle whose values are durable. -/
def Obligations.ActionsFireAndBundlesCommit : Prop :=
  (∀ (s : State) (h : BitVec 32) (a : Action) (row : ObjRow) (x : Device), s.dev.dead = false → s.dev.action? h.toNat = some a → a.cls = 8 →
    firesElsewhere a = false → s.dev.mayFire a = true → s.dev.heldBack 8 = false → a.prepFail = none → rowOf a.target = some row →
    rwsEffect row a.target a.value (Device.dropAction { s.fresh with sched := { s.dev.sched with cur := a.armSeq } } h.toNat) = .ok x →
    (∃ t, exec (.singleRwsWriteFire h false) s = .next t ∧
      ∀ o : Obj, o.ref ≠ Reg.schedLateCount.ref → (noticed Reg.schedList.ref).contains o.ref = false → followsByItself o.ref = false → t.dev.get o = x.get o) ∧
    ∃ t, exec (.singleRwsWriteFire h true) s = .next t ∧ s.counts t Reg.schedFailedCount ∧ s.counts t (Reg.memPoisonConsumed 8) ∧
      t.dev.sched.actions = s.dev.sched.actions.filter (fun y => y.handle != a.handle) ∧
      s.leaves t ([Reg.schedFailedCount.ref, (Reg.memPoisonConsumed 8).ref, (blkFaults 0x7FF0).ref] ++ eventCounters 0x7FF0 ++ noticed Reg.schedList.ref)
        [.schedule]) ∧
  (∀ (s : State) (h : BitVec 32) (a : Action) (x : Device), s.dev.dead = false → s.dev.action? h.toNat = some a → a.cls = 9 → swapMember a = none →
    s.dev.mayFire a = true → s.dev.heldBack 9 = false → a.prepFail = none →
    bundleEffect none a (Device.dropAction { s.fresh with sched := { s.dev.sched with cur := a.armSeq } } h.toNat) = .ok x →
    ∃ t, exec (.timedBundleFire h none) s = .next t ∧
      ∀ o : Obj, o.ref ≠ Reg.schedLateCount.ref → (noticed Reg.schedList.ref).contains o.ref = false → followsByItself o.ref = false → t.dev.get o = x.get o) ∧
  (∀ (s : State) (h : BitVec 32) (a : Action) (k : Fin 8) (m : Fin 3) (phase : Int) (i : Nat × Nat × Option Nat × Instr), s.dev.dead = false → h ≠ 0 → a.origin = .host →
    i ∈ ([(2, a.target, none, .loadingTableSwitch h true), (10, a.target, none, .hubGrantTableSwitch h true), (6, a.target, none, .firmwareImageSwitch h true),
      (7, a.target, none, .powerStateEntry h true), (7, a.target, none, .powerStateWake h true), (5, a.target, none, .counterGroupDump h [] true),
      (8, Reg.timeLoopMode.ref, some 1, .softwareLoopEntry h true), (8, Reg.timeLoopMode.ref, some 0, .softwareLoopExit h phase true),
      (8, Reg.secCgApply.ref, none, .cryptTableApply h true), (3, Reg.secRoll.ref, none, .keyRoll h true), (3, Reg.secErase.ref, none, .keyErase h true),
      (8, Reg.laneFlexeApply.ref, none, .flexeCalendarStart h true), (8, (Reg.monSeqRun k).ref, some 1, .seqPassStart k h true),
      (8, (Reg.telSweepStart m).ref, some 1, .sweepStart m h true)] : List (Nat × Nat × Option Nat × Instr)) →
    s.dev.fires h.toNat a i.1 → a.target = i.2.1 → (∀ v, i.2.2.1 = some v → a.value = v) →
    ∃ t, exec i.2.2.2 s = .next t ∧ s.counts t Reg.schedFailedCount ∧ s.counts t (Reg.memPoisonConsumed 8) ∧
      t.dev.sched.actions = s.dev.sched.actions.filter (fun y => y.handle != a.handle) ∧
      s.leaves t ([Reg.schedFailedCount.ref, (Reg.memPoisonConsumed 8).ref, (blkFaults 0x7FF0).ref] ++ eventCounters 0x7FF0 ++ noticed Reg.schedList.ref ++ numbered)
        [.schedule]) ∧
  (∀ (s : State) (n : Nat), s.dev.phase ≠ .reset →
    (∃ t, exec (.preimageDurable n) s = .next t ∧
      t.dev.sched.bundles = s.dev.sched.bundles.map (fun b => if b.bundle = n then { b with preDurable := true } else b) ∧ s.leaves t [] [.schedule]) ∧
    ∃ t, exec (.bundleCommitMark n) s = .next t ∧
      t.dev.sched.bundles = s.dev.sched.bundles.filter (fun b => !(b.bundle == n && b.preDurable && !b.values.isEmpty && s.dev.valuesDurable b.values)) ∧
      s.leaves t [] [.schedule])

/-! ### Line transmit and optics (chapter 03) -/

/-- Transmit enable (R62): 1 starts a carrier that is Off (Starting, or Squelched where a squelch cause is present) and leaves any other state; 0 turns it Off; Starting
becomes Active when lasers and loops are ready with no cause present; LINE_TX_START_LIMIT running out in Starting raises an event and leaves the state.
Squelch causes (Table 3.5, R63, R64): LINE_TX_SQUELCH is cause [0], TXOFF_N cause [1] on both carriers, the DAC clock's lock cause [3]; a cause that appears
squelches Starting and Active; with the last one the squelch ends. -/
def Obligations.TransmitterFollowsItsCauses : Prop :=
  (∀ (s : State) (q : Req) (c : CarrierNo),
    (s.fresh.writes q 1 (Reg.lineTxEnable c).ref = true →
      (∃ t, exec (.lineTxEnableOn q c) s = .next t ∧ t.dev.get (Reg.lineTxEnable c) = 1 ∧ t.dev.get (Reg.lineTxCauses c) = s.dev.get (Reg.lineTxCauses c) ∧
        t.dev.get (Reg.lineTxState c) =
          (if s.dev.get (Reg.lineTxState c) = 0 then (if s.dev.get (Reg.lineTxCauses c) = 0 then 1 else 2) else s.dev.get (Reg.lineTxState c)) ∧
        s.leavesAt t lineAndFabric (written (Reg.lineTxEnable c).ref) [.store, .journal, .tx, .itla, .aspi, .rx, .frm, .fab]) ∧
      ∃ t, exec (.lineTxEnableOff q c) s = .next t ∧ t.dev.get (Reg.lineTxEnable c) = 0 ∧ t.dev.get (Reg.lineTxState c) = 0 ∧
        s.leavesAt t lineAndFabric (written (Reg.lineTxEnable c).ref) [.store, .journal, .tx, .itla, .rx, .frm, .fab]) ∧
    (s.dev.dead = false → s.dev.get (Reg.lineTxState c) = 1 → s.dev.get (Reg.lineTxCauses c) = 0 → s.dev.txConditions c = true →
      ∃ t, exec (.txActiveEntry c) s = .next t ∧ t.dev.get (Reg.lineTxState c) = 3 ∧ s.raises t (Reg.lineTxState c) ∧
        s.leaves t ((Reg.lineTxState c).ref :: numbered ++ noticed (Reg.lineTxState c).ref) []) ∧
    (s.dev.dead = false → s.dev.get (Reg.lineTxState c) = 1 →
      ∃ t, exec (.txStartTimeout c) s = .next t ∧ s.raises t (Reg.lineTxStartLimit c) ∧
        s.leaves t (numbered ++ noticed (Reg.lineTxStartLimit c).ref) []) ∧
    (s.dev.dead = false → s.dev.get (Reg.lineTxState c) ≠ 1 →
      ∃ t, exec (.txStartTimeout c) s = .next t ∧ s.counts t Reg.schedStaleCount ∧ s.leaves t (counted Reg.schedStaleCount) [])) ∧
  ∀ (s : State) (q : Req) (c : CarrierNo),
    (s.fresh.writes q 1 (Reg.lineTxSquelch c).ref = true →
      (∃ t, exec (.lineTxSquelchSet q c) s = .next t ∧ t.dev.get (Reg.lineTxSquelch c) = 1 ∧ bitAt (t.dev.get (Reg.lineTxCauses c)) 0 = true ∧
        t.dev.get (Reg.lineTxState c) = squelched (s.dev.get (Reg.lineTxState c)) ∧
        s.leavesAt t lineAndFabric (written (Reg.lineTxSquelch c).ref) [.store, .journal, .tx, .itla, .aspi, .rx, .frm, .fab]) ∧
      ∃ t, exec (.lineTxSquelchClear q c) s = .next t ∧ t.dev.get (Reg.lineTxSquelch c) = 0 ∧ bitAt (t.dev.get (Reg.lineTxCauses c)) 0 = false ∧
        t.dev.get (Reg.lineTxState c) = s.dev.unsquelched c 0 ∧
        s.leavesAt t lineAndFabric (written (Reg.lineTxSquelch c).ref) [.store, .journal, .tx, .itla, .aspi, .rx, .frm, .fab]) ∧
    (s.dev.dead = false →
      (∃ t, exec .txoffNLow s = .next t ∧
        (∀ k : CarrierNo, bitAt (t.dev.get (Reg.lineTxCauses k)) 1 = true ∧ t.dev.get (Reg.lineTxState k) = squelched (s.dev.get (Reg.lineTxState k))) ∧
        s.leavesAt t lineAndFabric numbered [.tx, .itla, .aspi, .rx, .frm, .fab]) ∧
      (∃ t, exec (.dacSynthLockLoss c) s = .next t ∧ bitAt (t.dev.get (Reg.lineTxCauses c)) 3 = true ∧
        t.dev.get (Reg.lineTxState c) = squelched (s.dev.get (Reg.lineTxState c)) ∧ s.leavesAt t lineAndFabric numbered [.tx, .itla, .aspi, .rx, .frm, .fab]) ∧
      (∃ t, exec (.dacSynthesiserRelock c) s = .next t ∧ bitAt (t.dev.get (Reg.lineTxCauses c)) 3 = false ∧
        t.dev.get (Reg.lineTxState c) = s.dev.unsquelched c 3 ∧ s.leavesAt t lineAndFabric numbered [.tx, .itla, .aspi, .rx, .frm, .fab]) ∧
      (bitAt (s.dev.get (Reg.lineTxCauses c)) 1 = true →
        ∃ t, exec .txoffNClear s = .next t ∧
          (∀ k : CarrierNo, bitAt (t.dev.get (Reg.lineTxCauses k)) 1 = false ∧ t.dev.get (Reg.lineTxState k) = s.dev.unsquelched k 1) ∧
          s.leavesAt t lineAndFabric numbered [.tx, .itla, .aspi, .rx, .frm, .fab]))

/-- The ASPI master (R54 to R56): a host list whose transfer ends right runs in order, its first record at once on an idle master and else behind a safe-state or resume list;
one while a host list has not finished is refused "in use" and counted, a malformed one "invalid value" and counted; after each transfer, whose word read is cut to the chip
select's length, the next record goes out, a waiting safe-state or resume list before the rest of a host list; a host list that is done shows its records. -/
def Obligations.AspiListsRunInOrder : Prop :=
  (∀ (s : State) (q : Req) (crc : BitVec 32) (x : Transfer) (r : Nat) (rest : List Nat), s.endsBlock q 1 Reg.lineAspiXfer.ref crc x →
    (aspiListOk 256 x.data = true → recordsOf 8 x.data = r :: rest → s.dev.aspi.hostBusy = false →
      ∃ t, exec (.lineAspiXfer q crc) s = .next t ∧
        (s.dev.aspi.running = none → t.dev.aspi.running = some ⟨0, 2, r :: rest, []⟩ ∧ t.dev.aspi.waiting = s.dev.aspi.waiting ∧ s.dev.aspiOut r ∈ t.dev.out) ∧
        (s.dev.aspi.running ≠ none → t.dev.aspi.running = s.dev.aspi.running ∧ t.dev.aspi.waiting = s.dev.aspi.waiting ++ [⟨0, 2, r :: rest, []⟩]) ∧
        (s.dev.journals = false → t.answers (respOf q 5 stSuccess [])) ∧ s.leaves t numbered [.stored, .aspi, .journal]) ∧
    (aspiListOk 256 x.data = true → s.dev.aspi.hostBusy = true →
      ∃ t, exec (.lineAspiXfer q crc) s = .next t ∧ s.counts t Reg.lineAspiErrors ∧
        t.answers (respOf q 5 stInUse (errBytes (errObj stInUse Reg.lineAspiXfer.ref))) ∧ s.leaves t (counted Reg.lineAspiErrors) []) ∧
    (aspiListOk 256 x.data = false →
      ∃ t, exec (.lineAspiXfer q crc) s = .next t ∧ s.counts t Reg.lineAspiErrors ∧
        t.answers (respOf q 5 stInvalidValue (errBytes (err stInvalidValue))) ∧ s.leaves t (counted Reg.lineAspiErrors) [])) ∧
  ∀ (s : State) (word : BitVec 32) (r : AspiRun) (x : Nat) (rest : List Nat), s.dev.aspi.running = some r → r.todo = x :: rest →
    let done := { r with todo := rest, finished := r.finished ++ [if bitAt x 48 then x / 2 ^ 32 * 2 ^ 32 + word.toNat % 2 ^ s.dev.aspi.len else x] }
    (∀ y z, rest = y :: z → (r.kind ≠ 0 ∨ ∀ w ∈ s.dev.aspi.waiting, w.kind = 0) →
      ∃ t, exec (.aspiTransferDone word) s = .next t ∧ s.dev.aspiOut y ∈ t.dev.out ∧ t.dev.aspi.running = some done ∧
        t.dev.aspi.waiting = s.dev.aspi.waiting ∧ s.leaves t [] [.aspi]) ∧
    (∀ w ws, rest ≠ [] → r.kind = 0 → s.dev.aspi.waiting = w :: ws → w.kind ≠ 0 → w.todo ≠ [] →
      ∃ t, exec (.aspiTransferDone word) s = .next t ∧ t.dev.aspi.running = some w ∧ t.dev.aspi.waiting = ws ++ [done] ∧ s.leaves t [] [.aspi]) ∧
    (rest = [] → s.dev.aspi.waiting = [] →
      (r.kind = 0 →
        ∃ t, exec (.aspiTransferDone word) s = .next t ∧ t.dev.aspi.running = none ∧ t.dev.aspi.waiting = [] ∧ s.raises t Reg.lineAspiXfer ∧
          t.dev.dom Reg.lineAspiXfer.ref = done.finished.flatMap (beBytes 8) ∧ s.leaves t (noticed Reg.lineAspiXfer.ref) [.stored, .aspi]) ∧
      (r.kind ≠ 0 →
        ∃ t, exec (.aspiTransferDone word) s = .next t ∧ t.dev.aspi.running = none ∧ t.dev.aspi.waiting = [] ∧
          s.leavesAt t lineAndFabric numbered [.itla, .aspi, .rx, .frm, .fab]))

/-- Laser ports (R49 to R51, R66): a use written is the use, and a laser that is to work is enabled, any other disabled; a raw command and every poll join the port's one queue;
a valid response ends its transaction and the next one goes out; a timeout or a response that is not valid is counted and tried again twice, then the port is Faulted, an
event; a pending operation beyond its limit faults it too. -/
def Obligations.LaserPortsQueueAndFault : Prop :=
  ∀ (s : State) (q : Req) (n : Fin 4) (v : Val), s.dev.get (Reg.lineItlaCarrier n) < 2 →
    (s.fresh.writes q 1 (Reg.lineItlaUse n).ref = true → v.len = 1 → v.raw ≤ 3 →
      ∃ t, exec (.lineItlaUse q n v) s = .next t ∧ t.dev.get (Reg.lineItlaUse n) = v.raw ∧
        (v.raw = 0 → t.dev.get (Reg.lineItlaState n) = 0) ∧
        (v.raw = 1 ∨ v.raw = 3 → s.dev.get (Reg.lineTxState (s.dev.get (Reg.lineItlaCarrier n))) = 0 →
          t.dev.get (Reg.lineItlaState n) = if (s.dev.port n).disHigh then 4 else 0) ∧
        (v.raw = 2 → t.dev.get (Reg.lineItlaState n) =
          if s.dev.get (Reg.lineTxState (s.dev.get (Reg.lineItlaCarrier n))) ≠ 0 ∨ s.dev.get (Reg.lineRxEnable (s.dev.get (Reg.lineItlaCarrier n))) = 1 then 1
          else if (s.dev.port n).disHigh then 4 else 0) ∧
        s.leavesAt t lineAndFabric (written (Reg.lineItlaUse n).ref) [.store, .journal, .tx, .itla, .aspi, .rx, .frm, .fab]) ∧
    (s.fresh.writes q 1 (Reg.lineItlaRaw n).ref = true → v.len = 4 → v.raw < 2 ^ 32 →
      ∃ t, exec (.lineItlaRaw q n v) s = .next t ∧ joinsPort s.dev t.dev n (.raw v.raw) ∧ s.leaves t numbered [.itla]) ∧
    (∀ (a : ItlaAnswer) (w : Nat) (c : ItlaCmd) (rest : List ItlaCmd), a.valid = true → (s.dev.port n).out = some (.raw w) → (s.dev.port n).queue = c :: rest →
      ∃ t, exec (.itlaResponse n a) s = .next t ∧ t.dev.get (Reg.lineItlaRaw n) = a.value.toNat ∧ .itla n c ∈ t.dev.out ∧
        s.leavesAt t lineAndFabric numbered [.tx, .itla, .aspi, .rx, .frm, .fab]) ∧
    (∀ (a : ItlaAnswer) (c : ItlaCmd), a.valid = false → (s.dev.port n).out = some c → (s.dev.port n).retries < 2 →
      ∃ t, exec (.itlaResponse n a) s = .next t ∧ .itla n c ∈ t.dev.out ∧
        t.dev.port n = { s.dev.port n with retries := (s.dev.port n).retries + 1 } ∧ s.leaves t (counted (Reg.lineItlaErrors n)) [.itla]) ∧
    (∀ c, s.dev.dead = false → (s.dev.port n).out = some c → (s.dev.port n).retries < 2 →
      ∃ t, exec (.itlaResponseTimeout n) s = .next t ∧ .itla n c ∈ t.dev.out ∧
        (s.dev.get (Reg.lineItlaErrors n) + 2 < 2 ^ (Reg.lineItlaErrors n).width → t.dev.get (Reg.lineItlaErrors n) = s.dev.get (Reg.lineItlaErrors n) + 2) ∧
        t.dev.port n = { s.dev.port n with retries := (s.dev.port n).retries + 1 } ∧ s.leaves t (counted (Reg.lineItlaErrors n)) [.itla]) ∧
    (∀ c, s.dev.dead = false → (s.dev.port n).out = some c → 2 ≤ (s.dev.port n).retries →
      ∃ t, exec (.itlaResponseTimeout n) s = .next t ∧ s.counts t (Reg.lineItlaErrors n) ∧ t.dev.get (Reg.lineItlaState n) = 3 ∧
        s.leavesAt t lineAndFabric numbered [.tx, .itla, .aspi, .rx, .frm, .fab]) ∧
    (s.dev.dead = false → (s.dev.port n).pendingOp = true →
      (∃ t, exec (.itlaPendingPoll n) s = .next t ∧ joinsPort s.dev t.dev n .pollPending ∧ s.leaves t numbered [.itla]) ∧
      ∃ t, exec (.itlaTuneLimitExpiry n) s = .next t ∧ t.dev.get (Reg.lineItlaState n) = 3 ∧
        s.leavesAt t lineAndFabric numbered [.tx, .itla, .aspi, .rx, .frm, .fab]) ∧
    (s.dev.dead = false → s.dev.get (Reg.lineItlaUse n) ≠ 0 → s.dev.get (Reg.lineItlaState n) ≠ 3 →
      (∃ t, exec (.itlaStatusPoll n) s = .next t ∧ joinsPort s.dev t.dev n .pollStatus ∧ s.leaves t numbered [.itla]) ∧
      ∃ t, exec (.itlaSrq n) s = .next t ∧ joinsPort s.dev t.dev n .pollStatus ∧ s.leaves t numbered [.itla])

/-- Bias loops (R57 to R60): closing one takes its monitor channel and acquires, or is At limit, or is refused "in use" naming the channel's owner, or "invalid
combination" without a channel; opening or holding releases it; a dither period adds a difference, or is repeated and counted; a visit's end computes error, code and
status, and an output that is not visited next holds the new code. -/
def Obligations.BiasLoopsFollowTheirVisits : Prop :=
  (∀ (s : State) (q : Req) (n : Fin 12) (v : Val), s.fresh.writes q 1 (Reg.lineBiasMode n).ref = true → v.len = 1 →
    let ch := s.dev.get (Reg.lineBiasMon n)
    let frame := [(Reg.lineBiasMode n).ref, (Reg.lineBiasStatus n).ref] ++ written (Reg.lineBiasMode n).ref ++ noticed (Reg.lineBiasStatus n).ref ++
      (List.range 32).map (fun k => (Reg.monChOwner k).ref)
    (v.raw = 1 → ch < 32 → (s.dev.get (Reg.monChOwner ch) = 0 ∨ s.dev.get (Reg.monChOwner ch) = ownerLoop n) →
      ∃ t, exec (.lineBiasMode q n v) s = .next t ∧ t.dev.get (Reg.lineBiasMode n) = 1 ∧
        t.dev.get (Reg.lineBiasStatus n) = (if s.dev.atLimit n then 3 else 1) ∧ t.dev.get (Reg.monChOwner ch) = ownerLoop n ∧
        s.leaves t frame [.store, .journal]) ∧
    (v.raw = 1 → ch < 32 → s.dev.get (Reg.monChOwner ch) ≠ 0 → s.dev.get (Reg.monChOwner ch) ≠ ownerLoop n →
      ∃ t, exec (.lineBiasMode q n v) s = .next t ∧
        t.answers (respOf q 2 stInUse (errBytes (errObj stInUse (ownerRef (s.dev.get (Reg.monChOwner ch)))))) ∧ s.leaves t numbered []) ∧
    (v.raw = 1 → ch = 255 →
      ∃ t, exec (.lineBiasMode q n v) s = .next t ∧ t.answers (respOf q 2 stInvalidCombination (errBytes (err stInvalidCombination))) ∧ s.leaves t numbered []) ∧
    (v.raw = 0 ∨ v.raw = 2 →
      ∃ t, exec (.lineBiasMode q n v) s = .next t ∧ t.dev.get (Reg.lineBiasMode n) = v.raw ∧ t.dev.get (Reg.lineBiasStatus n) = 0 ∧
        (∀ k : Fin 32, t.dev.get (Reg.monChOwner k) = if s.dev.get (Reg.monChOwner k) = ownerLoop n then 0 else s.dev.get (Reg.monChOwner k)) ∧
        s.leaves t frame [.store, .journal])) ∧
  (∀ (s : State) (n : Nat), s.dev.bias.visited = some n → (s.dev.mon.work = .visit ∨ s.dev.mon.held = .visit) →
    (64 ≤ s.dev.bias.conv.length →
      ∃ e, exec .biasDitherPeriodEnd s = .next (s.after e) ∧ e.bias.conv = [] ∧
        e.bias.ds = s.dev.bias.ds ++
          [((s.dev.bias.conv.take 32).drop 4).foldl (· + ·) 0 - ((s.dev.bias.conv.drop 32).drop 4).foldl (· + ·) 0] ∧ s.leaves (s.after e) [] []) ∧
    (s.dev.bias.conv.length < 64 →
      ∃ t, exec .biasDitherPeriodEnd s = .next t ∧ s.counts t Reg.lineBiasRepeats ∧ s.leaves t [Reg.lineBiasRepeats.ref] [])) ∧
  ∀ (s : State) (n : Fin 12), s.dev.bias.visited = some n.val → 0 < s.dev.get Reg.lineBiasPeriods → s.dev.get Reg.lineBiasPeriods ≤ s.dev.bias.ds.length →
    let p := s.dev.get Reg.lineBiasPeriods
    let off : Int := (s.dev.bias.ds.take p).foldl (· + ·) 0 - s.dev.getI (Reg.lineBiasSetpoint n) * (28 * p)
    let slope : Int := if s.dev.get (Reg.lineBiasSlope n) = 0 then 1 else -1
    let step := clampInt (-1024) 1024 (roundInt (slope * off * s.dev.get (Reg.lineBiasGain n)) (1024 * (28 * p)))
    let code := (clampInt (s.dev.get (Reg.lineBiasMin n)) (s.dev.get (Reg.lineBiasMax n)) ((s.dev.get (Reg.lineBiasCode n) : Int) - step)).toNat
    let run := if (roundInt off (28 * p)).natAbs ≤ s.dev.get (Reg.lineBiasLockwin n) then tblGetD s.dev.bias.within n 0 + 1 else 0
    ∃ t, exec .biasVisitEnd s = .next t ∧ t.dev.get (Reg.lineBiasError n) = ofSigned (Reg.lineBiasError n).width (roundInt off (28 * p)) ∧
      t.dev.get (Reg.lineBiasCode n) = code % 2 ^ (Reg.lineBiasCode n).width ∧
      (s.dev.on Reg.idDictReady = true → s.dev.get (Reg.lineTxState (n / 6)) ≠ 0 → s.dev.loopAfter n ≠ some n.val →
        s.dev.biasOut n ≠ code % 2 ^ (Reg.lineBiasCode n).width → .bias n (code % 2 ^ (Reg.lineBiasCode n).width) ∈ t.dev.out) ∧
      t.dev.get (Reg.lineBiasStatus n) = biasStatus code (s.dev.get (Reg.lineBiasMin n)) (s.dev.get (Reg.lineBiasMax n)) (s.dev.get (Reg.lineBiasLockwin n))
        (roundInt off (28 * p)) run (s.dev.get (Reg.lineBiasStatus n)) ∧
      s.leaves t ([(Reg.lineBiasError n).ref, (Reg.lineBiasCode n).ref, (Reg.lineBiasStatus n).ref, Reg.lineBiasRound.ref] ++ numbered ++
        noticed (Reg.lineBiasStatus n).ref) []

/-! ### Line receive and loading (chapter 04) -/

/-- Receive enable (R77, R117): 1 starts an acquisition of a chain that is Off and leaves any other state, Lost at once while a local oscillator is not ready; 0 turns it
Off with no cause shown; a pool load beyond the limit is refused "invalid combination".
Receive causes (Table 4.4, R77, R78): causes [0], [2] and [4] make the chain Lost, each entry counted; [1] is only shown; [3], [5] and [6] restart the search each time they
occur; when the last Lost cause clears, the chain searches. Clock recovery that leaves Locked before Tracking is shown and is no cause (R83). -/
def Obligations.ReceiverFollowsItsCauses : Prop :=
  (∀ (s : State) (q : Req) (c : CarrierNo), s.fresh.writes q 1 (Reg.lineRxEnable c).ref = true →
    (rxEnableCheck c 1 s.dev = none → (∀ r ∈ s.dev.enginesNeeded, s.dev.asleep r = false) → s.dev.get (Reg.lineRxCauses c) = 0 →
      ∃ t, exec (.lineRxEnableOn q c) s = .next t ∧ t.dev.get (Reg.lineRxEnable c) = 1 ∧
        t.dev.get (Reg.lineRxState c) =
          (if s.dev.loStays c then (if s.dev.get (Reg.lineRxState c) = 0 then 1 else s.dev.get (Reg.lineRxState c)) else 4) ∧
        s.leavesAt t lineAndFabric (written (Reg.lineRxEnable c).ref) [.store, .journal, .itla, .rx, .frm, .fab]) ∧
    (∀ e, rxEnableCheck c 1 s.dev = some e →
      ∃ t, exec (.lineRxEnableOn q c) s = .next t ∧ t.answers (respOf q 2 stInvalidCombination (errBytes (err stInvalidCombination))) ∧
        s.leaves t numbered []) ∧
    ∃ t, exec (.lineRxEnableOff q c) s = .next t ∧ t.dev.get (Reg.lineRxEnable c) = 0 ∧ t.dev.get (Reg.lineRxState c) = 0 ∧
      (s.dev.get (Reg.lineRxState c) ≠ 0 → t.dev.get (Reg.lineRxCauses c) = 0) ∧
      s.leavesAt t lineAndFabric (written (Reg.lineRxEnable c).ref) [.store, .journal, .itla, .rx, .frm, .fab]) ∧
  ∀ (s : State) (c : CarrierNo) (k : Fin 7),
    (s.dev.get (Reg.lineRxState c) ≠ 0 → s.dev.causeMaySet c k = true →
      bitAt (s.dev.get (Reg.lineRxCauses c)) k = false ∨ k.val = 3 ∨ k.val = 5 ∨ k.val = 6 →
      ∃ t, exec (.rxCauseSet c k) s = .next t ∧ bitAt (t.dev.get (Reg.lineRxCauses c)) k = true ∧
        t.dev.get (Reg.lineRxState c) = (if k.val = 0 ∨ k.val = 2 ∨ k.val = 4 then 4 else if k.val = 1 ∨ s.dev.get (Reg.lineRxState c) = 4 then
          s.dev.get (Reg.lineRxState c) else 1) ∧
        (k.val = 0 ∨ k.val = 2 ∨ k.val = 4 → s.dev.get (Reg.lineRxState c) ≠ 4 → s.counts t (Reg.lineRxLossCount c)) ∧
        s.leavesAt t lineAndFabric numbered [.rx, .frm, .fab]) ∧
    (bitAt (s.dev.get (Reg.lineRxCauses c)) k = true → k.val = 0 ∨ k.val = 1 ∨ (k.val = 2 ∧ s.dev.loReady c = true) ∨
        (k.val = 4 ∧ s.dev.get (Reg.lineRxState c) ≠ 2) →
      ∃ t, exec (.rxCauseClear c k) s = .next t ∧ bitAt (t.dev.get (Reg.lineRxCauses c)) k = false ∧
        t.dev.get (Reg.lineRxState c) =
          (if s.dev.get (Reg.lineRxState c) = 4 ∧ lostCauses (withBit (s.dev.get (Reg.lineRxCauses c)) k false) = 0 then 1 else s.dev.get (Reg.lineRxState c)) ∧
        s.leavesAt t lineAndFabric numbered [.rx, .frm, .fab]) ∧
    (s.dev.get (Reg.lineRxState c) = 2 → 5 ≤ (s.dev.rx.at c).stage →
      (s.dev.get (Reg.lineRxClockState c) = 1 →
        ∃ t, exec (.rxCauseSet c 4) s = .next t ∧ t.dev.get (Reg.lineRxClockState c) = 0 ∧ s.leaves t ((Reg.lineRxClockState c).ref :: numbered) []) ∧
      (s.dev.get (Reg.lineRxClockState c) = 0 →
        ∃ t, exec (.rxCauseClear c 4) s = .next t ∧ t.dev.get (Reg.lineRxClockState c) = 1 ∧ s.leaves t ((Reg.lineRxClockState c).ref :: numbered) []))

/-- Acquisition (Table 4.5, R74, R80, R81): the stages follow in order, each with its result; stage 1 waits for ADC levels from 6 to 20 dB below full scale and is the
last carrier-wide one of a hub carrier (R160); the dispersion is searched within its limits and then fine within 400 ps/nm; an offset beyond ±4.0 GHz is cause [3] and the search restarts; after stage 6 the chain tracks,
causes [3], [5] and [6] cleared; LINE_RX_ACQ_LIMIT running out is cause [6] and a new search. -/
def Obligations.AcquisitionFollowsItsStages : Prop :=
  ∀ (s : State) (c : CarrierNo) (x : Int) (adc : AdcReport),
    (s.dev.get (Reg.lineRxState c) = 1 ∨ s.dev.get (Reg.lineRxState c) = 2 →
      ((s.dev.rx.at c).stage = 1 → levelsOk adc.rms = false → ∃ t, exec (.rxStageComplete c x adc) s = .next t ∧ s.leaves t [] []) ∧
      ((s.dev.rx.at c).stage = 1 → levelsOk adc.rms = true → s.dev.on (Reg.hubEnable c) = true →
        ∃ t, exec (.rxStageComplete c x adc) s = .next t ∧ (t.dev.rx.at c).stage = 7 ∧ t.dev.get (Reg.lineRxState c) = 3 ∧
          t.dev.get (Reg.lineRxCd c) = ofSigned 32 (s.dev.getI (Reg.hubUsCd c)) % 2 ^ 32 ∧
          (∀ k ∈ [3, 5, 6], bitAt (t.dev.get (Reg.lineRxCauses c)) k = false) ∧ s.leavesAt t lineAndFabric numbered [.rx, .frm, .fab]) ∧
      ((s.dev.rx.at c).stage = 1 → levelsOk adc.rms = true → s.dev.on (Reg.hubEnable c) = false →
        ∃ t, exec (.rxStageComplete c x adc) s = .next t ∧ (t.dev.rx.at c).stage = 2 ∧ t.dev.get (Reg.lineRxAdcState c) = 2 ∧
          t.dev.get (Reg.lineRxCdState c) = 1 ∧ s.leavesAt t lineRange numbered [.rx]) ∧
      ((s.dev.rx.at c).stage = 2 → s.dev.get (Reg.lineRxCdState c) = 1 →
        ∃ t, exec (.rxStageComplete c x adc) s = .next t ∧ (t.dev.rx.at c).stage = 2 ∧ t.dev.get (Reg.lineRxCdState c) = 2 ∧
          t.dev.get (Reg.lineRxCd c) = ofSigned 32 (clampInt (s.dev.getI (Reg.lineRxCdMin c)) (s.dev.getI (Reg.lineRxCdMax c)) x) % 2 ^ 32 ∧
          s.leaves t ([(Reg.lineRxCd c).ref, (Reg.lineRxCdState c).ref] ++ numbered) [.rx]) ∧
      ((s.dev.rx.at c).stage = 2 → s.dev.get (Reg.lineRxCdState c) ≠ 1 →
        let found := (s.dev.rx.at c).cdEstimate / 10
        ∃ t, exec (.rxStageComplete c x adc) s = .next t ∧ (t.dev.rx.at c).stage = 3 ∧ t.dev.get (Reg.lineRxCdState c) = 3 ∧
          t.dev.get (Reg.lineRxCd c) = ofSigned 32 (clampInt (found - 400) (found + 400) x) % 2 ^ 32 ∧ s.leaves t ([(Reg.lineRxCd c).ref, (Reg.lineRxCdState c).ref] ++ numbered) [.rx]) ∧
      ((s.dev.rx.at c).stage = 3 → -4000 ≤ x ∧ x ≤ 4000 →
        ∃ t, exec (.rxStageComplete c x adc) s = .next t ∧ (t.dev.rx.at c).stage = 4 ∧ t.dev.get (Reg.lineRxState c) = 2 ∧
          t.dev.get (Reg.lineRxFreqOffset c) = ofSigned 32 x % 2 ^ 32 ∧
          s.leaves t ([(Reg.lineRxFreqOffset c).ref, (Reg.lineRxState c).ref] ++ numbered ++ noticed (Reg.lineRxState c).ref) [.rx]) ∧
      ((s.dev.rx.at c).stage = 3 → x < -4000 ∨ 4000 < x →
        ∃ t, exec (.rxStageComplete c x adc) s = .next t ∧ (t.dev.rx.at c).stage = 1 ∧ t.dev.get (Reg.lineRxState c) = 1 ∧
          bitAt (t.dev.get (Reg.lineRxCauses c)) 3 = true ∧ s.leavesAt t lineAndFabric numbered [.rx, .frm, .fab]) ∧
      ((s.dev.rx.at c).stage = 4 →
        ∃ t, exec (.rxStageComplete c x adc) s = .next t ∧ (t.dev.rx.at c).stage = 5 ∧ t.dev.get (Reg.lineRxClockState c) = 1 ∧
          s.leavesAt t lineRange numbered [.rx]) ∧
      ((s.dev.rx.at c).stage = 5 → s.dev.allDecision c = true →
        ∃ t, exec (.rxStageComplete c x adc) s = .next t ∧ (t.dev.rx.at c).stage = 6 ∧ s.leavesAt t lineRange numbered [.rx, .frm]) ∧
      ((s.dev.rx.at c).stage = 6 → s.dev.allDecision c = true → s.dev.allResolved c = true →
        ∃ t, exec (.rxStageComplete c x adc) s = .next t ∧ (t.dev.rx.at c).stage = 7 ∧ t.dev.get (Reg.lineRxState c) = 3 ∧
          (∀ k ∈ [3, 5, 6], bitAt (t.dev.get (Reg.lineRxCauses c)) k = false) ∧ s.leavesAt t lineAndFabric numbered [.rx, .frm, .fab])) ∧
    (s.dev.dead = false →
      (s.dev.get (Reg.lineRxState c) = 1 ∨ s.dev.get (Reg.lineRxState c) = 2 →
        ∃ t, exec (.rxAcqTimeout c) s = .next t ∧ bitAt (t.dev.get (Reg.lineRxCauses c)) 6 = true ∧ (t.dev.rx.at c).stage = 1 ∧
          t.dev.get (Reg.lineRxState c) = 1 ∧ s.leavesAt t lineAndFabric numbered [.rx, .frm, .fab]) ∧
      (s.dev.get (Reg.lineRxState c) ≠ 1 → s.dev.get (Reg.lineRxState c) ≠ 2 →
        ∃ t, exec (.rxAcqTimeout c) s = .next t ∧ s.counts t Reg.schedStaleCount ∧ s.leaves t (counted Reg.schedStaleCount) []))

/-- Receive loops (R80, R81, R84, R87, R88, R90): the compensation moves by at most 0.5 ps/nm per update, with the deviation of the last 100 estimates beside it, the frequency
offset by at most 10 MHz and the clock offset with it while locked; an equaliser's window moves its state by Table 4.7; a suspected slip waits, and its resolution keeps the
rotation that leaves the fewest unsatisfied checks and is counted; an SNR window is reported with the candidate code its rule gives. -/
def Obligations.ReceiveLoopsReport : Prop :=
  ∀ (s : State) (c : CarrierNo) (k : ScNo),
    (∀ est freq clock : Int, s.dev.get (Reg.lineRxCdState c) = 3 → s.dev.get (Reg.lineRxState c) ≠ 0 → s.dev.get (Reg.lineRxState c) ≠ 4 →
      let f := s.dev.getI (Reg.lineRxFreqOffset c)
      ∃ t, exec (.cdTrackUpdate c est freq clock) s = .next t ∧
        (t.dev.rx.at c).cdEstimate = clampInt (s.dev.getI (Reg.lineRxCdMin c) * 10) (s.dev.getI (Reg.lineRxCdMax c) * 10)
          ((s.dev.rx.at c).cdEstimate + clampInt (-5) 5 (est - (s.dev.rx.at c).cdEstimate)) ∧
        t.dev.get (Reg.lineRxCd c) = ofSigned 32 (((t.dev.rx.at c).cdEstimate + 5) / 10) % 2 ^ 32 ∧
        (t.dev.rx.at c).estimates = (est :: (s.dev.rx.at c).estimates).take 100 ∧
        t.dev.get (Reg.lineRxCdSd c) = min (deviationOf (t.dev.rx.at c).estimates) 0xFFFF ∧
        t.dev.get (Reg.lineRxFreqOffset c) = (if 4 ≤ (s.dev.rx.at c).stage then
          ofSigned 32 (clampInt (-4000) 4000 (clampInt (f - 10) (f + 10) freq)) % 2 ^ 32 else s.dev.get (Reg.lineRxFreqOffset c)) ∧
        t.dev.get (Reg.lineRxClockOffset c) = (if s.dev.get (Reg.lineRxClockState c) = 1 then ofSigned 32 (clampInt (-200000) 200000 clock) % 2 ^ 32
          else s.dev.get (Reg.lineRxClockOffset c)) ∧
        s.leaves t [(Reg.lineRxCd c).ref, (Reg.lineRxCdSd c).ref, (Reg.lineRxFreqOffset c).ref, (Reg.lineRxClockOffset c).ref] [.rx]) ∧
    (∀ (snr : Int) (ser : Nat) (reinit : Bool), s.dev.get (Reg.lineRxState c) ≠ 0 → s.dev.get (Reg.lineRxLoad c k) ≠ 0 →
      ∃ t, exec (.eqStateWindow c k snr ser reinit) s = .next t ∧
        t.dev.get (Reg.lineRxEqState c k) = eqNext (s.dev.get (Reg.lineRxEqState c k)) snr ser reinit (s.dev.get (Reg.lineEqDfeTaps c))
          (s.dev.get (Reg.lineEqDfeOn c)) (s.dev.get (Reg.lineEqDfeOff c)) ∧
        (t.dev.get (Reg.lineRxEqState c k) ≠ s.dev.get (Reg.lineRxEqState c k) →
          (t.dev.get (Reg.lineRxEqState c k) = 2 ∨ t.dev.get (Reg.lineRxEqState c k) = 3 → bitAt (t.dev.get (Reg.frmScLost c)) k = false) ∧
          (t.dev.get (Reg.lineRxEqState c k) < 2 ∨ 3 < t.dev.get (Reg.lineRxEqState c k) → t.dev.get (Reg.lineRxSnr c k) = 0xFFFF)) ∧
        s.leaves t [(Reg.lineRxEqState c k).ref, (Reg.lineRxSnr c k).ref, (Reg.frmScLost c).ref, (Reg.frmAlignState c (s.dev.groupOfSc c k)).ref] [.frm]) ∧
    (s.dev.get (Reg.lineRxEqState c k) = 2 ∨ s.dev.get (Reg.lineRxEqState c k) = 3 → 6 ≤ (s.dev.rx.at c).stage → (s.dev.rx.at c).suspect.contains k.val = false →
      ∃ t, exec (.phaseSlipSuspect c k) s = .next t ∧ (t.dev.rx.at c).suspect = (s.dev.rx.at c).suspect ++ [k.val] ∧ s.leaves t [] [.rx]) ∧
    (∀ samples : List (Nat × List Sym), (s.dev.quadrantsWaiting c).head? = some k.val →
      let r := s.dev.rx.at c
      let aligned : Device :=
        { s.dev with rx := s.dev.rx.put c { r with offset := tblSet r.offset k (s.dev.staticOffset c k samples) 0 } }
      (∀ turn, aligned.bestTurn c k samples = some turn →
        ∃ t, exec (.quadrantResolved c k samples) s = .next t ∧ tblGetD (t.dev.rx.at c).turns k 0 = turn ∧
          tblGetD (t.dev.rx.at c).offset k 0 = s.dev.staticOffset c k samples ∧
          (t.dev.rx.at c).resolved.contains k.val = true ∧ (t.dev.rx.at c).suspect.contains k.val = false ∧
          (r.suspect.contains k.val = true → s.counts t (Reg.lineRxSlips c k)) ∧ s.leaves t [(Reg.lineRxSlips c k).ref] [.rx, .frm]) ∧
      (aligned.bestTurn c k samples = none → ∃ t, exec (.quadrantResolved c k samples) s = .next t ∧ s.leaves t [] [])) ∧
    (∀ (snr : BitVec 16) (m : RxMeas), s.dev.get (Reg.lineRxEqState c k) = 2 ∨ s.dev.get (Reg.lineRxEqState c k) = 3 →
      ∃ t, exec (.snrWindowEnd c k snr m) s = .next t ∧ t.dev.get (Reg.lineRxSnr c k) = snr.toNat ∧
        t.dev.get (Reg.lineRxDgd c) = m.dgd % 2 ^ (Reg.lineRxDgd c).width ∧ t.dev.get (Reg.lineRxPdl c) = m.pdl % 2 ^ (Reg.lineRxPdl c).width ∧
        t.dev.get (Reg.lineLoadCandidate c k) = t.dev.rule c k 0 ∧
        s.leaves t ([(Reg.lineRxSnr c k).ref, (Reg.lineRxDgd c).ref, (Reg.lineRxPdl c).ref, (Reg.lineLoadCandidate c k).ref, (Reg.lineRxAdcClips c).ref,
          (Reg.lineLoadState (s.dev.loadCarrier c)).ref] ++ (List.range 4).map (fun j => (Reg.lineRxAdcRms c j).ref) ++ numbered) [.rx, .frm])

/-- Messages at the transmitter (R97, R100): a REQ that R97 refuses is answered NAK with its reason; one it accepts becomes an action of class 0x0002 with late policy 0 and
bake time now + LEAD, answered ACK, which stays in the control slots until it is withdrawn; a RESTART makes the transmitter revert to the start table, once. -/
def Obligations.LoadingRequestsAreAnswered : Prop :=
  ∀ (s : State) (c : CarrierNo) (g : ScNo) (msg : BitVec 512), s.dev.takesControl c g msg.toNat = true →
    (∀ r, s.dev.reqRefused (s.dev.loadCarrier c) msg.toNat = some r →
      ∃ t, exec (.loadReq c g msg) s = .next t ∧ .loadNak (s.dev.loadCarrier c) (lmTable msg.toNat) r ∈ t.dev.out ∧ s.leaves t numbered [.frm]) ∧
    (∀ a, a = { newAction (s.dev.lineKind (s.dev.loadCarrier c)) .line 2 0 (fuToTime96 (s.fresh.afterGap.now + lmLead msg.toNat * fuMs)) 0 with
        args := [s.dev.loadCarrier c, lmTable msg.toNat] ++ lmCodes msg.toNat, acceptAt := s.fresh.afterGap.now } →
      s.dev.reqRefused (s.dev.loadCarrier c) msg.toNat = none → s.dev.isLate a = false → bakeFu a ≤ s.fresh.afterGap.now + s.dev.get Reg.schedMaxAhead * fuSec →
      s.dev.deviceUsed < 256 →
      ∃ t f b, exec (.loadReq c g msg) s = .next t ∧ .loadAck (s.dev.loadCarrier c) (lmTable msg.toNat) a.bake f ∈ t.dev.out ∧
        t.dev.sched.actions = s.dev.sched.actions ++ [b] ∧ b = { a with handle := s.dev.sched.nextHandle, acceptSeq := b.acceptSeq, hostPlace := false } ∧
        (∀ m ∈ s.dev.loadCarriers (s.dev.loadCarrier c), ∃ x ∈ (t.dev.frm.at m).slots, x.cls = 0 ∧ x.stays = true ∧ x.groups = s.dev.groups m ∧
          x.word = loadWord 2 (lmTable msg.toNat) 0 (s.dev.on Reg.frmBondMode) 0 a.bake f []) ∧
        s.leaves t numbered [.frm, .rx, .schedule]) ∧
    ((s.dev.switchActions (s.dev.loadCarrier c)) = [] → (s.dev.frm.at (s.dev.loadCarrier c)).txTable = 0 →
      ∃ t, exec (.loadRestart c g msg) s = .next t ∧ s.leaves t numbered [.frm]) ∧
    ((s.dev.switchActions (s.dev.loadCarrier c)) = [] → (s.dev.frm.at (s.dev.loadCarrier c)).txTable ≠ 0 → s.dev.deviceUsed < 256 →
      ∃ t a, exec (.loadRestart c g msg) s = .next t ∧ t.dev.sched.actions = s.dev.sched.actions ++ [a] ∧ a.cls = 2 ∧ a.origin = .device ∧
        a.args = [s.dev.loadCarrier c, 0] ++ s.dev.startCodes (s.dev.loadCarrier c) ∧ s.counts t (Reg.lineLoadRestarts (s.dev.loadCarrier c)) ∧
        s.leaves t (counted (Reg.lineLoadRestarts (s.dev.loadCarrier c))) [.frm, .schedule])

/-- Messages at the receiver (R98, R99): the ACK of the outstanding proposal announces its switch to the reference group, one that comes too late is counted; a NAK, and 2 × LEAD
without an answer, end the proposal and are counted, a NAK that names another table only counted. -/
def Obligations.LoadingProposalsEnd : Prop :=
  ∀ (s : State) (c : CarrierNo) (g : ScNo) (msg : BitVec 512) (t0 : LoadTable), (s.dev.rx.at (s.dev.loadCarrier c)).outstanding = some t0 →
    (s.dev.takesControl c g msg.toNat = true → t0.table = lmTable msg.toNat →
      (∀ h, s.dev.rxReference (s.dev.loadCarrier c) = some h →
        ∃ t, exec (.loadAck c g msg false) s = .next t ∧ t.dev.get (Reg.lineLoadState (s.dev.loadCarrier c)) = 3 ∧
          (t.dev.rx.at (s.dev.loadCarrier c)).acked = some (lmSwitchFrame msg.toNat) ∧
          (t.dev.rxg (s.dev.loadCarrier c) h).announced = some (t0.table, lmSwitchFrame msg.toNat) ∧
          s.leaves t ((Reg.lineLoadState (s.dev.loadCarrier c)).ref :: numbered) [.frm, .rx]) ∧
      (∃ t, exec (.loadAck c g msg true) s = .next t ∧ t.dev.get (Reg.lineLoadState (s.dev.loadCarrier c)) = 3 ∧
        s.counts t (Reg.lineLoadLate (s.dev.loadCarrier c)) ∧
        s.leaves t ((Reg.lineLoadState (s.dev.loadCarrier c)).ref :: counted (Reg.lineLoadLate (s.dev.loadCarrier c))) [.frm, .rx]) ∧
      (s.dev.get (Reg.lineLoadMode (s.dev.loadCarrier c)) ≠ 1 →
        ∃ t, exec (.loadNak c g msg) s = .next t ∧ s.counts t (Reg.lineLoadRejects (s.dev.loadCarrier c)) ∧
          (t.dev.rx.at (s.dev.loadCarrier c)).outstanding = none ∧
          t.dev.get (Reg.lineLoadState (s.dev.loadCarrier c)) = (if s.dev.get (Reg.lineLoadTableId (s.dev.loadCarrier c)) = 0 then 0 else 1) ∧
          s.leaves t ((Reg.lineLoadState (s.dev.loadCarrier c)).ref :: counted (Reg.lineLoadRejects (s.dev.loadCarrier c))) [.frm, .rx])) ∧
    (s.dev.takesControl c g msg.toNat = true → t0.table ≠ lmTable msg.toNat →
      ∃ t, exec (.loadNak c g msg) s = .next t ∧ s.counts t (Reg.lineLoadRejects (s.dev.loadCarrier c)) ∧
        s.leaves t (counted (Reg.lineLoadRejects (s.dev.loadCarrier c))) [.frm]) ∧
    (s.dev.dead = false → s.dev.loadCarrier c = c.val → (s.dev.rx.at c).acked = none → s.dev.get (Reg.lineLoadMode c) ≠ 1 →
      ∃ t, exec (.loadProposalAbandon c) s = .next t ∧ s.counts t (Reg.lineLoadRejects c) ∧ (t.dev.rx.at c).outstanding = none ∧
        t.dev.get (Reg.lineLoadState c) = (if s.dev.get (Reg.lineLoadTableId c) = 0 then 0 else 1) ∧
        s.leaves t ((Reg.lineLoadState c).ref :: counted (Reg.lineLoadRejects c)) [.frm, .rx])

/-- Proposals and switches (R44, R94, R100, R101, R131, R146): the upgrade interval proposes every subcarrier due; a manual write sends the codes written; LOF or LOS for
LINE_LOAD_FALLBACK, while bonded on both carriers, sends RESTART; a table switch gives its codes at once to the reference group, to a carrier that is Off and to groups that send
no frames, and to any other group with its next frame. -/
def Obligations.LoadingTablesChange : Prop :=
  ∀ (s : State) (c : CarrierNo),
    (s.dev.dead = false → s.dev.on (Reg.hubEnable c) = false → s.dev.on Reg.frmBondMode = false → s.dev.get (Reg.lineLoadMode c) = 1 →
      (s.dev.rx.at c).outstanding = none → (s.dev.rx.at c).dueDown = [] → s.dev.extraDue c = [] → (∃ k < 16, s.dev.dueUp c k = true) →
      ∃ t, exec (.loadUpgradeInterval c) s = .next t ∧ t.dev.get (Reg.lineLoadState c) = 2 ∧
        .loadReq c (nextTableNo (s.dev.rx.at c).nextTable) (s.dev.get (Reg.lineLoadLead c)) ((List.range 16).map (fun k =>
          if s.dev.dueUp c k then s.dev.rule c k (s.dev.get (Reg.lineLoadHyst c)) else s.dev.get (Reg.lineRxLoad c k))) ∈ t.dev.out ∧
        s.leaves t ((Reg.lineLoadState c).ref :: numbered) [.frm, .rx]) ∧
    (∀ (q : Req) (v : Val), s.fresh.writes q 1 (Reg.lineLoadPropose c).ref = true → v.len = 16 → v.raw < 2 ^ 128 → s.dev.on (Reg.hubEnable c) = false →
      s.dev.on Reg.frmBondMode = false → s.dev.get (Reg.lineLoadMode c) ≠ 1 → (s.dev.rx.at c).outstanding = none →
      ∃ t, exec (.lineLoadPropose q c v) s = .next t ∧ t.dev.get (Reg.lineLoadState c) = 2 ∧
        .loadReq c (nextTableNo (s.dev.rx.at c).nextTable) (s.dev.get (Reg.lineLoadLead c)) (beBytes 16 v.raw) ∈ t.dev.out ∧
        s.leaves t ((Reg.lineLoadState c).ref :: numbered) [.frm, .rx]) ∧
    (s.dev.dead = false → s.dev.on (Reg.hubEnable c) = false → s.dev.loadCarrier c = c.val → (s.dev.loadCarriers c).all s.dev.lofOrLos = true → s.dev.switchActions c = [] →
      s.dev.deviceUsed < 256 →
      ∃ t, exec (.loadFallbackExpiry c) s = .next t ∧ t.dev.get (Reg.lineLoadState c) = 4 ∧ .loadRestart c ∈ t.dev.out ∧
        (t.dev.rx.at c).startHunt = true ∧ (t.dev.rx.at c).restarting = true ∧
        s.leaves t ([(Reg.lineLoadState c).ref, (Reg.lineLoadRestarts c).ref] ++ numbered) [.frm, .rx, .schedule]) ∧
    (s.dev.dead = false → s.dev.lofOrLos c = false →
      ∃ t, exec (.loadFallbackExpiry c) s = .next t ∧ s.counts t Reg.schedStaleCount ∧ s.leaves t (counted Reg.schedStaleCount) []) ∧
    (∀ (h : BitVec 32) (a : Action) (table : Nat) (codes : List Nat), s.dev.fires h.toNat a 2 → a.target = 0 → a.args = c.val :: table :: codes →
      codes.length = 16 → s.dev.on Reg.frmBondMode = false →
      ∃ t, exec (.loadingTableSwitch h false) s = .next t ∧ (t.dev.frm.at c).txTable = table ∧
        (∀ g ∈ s.dev.groups c,
          (s.dev.txReference c = some g ∨ s.dev.get (Reg.lineTxState c) = 0 ∨ (s.dev.groupScs c g).all (fun k => s.dev.get (Reg.lineTxLoad c k) == 0) = true →
            (∀ k ∈ s.dev.groupScs c g, t.dev.get (Reg.lineTxLoad c k) = codes.getD k 0 % 256) ∧ (t.dev.txg c g).table = table ∧ (t.dev.txg c g).due = none) ∧
          (s.dev.txReference c ≠ some g → s.dev.get (Reg.lineTxState c) ≠ 0 → (s.dev.groupScs c g).all (fun k => s.dev.get (Reg.lineTxLoad c k) == 0) = false →
            (∀ k ∈ s.dev.groupScs c g, t.dev.get (Reg.lineTxLoad c k) = s.dev.get (Reg.lineTxLoad c k)) ∧ (t.dev.txg c g).due = some (table, codes))) ∧
        t.dev.sched.actions = s.dev.sched.actions.filter (fun x => x.handle != h.toNat) ∧ s.leavesAt t lineRange fired [.frm, .rx, .schedule])

/-! ### Decoder pool (chapter 05) -/

/-- Placement (R112, R113): a codeword takes the lowest free slot and FEC_POOL_PEAK follows; with none free the best victim's slot, whose decoding stops as Preempted; with no
victim it is held and counted. Of the codewords of one fabric clock the first in the order of R112 takes it. A held codeword takes the slot that frees.
Stops and delivery (R111, R115, R118, R119): a codeword that converges or reaches FEC_MAX_ITER before its cut-off, or meets its cut-off in a slot or held, leaves the pool and is
counted in its counters while its carrier passes soft decisions; at ready + D its block, its halves decoded by the outer code, goes to the framer of an aligned group with
the halves that failed marked under FEC_FAIL_ACTION 0, a status 3 counted as failed, any other as bits. -/
def Obligations.CodewordsAreDecoded : Prop :=
  ((∀ (s : State) (r : ReadyWord) (w : Codeword) (x : Device), s.dev.passesSoft r.c = true → bitAt (s.dev.groupMask r.c) r.g = true →
    s.fresh.nextWord r = (some w, x) → (∀ y ∈ s.dev.fec.held, y.num ≠ w.num) →
    (∀ k, s.dev.freeSlot = some k →
      ∃ t, exec (.codewordReady [r]) s = .next t ∧ t.dev.fec.slots = tblPut s.dev.fec.slots k { w with placed := s.dev.now } ∧
        t.dev.fec.held = s.dev.fec.held ∧
        (t.dev.fec.slots.length < 256 → t.dev.get Reg.fecPoolPeak = max (s.dev.get Reg.fecPoolPeak) t.dev.fec.slots.length) ∧
        s.leaves t [Reg.fecPoolPeak.ref, Reg.fecPoolHeld.ref] [.fec, .frm, .rx, .hub]) ∧
    (∀ v, s.dev.freeSlot = none → s.dev.bestVictim s.dev.victims = some v → v.2.carrier < 2 → s.dev.passesSoft v.2.carrier = true →
      ∃ t, exec (.codewordReady [r]) s = .next t ∧ tblGet t.dev.fec.slots v.1 = some { w with placed := s.dev.now } ∧
        t.dev.fec.stopped = s.dev.fec.stopped ++ [⟨v.2, 3, s.dev.itersOf v.2⟩] ∧
        s.counts t (Reg.fecCwPreempted v.2.carrier) ∧ s.counts t (Reg.fecCwTotal v.2.carrier) ∧
        s.leaves t [Reg.fecPoolPeak.ref, Reg.fecPoolHeld.ref, (Reg.fecCwTotal v.2.carrier).ref, (Reg.fecCwPreempted v.2.carrier).ref,
          (Reg.fecIterHist v.2.carrier (s.dev.itersOf v.2)).ref] [.fec, .frm, .rx, .hub]) ∧
    (s.dev.freeSlot = none → s.dev.victims = [] →
      ∃ t, exec (.codewordReady [r]) s = .next t ∧ t.dev.fec.held = s.dev.fec.held ++ [w] ∧
        t.dev.fec.slots = s.dev.fec.slots ∧ s.counts t Reg.fecPoolHeld ∧ s.leaves t [Reg.fecPoolHeld.ref] [.fec, .frm, .rx, .hub])) ∧
  (∀ (s : State) (words : List ReadyWord) (w : Codeword) (k : Nat), w ∈ (s.fresh.readyWords words).2 →
    (∀ v ∈ (s.fresh.readyWords words).2, v = w ∨ (wordBefore w v = true ∧ wordBefore v w = false)) → s.dev.freeSlot = some k → 0 < s.dev.get Reg.fecMinIter →
    ∃ t, exec (.codewordReady words) s = .next t ∧ tblGet t.dev.fec.slots k = some { w with placed := s.dev.now }) ∧
  ∀ (s : State) (w : Codeword) (rest : List Codeword) (k : Nat), s.dev.fec.held = w :: rest → s.dev.freeSlot = some k → 0 < s.dev.get Reg.fecMinIter →
    ∃ t, exec .heldCodewordRetry s = .next t ∧ tblGet t.dev.fec.slots k = some { w with placed := s.dev.now } ∧
      (∀ y ∈ t.dev.fec.held, y.num ≠ w.num) ∧ s.leavesAt t lineRange [] [.fec]) ∧
  ∀ (s : State) (w : Codeword), w.carrier < 2 → s.dev.get (Reg.fecMaxIter w.carrier) ≤ 64 →
    let stop := s.dev.stopDue w
    let stopped := fun (t : State) (reason iters : Nat) =>
      t.dev.fec.stopped = s.dev.fec.stopped ++ [⟨w, reason, iters⟩] ∧
      (s.dev.passesSoft w.carrier = true → iters ≤ 64 → s.counts t (Reg.fecCwTotal w.carrier) ∧ s.counts t (stopCounter w.carrier reason) ∧
        s.counts t (Reg.fecIterHist w.carrier iters)) ∧
      s.leaves t (if s.dev.passesSoft w.carrier then [(Reg.fecCwTotal w.carrier).ref, (stopCounter w.carrier reason).ref, (Reg.fecIterHist w.carrier iters).ref] else [])
        [.now, .fec]
    (∀ k : Fin 80, tblGet s.dev.fec.slots k = some w → stop.2.1 ≠ 2 → s.dev.comes stop.1 = true →
      ∃ t, exec (.codewordDecodeStop k) s = .next t ∧ t.dev.now = max s.dev.now stop.1 ∧ tblGet t.dev.fec.slots k = none ∧ stopped t stop.2.1 stop.2.2) ∧
    (∀ k, s.dev.fec.slots.find? (fun e => e.2.num == w.num) = some (k, w) → stop.2.1 = 2 → s.dev.comes stop.1 = true →
      ∃ t, exec (.decodeCutoff w.num) s = .next t ∧ t.dev.now = max s.dev.now (cutoffAt w) ∧ tblGet t.dev.fec.slots k = none ∧ stopped t 2 stop.2.2) ∧
    (s.dev.fec.slots.find? (fun e => e.2.num == w.num) = none → s.dev.fec.held.find? (fun y => y.num == w.num) = some w → s.dev.comes (cutoffAt w) = true →
      ∃ t, exec (.decodeCutoff w.num) s = .next t ∧ t.dev.fec.held = s.dev.fec.held.filter (fun y => y.num != w.num) ∧ stopped t 2 0) ∧
    ∀ (x : Stopped) (g : ScNo), s.dev.fec.stopped.find? (fun y => y.word.num == w.num) = some x → x.word.carrier < 2 → x.word.group = g.val → x.word.burst = none →
      s.dev.comes (deliveryAt x.word) = true →
      let c := x.word.carrier
      let r := decodedOf x
      let mark := s.dev.get (Reg.fecFailAction c) == 0
      ∃ t, exec (.blockDelivery w.num) s = .next t ∧ t.dev.now = max s.dev.now (deliveryAt x.word) ∧
        t.dev.fec.stopped = s.dev.fec.stopped.filter (fun y => y.word.num != w.num) ∧
        (2 ≤ s.dev.get (Reg.frmAlignState c g) → bitAt (s.dev.groupMask c) g = true →
          (t.dev.rxg c g).blocks = (s.dev.rxg c g).blocks ++
            [⟨bitPieces 128 256 (r.half0.word.take halfBits ++ r.half1.word.take halfBits), r.half0.failed, r.half1.failed, r.half0.failed && mark, r.half1.failed && mark⟩]) ∧
        (s.dev.passesSoft c = true →
          if r.half0.failed || r.half1.failed then s.counts t (Reg.fecCwFailed c)
          else s.dev.get (Reg.fecBits c) + innerLength x.word.overhead < 2 ^ (Reg.fecBits c).width →
            t.dev.get (Reg.fecBits c) = s.dev.get (Reg.fecBits c) + innerLength x.word.overhead) ∧
        s.leaves t (if s.dev.passesSoft c then [(Reg.fecCwFailed c).ref, (Reg.fecBits c).ref, (Reg.fecPreErrors c).ref, (Reg.fecOuterCorr c).ref,
          (Reg.fecFramesFailed c).ref] else []) [.now, .fec, .frm]

/-- BER windows (R120, R121, R122, R123): at the first whole multiple of FEC_BER_WINDOW after a window began it ends: FEC_PRE_BER, per carrier and per subcarrier, is the errors
over the bits in units of 10^-10, all ones without bits, FEC_Q_MARGIN follows from it, and the window starts again;
every 1000th millisecond FEC_POOL_MEAN is the slots occupied in units of 0.01 (where its seconds lie is the model's choice, assumption 152). -/
def Obligations.FecWindowsReport : Prop :=
  (∀ (s : State) (c : CarrierNo), s.dev.dead = false →
    let t0 := nextMultiple (s.dev.get (Reg.fecBerWindow c) * fuMs) (s.dev.fec.win.at c).start
    (s.dev.comes t0 = false → ∃ t, exec (.fecBerWindowEnd c) s = .next t ∧ s.leaves t [] []) ∧
    (s.dev.comes t0 = true →
      ∃ t, exec (.fecBerWindowEnd c) s = .next t ∧ t.dev.now = max s.dev.now t0 ∧
      ((s.dev.fec.win.at c).bits = 0 → t.dev.get (Reg.fecPreBer c) = 0xFFFFFFFF ∧ t.dev.get (Reg.fecQMargin c) = 0x7FFF) ∧
      (0 < (s.dev.fec.win.at c).bits → t.dev.get (Reg.fecQMargin c) = ofSigned 16 (qMarginOf (t.dev.get (Reg.fecPreBer c)) (s.dev.overhead c)) % 2 ^ 16) ∧
      (0 < (s.dev.fec.win.at c).bits → roundDiv ((s.dev.fec.win.at c).errors * 10 ^ 10) (s.dev.fec.win.at c).bits < 0xFFFFFFFF →
        t.dev.get (Reg.fecPreBer c) = roundDiv ((s.dev.fec.win.at c).errors * 10 ^ 10) (s.dev.fec.win.at c).bits) ∧
      (∀ k : ScNo, (tblGetD (s.dev.fec.win.at c).scBits k 0 = 0 → t.dev.get (Reg.fecScBer c k) = 0xFFFFFFFF) ∧
        (0 < tblGetD (s.dev.fec.win.at c).scBits k 0 →
          roundDiv (tblGetD (s.dev.fec.win.at c).scErrors k 0 * 10 ^ 10) (tblGetD (s.dev.fec.win.at c).scBits k 0) < 0xFFFFFFFF →
          t.dev.get (Reg.fecScBer c k) = roundDiv (tblGetD (s.dev.fec.win.at c).scErrors k 0 * 10 ^ 10) (tblGetD (s.dev.fec.win.at c).scBits k 0))) ∧
      (0 < (s.dev.fec.win.at c).words → roundDiv (100 * (s.dev.fec.win.at c).iters) (s.dev.fec.win.at c).words < 65536 →
        t.dev.get (Reg.fecMeanIter c) = roundDiv (100 * (s.dev.fec.win.at c).iters) (s.dev.fec.win.at c).words) ∧
      (t.dev.fec.win.at c).bits = 0 ∧ (t.dev.fec.win.at c).errors = 0 ∧ (t.dev.fec.win.at c).start = t.dev.now ∧ s.leavesAt t lineRange [] [.now, .fec, .hub])) ∧
  ∀ s : State, s.dev.dead = false →
    ∃ t, exec .fecMsIntervalEnd s = .next t ∧ (∀ c : CarrierNo, (t.dev.fec.win.at c).msBits = 0 ∧
        ((s.dev.fec.win.at c).msBits = 0 → t.dev.get (Reg.fecPreBer1ms c) = 0xFFFFFFFF)) ∧
      (s.dev.fec.ms + 1 < 1000 → t.dev.fec.ms = s.dev.fec.ms + 1) ∧
      (1000 ≤ s.dev.fec.ms + 1 → t.dev.fec.ms = 0 ∧ t.dev.fec.area = 0 ∧
        t.dev.get Reg.fecPoolMean = roundDiv (100 * (s.dev.fec.area + s.dev.fec.slots.length * (s.dev.now - s.dev.fec.since))) fuSec % 65536) ∧
      s.leavesAt t lineAndFabric numbered [.fec, .frm, .hub, .fab]

/-! ### Line frames (chapter 06) -/

/-- Transmit frames and alignment (R44 to R46, R127 to R131, R137, Table 6.5): at a tick the frame under way leaves as 16 blocks of 256 units, each header with its HCRC, and,
where the DAC outputs carry line frames, as symbols through the stages of the transmit chain; the next frame begins under its group's FRAME_COUNT, which goes on; a start that
R137's test accepts on three codewords leads to Hunt; a delineation that finds none tests the next table; 64 blocks without a header lead back to Delineate.
FRM_BOND_MODE (R22, R126): a write that its checks pass is the mode, and C1's pending line-frame actions move to C0's clock as the carriers are bonded; one they refuse is
answered with their status and changes nothing (where two checks fail the order is the model's choice, assumption 152). -/
def Obligations.FramesStartAndAreFound : Prop :=
  (∀ (s : State) (c : CarrierNo) (g : ScNo),
    (∀ tick poison, s.dev.get (Reg.lineTxState c) ≠ 0 → bitAt (s.dev.groupMask c) g = true → s.dev.now ≤ tick → tick < nextMultiple fuCycle s.dev.now →
      (∃ k ∈ s.dev.groupScs c g, s.dev.get (Reg.lineTxLoad c k) ≠ 0) →
      ∃ t, exec (.txFrameTick c g tick poison) s = .next t ∧ t.dev.now = tick ∧
        (∀ f, (s.dev.txg c g).sending = some f →
          (∃ blocks, .frame c g blocks ∈ t.dev.out ∧ blocks.length = 16 ∧ ∀ b ∈ blocks, b.length = 256 ∧ hcrcOk (b.headD 0) = true) ∧
          (s.dev.dacOut c ≠ 0 → ∃ periods, .symbols c g periods (s.dev.txStages c g) ∈ t.dev.out)) ∧
        ((s.dev.txg c g).due = none → (t.dev.txg c g).frameCount = ((s.dev.txg c g).frameCount + 1) % 2 ^ 48 ∧
          ∃ f, (t.dev.txg c g).sending = some f ∧ f.count = (s.dev.txg c g).frameCount ∧ f.tick = tick ∧
            f.ais = (s.dev.get (Reg.lineTxState c) == 1 || s.dev.get (Reg.lineTxState c) == 2)) ∧
        (∀ table codes, (s.dev.txg c g).due = some (table, codes) → (t.dev.txg c g).due = none ∧ (t.dev.txg c g).table = table ∧
          ∀ k ∈ s.dev.groupScs c g, t.dev.get (Reg.lineTxLoad c k) = codes.getD k 0 % 256) ∧
        s.leavesAt t [(0x2000, 0x2FFF), (0x6000, 0x7FFF), (0x9100, 0x910F)] numbered [.now, .frm, .sec]) ∧
    (s.dev.get (Reg.frmAlignState c g) = 1 →
      (∀ (start : Nat) (samples : List (Nat × List Sym)),
        let d := (s.dev.putRxg c g { s.dev.rxg c g with ratios := [] }).demap c samples
        let rs := (d.rxg c g).ratios.drop start
        let found := Config.startAllowed (d.overhead c) (d.wordCodes c g) ((rs.head?.map (·.2.2)).getD 0) && d.delineated c g 3 rs
        ∃ t, exec (.delineationAccept c g start samples) s = .next t ∧ t.dev.get (Reg.frmAlignState c g) = (if found then 2 else 1) ∧
          (t.dev.rxg c g).ratios = (if found then rs else []) ∧ s.leaves t ((Reg.frmAlignState c g).ref :: numbered) [.frm, .rx]) ∧
      (s.dev.dead = false → ∃ t, exec (.delineationTableTimeout c g) s = .next t ∧
        (t.dev.rxg c g).testTable = ((s.dev.rxg c g).testTable + 1) % s.dev.testCount c ∧ s.leaves t numbered [.frm])) ∧
    (s.dev.dead = false → s.dev.get (Reg.frmAlignState c g) ≠ 1 →
      ∃ t, exec (.delineationTableTimeout c g) s = .next t ∧ s.counts t Reg.schedStaleCount ∧ s.leaves t (counted Reg.schedStaleCount) []) ∧
    (s.dev.get (Reg.frmAlignState c g) = 2 → 64 ≤ (s.dev.rxg c g).hunted →
      ∃ t, exec (.huntBlockLimit c g) s = .next t ∧ t.dev.get (Reg.frmAlignState c g) = 1 ∧ (t.dev.rxg c g).hunted = 0 ∧
        (t.dev.rxg c g).testTable = (if (s.dev.rxg c g).fromSync then 0 else ((s.dev.rxg c g).testTable + 1) % s.dev.testCount c) ∧
        s.leaves t ((Reg.frmAlignState c g).ref :: numbered) [.frm])) ∧
  ∀ (s : State) (q : Req) (v : Val), s.fresh.writes q 1 Reg.frmBondMode.ref = true → v.len = 1 → v.raw ≤ 1 →
    (bondCheck v.raw s.dev = none →
      ∃ t, exec (.frmBondMode q v) s = .next t ∧ t.dev.get Reg.frmBondMode = v.raw ∧
        t.dev.sched.actions = (if v.raw = 1 then s.dev.sched.actions.map (fun a => if a.kind = .lineC1 ∧ a.armed = none then { a with kind := .lineC0 } else a)
          else s.dev.sched.actions) ∧
        s.leavesAt t lineRange (written Reg.frmBondMode.ref) [.store, .journal, .frm, .schedule]) ∧
    ∀ e, bondCheck v.raw s.dev = some e →
      ∃ t, exec (.frmBondMode q v) s = .next t ∧ t.answers (respOf q 2 e.status (errBytes e)) ∧ s.leaves t numbered []

/-- Received blocks (Table 6.5, R132, R138): in Hunt a valid header leads to Presync, one that is not counts; in Presync the expected BLOCK counts towards FRM_DELTA and Sync,
anything else leads back to Hunt; in Sync a header that is wrong, or lies in a frame whose TABLE was, is counted, and FRM_OOF_BAD of them in a row lead to Hunt; slots that come
out of Sync are discarded and counted. -/
def Obligations.BlocksMoveAlignment : Prop :=
  ∀ (s : State) (c : CarrierNo) (g : ScNo) (b : RxBlock) (rest : List RxBlock) (arrival : Nat), bitAt (s.dev.groupMask c) g = true →
    (s.dev.rxg c g).blocks = b :: rest →
    let w := b.units.headD 0
    let valid := !b.fail0 && hcrcOk w
    let x := s.dev.rxg c g
    (s.dev.get (Reg.frmAlignState c g) = 2 →
      ∃ t, exec (.rxBlock c g arrival) s = .next t ∧ (t.dev.rxg c g).blocks = rest ∧
        (valid = true → t.dev.get (Reg.frmAlignState c g) = 3 ∧ (t.dev.rxg c g).expect = (bhBlock w + 1) % 16 ∧ (t.dev.rxg c g).okRun = 1) ∧
        (valid = false → t.dev.get (Reg.frmAlignState c g) = 2 ∧ (t.dev.rxg c g).hunted = x.hunted + 1) ∧
        s.counts t (Reg.frmSlotDiscards c) ∧ s.leavesAt t lineAndFabric numbered [.frm, .fab]) ∧
    (s.dev.get (Reg.frmAlignState c g) = 3 →
      (valid = true → bhBlock w = x.expect → x.okRun + 1 < s.dev.get (Reg.frmDelta c) →
        ∃ t, exec (.rxBlock c g arrival) s = .next t ∧ t.dev.get (Reg.frmAlignState c g) = 3 ∧ (t.dev.rxg c g).okRun = x.okRun + 1 ∧
          s.leavesAt t lineAndFabric numbered [.frm, .fab]) ∧
      (valid = true → bhBlock w = x.expect → bhBlock w ≠ 0 ∨ bhTable w = x.table → s.dev.get (Reg.frmDelta c) ≤ x.okRun + 1 →
        ∃ t, exec (.rxBlock c g arrival) s = .next t ∧ t.dev.get (Reg.frmAlignState c g) = 4 ∧ bitAt (t.dev.rxg c g).raw 1 = false ∧
          s.leavesAt t lineAndFabric numbered [.frm, .rx, .fab]) ∧
      (valid = false ∨ bhBlock w ≠ x.expect →
        ∃ t, exec (.rxBlock c g arrival) s = .next t ∧ t.dev.get (Reg.frmAlignState c g) = 2 ∧ s.leavesAt t lineAndFabric numbered [.frm, .fab])) ∧
    (s.dev.get (Reg.frmAlignState c g) = 4 → x.expect ≠ 15 →
      (valid = false ∨ bhBlock w ≠ x.expect ∨ (x.expect ≠ 0 ∧ x.badTable = true) →
        ∃ t, exec (.rxBlock c g arrival) s = .next t ∧ s.counts t (Reg.frmHdrErrors c) ∧
          t.dev.get (Reg.frmAlignState c g) = (if s.dev.get (Reg.frmOofBad c) ≤ x.badRun + 1 then 2 else 4) ∧
          s.leavesAt t lineAndFabric numbered [.frm, .fab]) ∧
      (valid = true → bhBlock w = x.expect → x.expect ≠ 0 → x.badTable = false → 0 < s.dev.get (Reg.frmOofBad c) →
        ∃ t, exec (.rxBlock c g arrival) s = .next t ∧ t.dev.get (Reg.frmAlignState c g) = 4 ∧ (t.dev.rxg c g).expect = x.expect + 1 ∧
          (t.dev.rxg c g).badRun = 0 ∧ s.leavesAt t lineAndFabric numbered [.frm, .fab]))

/-- LOF and lost subcarriers (Table 6.7, R147): OOF for FRM_LOF_SET declares LOF and Sync for FRM_LOF_CLR clears it, otherwise the expiry is stale; a subcarrier undecided for
FRM_SC_LOST_MS is lost, an event; in automatic mode an excluded one is probed with code 24. -/
def Obligations.LofAndLostSubcarriersExpire : Prop :=
  ∀ (s : State) (c : CarrierNo) (g : ScNo), s.dev.dead = false →
    (bitAt (s.dev.rxg c g).raw 1 = true → bitAt (s.dev.rxg c g).raw 0 = false → s.dev.rxEmpty c g = false → bitAt (s.dev.groupMask c) g = true →
      ∃ t, exec (.lofSetExpiry c g) s = .next t ∧ bitAt (t.dev.rxg c g).raw 2 = true ∧ bitAt (t.dev.get (Reg.frmDefects c g)) 2 = true ∧
        (bitAt (s.dev.rxg c g).raw 2 = false → s.counts t (Reg.frmLofCount c)) ∧ s.leavesAt t lineAndFabric numbered [.frm, .fab]) ∧
    (bitAt (s.dev.rxg c g).raw 1 = false ∨ bitAt (s.dev.rxg c g).raw 0 = true →
      ∃ t, exec (.lofSetExpiry c g) s = .next t ∧ s.counts t Reg.schedStaleCount ∧ s.leaves t (counted Reg.schedStaleCount) []) ∧
    (s.dev.get (Reg.frmAlignState c g) = 4 → bitAt (s.dev.rxg c g).raw 2 = true → bitAt (s.dev.groupMask c) g = true →
      ∃ t, exec (.lofClearExpiry c g) s = .next t ∧ bitAt (t.dev.rxg c g).raw 2 = false ∧ bitAt (t.dev.get (Reg.frmDefects c g)) 2 = false ∧
        s.leavesAt t lineAndFabric numbered [.frm, .fab]) ∧
    (s.dev.get (Reg.lineRxLoad c g) ≠ 0 → s.dev.get (Reg.lineRxEqState c g) ≤ 1 → (s.dev.get (Reg.lineRxState c) = 2 ∨ s.dev.get (Reg.lineRxState c) = 3) →
      bitAt (s.dev.get (Reg.frmScLost c)) g = false →
      ∃ t, exec (.scLostExpiry c g) s = .next t ∧ bitAt (t.dev.get (Reg.frmScLost c)) g = true ∧ s.raises t (Reg.frmScLost c) ∧
        s.leaves t ([(Reg.frmScLost c).ref, (Reg.lineLoadState (s.dev.loadCarrier c)).ref, (Reg.frmAlignState c (s.dev.groupOfSc c g)).ref] ++ numbered ++
          noticed (Reg.frmScLost c).ref) [.rx, .frm]) ∧
    (s.dev.on Reg.frmBondMode = false → (s.dev.rx.at c).excluded.contains g.val = true → s.dev.get (Reg.lineLoadMode c) = 1 → s.dev.get (Reg.frmScProbe c) ≠ 0 →
      s.dev.on (Reg.hubEnable c) = false → (s.dev.rx.at c).outstanding = none → bitAt (s.dev.get (Reg.frmScLost c)) g = false →
      ∃ t codes, exec (.scProbeExpiry c g) s = .next t ∧ codes.getD g.val 0 = 24 ∧ t.dev.get (Reg.lineLoadState c) = 2 ∧
        .loadReq c (nextTableNo (s.dev.rx.at c).nextTable) (s.dev.get (Reg.lineLoadLead c)) codes ∈ t.dev.out ∧
        s.leaves t ((Reg.lineLoadState c).ref :: numbered) [.frm, .rx])

/-! ### Writes that create actions (chapter 02) -/

/-- A write of an RWS object (R24 to R27, R416): it becomes an action of its class and kind, last in the schedule, answered with its handle; one whose first eligible boundary
comes after its bake time's is, under late policy 0, refused "bake time past" and counted. -/
def Obligations.WritesBecomeActions : Prop :=
  ∀ (s : State) (q : Req) (v : Val) (c : CarrierNo) (k : ScNo) (p : PortNo) (n : Fin 8) (g : Fin 32) (m : Fin 3) (w : RwsWrite),
    w ∈ ([⟨.fabMapSwap q v, 1, Reg.fabMapSwap, v, .calendar, 1, [], [], true⟩,
        ⟨.hubDsCode q c k v, 1, Reg.hubDsCode c k, v, s.dev.lineKind c, 2, [resHubPath c k 0], [], codeOk v.raw⟩,
        ⟨.hubGrantTable q c v, 1, Reg.hubGrantTable c, v, s.dev.lineKind c, 10, (s.dev.grantsNext c).map (fun r => resHubPath c (grSc r) 1), [], true⟩,
        ⟨.lanePortEnable q p v, 1, Reg.lanePortEnable p, v, .calendar, 8, s.dev.portNeeds p v.raw, [], true⟩,
        ⟨.laneFlexeApply q v, 1, Reg.laneFlexeApply, v, .calendar, 8, [], [], true⟩,
        ⟨.monSeqRunStart q n, 1, Reg.monSeqRun n, ⟨1, 1⟩, .calendar, 8, [], [], true⟩,
        ⟨.monSeqRunStop q n, 1, Reg.monSeqRun n, ⟨1, 0⟩, .calendar, 8, [], [], true⟩,
        ⟨.telGrpDump q g v, 1, Reg.telGrpDump g, v, .calendar, 5, [], [g.val], true⟩,
        ⟨.telSweepStart q m v, 1, Reg.telSweepStart m, v, .calendar, 8, [], [], true⟩,
        ⟨.timeForce q v, 1, Reg.timeForce, v, .pps, 4, [], [], decide (v.raw ≤ 15)⟩,
        ⟨.timeLoopMode q v, 1, Reg.timeLoopMode, v, .pps, 8, [], [], decide (v.raw ≤ 1)⟩,
        ⟨.secCgApply q v, 2, Reg.secCgApply, v, .calendar, 8, [], [], v.raw != 0⟩,
        ⟨.secRoll q v, 2, Reg.secRoll, v, s.dev.lineKind (s.dev.pairCarrier (v.raw % 256)), 3, [], [], true⟩,
        ⟨.secErase q v, 2, Reg.secErase, v, s.dev.lineKind (s.dev.pairCarrier (v.raw % 256)), 3, [], [], q.bake == 0⟩,
        ⟨.pwrImgSwitch q v, 2, Reg.pwrImgSwitch, v, .pps, 6, [], [], decide (v.raw ≤ 1) && v.raw != s.dev.pwr.active && !s.dev.pwr.trial⟩] : List RwsWrite) →
    s.reaches q w →
    (s.dev.journals = false → s.dev.isLate (s.planned q w) = false ∨ (s.planned q w).late1 = true → ∃ t, exec w.cmd s = .next t ∧ s.schedules t q (s.planned q w)) ∧
    (s.dev.isLate (s.planned q w) = true → (s.planned q w).late1 = false →
      ∃ t, exec w.cmd s = .next t ∧ t.answers (respOf q 2 stBakePast (errBytes (err stBakePast))) ∧ s.counts t Reg.schedRefusedCount ∧
        s.leaves t (counted Reg.schedRefusedCount) [])

/-! ### Slice fabric and protection (chapter 08) -/

/-- Edits (R185, R189): a record that its ranges and the table's size allow changes the next bank at once, or is held while the bank is rebuilt or a swap is armed; one outside
them is refused and named in FAB_MAP_FAIL; a revert begins the rebuild from the active bank, or is held; a rebuilt bank takes the held records in order. The three copies of what is
written agree again (R184). -/
def Obligations.MapEditsReachTheNextBank : Prop :=
  (∀ (s : State) (q : Req) (rec : BitVec 192) (i : Nat × Instr), s.fresh.writes q 1 Reg.fabMapNext.ref = true →
    i ∈ [(1, Instr.setEntry q rec), (2, .setRange q rec), (3, .clearRange q rec), (4, .portSizes q rec), (5, .groupRecord q rec)] → editOp rec.toNat = i.1 →
    (editOk rec.toNat = true → (applyEdit rec.toNat s.fresh.editBase).entries.length ≤ 655360 →
      ∃ t, exec i.2 s = .next t ∧
        t.dev.fab = (if s.dev.get Reg.fabMapNextState = 0 then
            { s.dev.fab with next := applyEdit rec.toNat s.dev.fab.next, upsets := s.dev.fab.upsets.filter (fun u => !(u.next && editWrites rec.toNat u.key)) }
          else { s.dev.fab with held := s.dev.fab.held ++ [some rec.toNat] }) ∧
        (s.dev.journals = false → t.answers (respOf q 5 stSuccess [])) ∧ s.leaves t numbered [.fab, .journal]) ∧
    (editOk rec.toNat = false →
      ∃ t, exec i.2 s = .next t ∧ t.answers (respOf q 5 stInvalidValue (errBytes (err stInvalidValue))) ∧
        t.dev.get Reg.fabMapFail = failWord 1 (editPort rec.toNat) (editSlot rec.toNat) (editGroup rec.toNat) ∧ s.leaves t (counted Reg.fabMapFail) [])) ∧
  (∀ (s : State) (q : Req), s.fresh.writes q 1 Reg.fabMapRevert.ref = true →
    ∃ t, exec (.fabMapRevert q ⟨1, 1⟩) s = .next t ∧
      t.dev.fab = { s.dev.fab with held := (if s.dev.get Reg.fabMapNextState = 0 then [none] else s.dev.fab.held ++ [none]) } ∧
      t.dev.get Reg.fabMapNextState = (if s.dev.get Reg.fabMapNextState = 0 then 1 else s.dev.get Reg.fabMapNextState) ∧
      (s.dev.journals = false → t.answers (respOf q 2 stSuccess (beBytes 4 0))) ∧ s.leaves t (Reg.fabMapNextState.ref :: numbered) [.fab, .journal]) ∧
  ∀ s : State, s.dev.get Reg.fabMapNextState = 1 → (∀ a ∈ s.dev.sched.actions, a.held = false) →
    ∃ t, exec .nextBankRebuilt s = .next t ∧ t.dev.get Reg.fabMapNextState = 0 ∧
      t.dev.fab = { s.dev.fab with
        next := applyHeld s.dev.fab.active s.dev.fab.held s.dev.fab.active, held := [], upsets := s.dev.fab.upsets.filter (fun u => !u.next) } ∧
      s.leaves t [Reg.fabMapNextState.ref] [.fab]

/-- Swaps (R178, R184, R186, R187, R204): the pass takes the majority of the three copies of every item of the next bank, rewrites and counts a copy that dissents, and finds
nothing, so that the armed swap goes ahead, or something, which fails it with the reason in FAB_MAP_FAIL and the next bank as it was; the swap exchanges the banks under its
generation; one that meets poisoned data fails and undoes its pass. A re-timing slip, counted per port, drops one waiting cycle or gives the cycle before again. -/
def Obligations.BankSwapsPassAndFire : Prop :=
  (∀ (s : State) (h : BitVec 32) (a : Action) (upsets : List Upset), s.dev.action? h.toNat = some a → a.armed ≠ none → swaps a = true →
    s.dev.fab.passed = false → s.dev.get Reg.fabMapNextState = 2 →
    let v := (s.fresh.upset upsets).voteBank true (fun _ => true)
    let b := v.1.fab.next
    (v.1.passVerdict v.2 b = none →
      ∃ t, exec (.swapValidationPass h upsets) s = .next t ∧ t.dev.fab = { v.1.fab with passed := true, writeTable := b.inSize } ∧
        (∀ u, upsets = [u] → s.dev.fab.upsets = [] → u.next = true → (u.gone = true ∨ u.mask ≠ 0) → t.dev.fab.upsets = [] ∧ s.counts t Reg.fabVoteFixes) ∧
        s.leaves t [Reg.fabVoteFixes.ref] [.fab]) ∧
    (∀ w, v.1.passVerdict v.2 b = some w → a.cls = 1 → swapMember a = none → (∀ x ∈ s.dev.sched.actions, x.held = false) →
      ∃ t, exec (.swapValidationPass h upsets) s = .next t ∧ t.dev.get Reg.fabMapFail = w % 2 ^ 64 ∧ t.dev.get Reg.fabMapNextState = 0 ∧
        t.dev.fab.active = s.dev.fab.active ∧ t.dev.fab.next = applyHeld s.dev.fab.active s.dev.fab.held b ∧ t.dev.fab.held = [] ∧
        t.dev.sched.actions = s.dev.sched.actions.filter (fun x => x.handle != a.handle) ∧ s.counts t Reg.schedFailedCount ∧
        s.leaves t ([Reg.fabVoteFixes.ref, Reg.fabMapFail.ref, Reg.fabMapNextState.ref, Reg.schedFailedCount.ref] ++ noticed Reg.schedList.ref) [.fab, .schedule])) ∧
  (∀ (s : State) (h : BitVec 32) (a : Action), s.dev.fires h.toNat a 1 → s.dev.fab.passed = true →
    (∃ t, exec (.sliceMapBankSwap h false) s = .next t ∧ t.dev.fab.active = s.dev.fab.next ∧ t.dev.fab.next = s.dev.fab.active ∧ t.dev.fab.passed = false ∧
      t.dev.fab.writeTable = s.dev.fab.next.inSize ∧ t.dev.get Reg.fabMapGen = a.value % 65536 ∧ t.dev.get Reg.fabMapNextState = 1 ∧ s.counts t Reg.fabSwaps ∧
      s.leavesAt t [(0x3000, 0x4FFF), (0x9100, 0x910F)] (fired ++ written Reg.fabMapActive.ref) [.fab, .pkt, .schedule, .store]) ∧
    (s.dev.get Reg.fabMapNextState = 2 → (∀ x ∈ s.dev.sched.actions, x.held = false ∧ (x.handle = a.handle → x = a)) →
      ∃ t, exec (.sliceMapBankSwap h true) s = .next t ∧ t.dev.fab.active = s.dev.fab.active ∧ t.dev.fab.next = applyHeld s.dev.fab.active s.dev.fab.held s.dev.fab.next ∧
        t.dev.fab.passed = false ∧ t.dev.fab.writeTable = s.dev.fab.active.inSize ∧ t.dev.get Reg.fabMapNextState = 0 ∧ s.counts t Reg.schedFailedCount ∧
        s.counts t (Reg.memPoisonConsumed 8) ∧ t.dev.sched.actions = s.dev.sched.actions.filter (fun x => x.handle != a.handle) ∧
        s.leaves t ([Reg.fabMapNextState.ref, Reg.schedFailedCount.ref, (Reg.memPoisonConsumed 8).ref, (blkFaults 0x7FF0).ref] ++ eventCounters 0x7FF0 ++
          noticed Reg.schedList.ref) [.fab, .schedule])) ∧
  ∀ (s : State) (p : Fin 66) (beyond : Bool), s.dev.dead = false →
    ∃ t, exec (.retimingSlip p beyond) s = .next t ∧ s.counts t (Reg.fabPortSlips p) ∧ .slip p.val beyond ∈ t.dev.out ∧
      (beyond = true → (t.dev.retimeOf p).queue = (s.dev.retimeOf p).queue.drop 1) ∧
      (beyond = false → (t.dev.retimeOf p).again = true ∧ ∀ came, (t.dev.retimed p came).2 = (s.dev.retimeOf p).last) ∧
      t.dev.fab = { s.dev.fab with retime := t.dev.fab.retime } ∧ s.leaves t [(Reg.fabPortSlips p).ref] [.fab]

/-- Monitoring points and protection timers (R195, R196, R200, R201, Table 8.8): a header moves its point as R195 says; GLOF is declared and cleared when GOOF or Sync has held;
a hold-off that ends makes the failure a request, and wait-to-restore that ends is over; an expiry whose cause has gone is stale. -/
def Obligations.GroupsAlignAndTime : Prop :=
  ∀ (s : State) (g : GroupNo) (leg : Fin 2), s.dev.dead = false →
    let st := s.dev.grp g
    let p := if leg = 0 then st.w else st.p
    (∀ (w : BitVec 128) (bad : Bool) (arrival : Int), p.align ≠ 0 →
      let x := pointHeader (s.dev.get Reg.fabDelta) (s.dev.get Reg.fabOofBad) (s.dev.fab.active.group g).tim (s.dev.fab.active.group g).traceExp w.toNat bad p
      ∃ t, exec (.groupHeader g leg w bad arrival) s = .next t ∧
        (if leg = 0 then (t.dev.grp g).w else (t.dev.grp g).p).align = x.1.align ∧ (if leg = 0 then (t.dev.grp g).w else (t.dev.grp g).p).raw = x.1.raw ∧
        (t.dev.grp g).hdrErrors = (if x.2 then (st.hdrErrors + 1) % 2 ^ 32 else st.hdrErrors) ∧
        (bad = true → s.counts t (Reg.memPoisonConsumed 1)) ∧
        s.leavesAt t [(0x3000, 0x3FFF), (0x9100, 0x910F)] ((Reg.memPoisonConsumed 1).ref :: numbered) [.fab]) ∧
    (∀ declare : Bool, (declare = true ∧ bitAt p.raw 0 = true ∧ p.align ≠ 0) ∨ (declare = false ∧ p.align = 3 ∧ bitAt p.raw 1 = true) →
      ∃ t, exec (.glofExpiry g leg declare) s = .next t ∧ bitAt (if leg = 0 then (t.dev.grp g).w else (t.dev.grp g).p).raw 1 = declare ∧
        s.leavesAt t [(0x3000, 0x3FFF), (0x9100, 0x910F)] numbered [.fab]) ∧
    (p.align = 0 → ∀ declare : Bool,
      ∃ t, exec (.glofExpiry g leg declare) s = .next t ∧ s.counts t Reg.schedStaleCount ∧ s.leaves t (counted Reg.schedStaleCount) []) ∧
    (∀ sd : Bool, (bitAt st.holding (leg.val * 2 + b2n sd) = true →
        ∃ t, exec (.holdOffExpiry g leg sd) s = .next t ∧ bitAt (t.dev.grp g).holding (leg.val * 2 + b2n sd) = false ∧
          bitAt (t.dev.grp g).reqs (leg.val * 2 + b2n sd) = true ∧ (t.dev.grp g).inForce = requestInForce (t.dev.grp g) ∧ s.leaves t numbered [.fab]) ∧
      (bitAt st.holding (leg.val * 2 + b2n sd) = false →
        ∃ t, exec (.holdOffExpiry g leg sd) s = .next t ∧ s.counts t Reg.schedStaleCount ∧ s.leaves t (counted Reg.schedStaleCount) [])) ∧
    (st.wtr = true → st.wtrExpired = false →
      ∃ t, exec (.wtrExpiry g) s = .next t ∧ (t.dev.grp g).inForce = requestInForce (t.dev.grp g) ∧
        ((t.dev.grp g).wtr = (workingUnaligned (s.dev.fab.active.group g) (s.dev.fab.active.members g).length st && !(bitAt st.reqs 0 || bitAt st.reqs 1))) ∧ s.leaves t numbered [.fab]) ∧
    (st.wtr = false → ∃ t, exec (.wtrExpiry g) s = .next t ∧ s.counts t Reg.schedStaleCount ∧ s.leaves t (counted Reg.schedStaleCount) [])

/-- Protection commands (R202, R208): on a protected group with slices each command is in force as Table 8.9 ranks it; a manual switch below a request in force is refused "not
permitted in state", and a command on a group that is not protected "invalid value". -/
def Obligations.ProtectionCommandsAct : Prop :=
  ∀ (s : State) (q : Req) (g : GroupNo), s.fresh.writes q 1 Reg.fabPgCmd.ref = true →
    ((s.dev.fab.active.group g).prot ≠ 0 → s.dev.fab.active.members g ≠ [] →
      (∃ t, exec (.pgClear q g) s = .next t ∧ (t.dev.grp g).cmd = 0 ∧ (t.dev.grp g).wtr = false ∧ (t.dev.grp g).inForce = requestInForce (t.dev.grp g) ∧
        s.leaves t numbered [.fab]) ∧
      (∃ t, exec (.lockout q g) s = .next t ∧ (t.dev.grp g).cmd = 1 ∧ (t.dev.grp g).inForce = 1 ∧ s.leaves t numbered [.fab]) ∧
      (∃ t, exec (.forcedSwitch q g) s = .next t ∧ (t.dev.grp g).cmd = 2 ∧ (t.dev.grp g).inForce = (if bitAt (s.dev.grp g).reqs 2 then 2 else 3) ∧
        s.leaves t numbered [.fab]) ∧
      (requestInForce (s.dev.grp g) = 0 ∨ 7 ≤ requestInForce (s.dev.grp g) → (s.dev.grp g).reqs = 0 →
        (∃ t, exec (.manualSwitchP q g) s = .next t ∧ (t.dev.grp g).cmd = 3 ∧ (t.dev.grp g).inForce = 7 ∧ s.leaves t numbered [.fab]) ∧
        ∃ t, exec (.manualSwitchW q g) s = .next t ∧ (t.dev.grp g).cmd = 4 ∧ (t.dev.grp g).inForce = 8 ∧ s.leaves t numbered [.fab]) ∧
      (0 < requestInForce (s.dev.grp g) → requestInForce (s.dev.grp g) < 7 → ∀ i ∈ [Instr.manualSwitchP q g, .manualSwitchW q g],
        ∃ t, exec i s = .next t ∧ t.answers (respOf q 2 stNotPermitted (errBytes (err stNotPermitted))) ∧ s.leaves t numbered []) ∧
      ((s.dev.fab.active.group g).prot = 2 →
        ∃ t, exec (.realign q g) s = .next t ∧ (t.dev.grp g).realign = true ∧ s.leaves t numbered [.fab])) ∧
    ((s.dev.fab.active.group g).prot = 0 →
      ∀ i ∈ [Instr.pgClear q g, .lockout q g, .forcedSwitch q g, .manualSwitchP q g, .manualSwitchW q g, .realign q g],
        ∃ t, exec i s = .next t ∧ t.answers (respOf q 2 stInvalidValue (errBytes (err stInvalidValue))) ∧ s.leaves t numbered [])

/-! ### Hub mode (chapter 07) -/

/-- Hub mode and grants (R150, R155, R156, R165, R171): HUB_ENABLE as its check allows; a grant table that R155 allows is held with LENGTH and the reserved bits 0, another is refused;
a switch that is armed says in HUB_GRANT_FROM when reception begins and sends GRANT to every leaf whose record changes, in every hub-class slot until its launch; one that fires is
the table in force, launched and received from its cycles; at the upstream cycle reception takes the table, a leaf's old window is stale for 64 cycles and an Active leaf that it
leaves out dozes. -/
def Obligations.HubModeAndGrantTables : Prop :=
  ∀ (s : State) (c : CarrierNo),
    (∀ (q : Req) (v : Val), s.fresh.writes q 1 (Reg.hubEnable c).ref = true → v.len = 1 → v.raw ≤ 1 →
      (hubEnableCheck c v.raw s.dev = none →
        ∃ t, exec (.hubEnable q c v) s = .next t ∧ t.dev.get (Reg.hubEnable c) = v.raw ∧ (∀ k : ScNo, t.dev.get (Reg.hubUsState c k) = 0) ∧
          (t.dev.hub.at c).paths = [] ∧ (v.raw = 0 → t.dev.get (Reg.hubDiscState c) = 0 ∧ t.dev.get (Reg.hubDiscSc c) = 0xFF) ∧
          s.leavesAt t lineRange (written (Reg.hubEnable c).ref) [.store, .journal, .frm, .hub]) ∧
      ∀ e, hubEnableCheck c v.raw s.dev = some e →
        ∃ t, exec (.hubEnable q c v) s = .next t ∧ t.answers (respOf q 2 e.status (errBytes e)) ∧ s.leaves t numbered []) ∧
    (∀ (q : Req) (crc : BitVec 32) (x : Transfer), s.endsBlock q 1 (Reg.hubGrantNext c).ref crc x →
      (grantCheck c x.data s.dev = none →
        ∃ t, exec (.hubGrantNext q c crc) s = .next t ∧
          t.dev.dom (Reg.hubGrantNext c).ref = (recordsOf 8 x.data).flatMap (fun r => beBytes 8 (r / 2 ^ 23 * 2 ^ 23)) ∧ s.leaves t numbered [.stored, .journal]) ∧
      ∀ e, grantCheck c x.data s.dev = some e →
        ∃ t, exec (.hubGrantNext q c crc) s = .next t ∧ t.answers (respOf q 5 e.status (errBytes e)) ∧ s.leaves t numbered []) ∧
    (∀ (h : BitVec 32) (a : Action) (tick b : Nat), s.dev.dead = false → s.dev.action? h.toNat = some a → a.cls = 10 → a.target = (Reg.hubGrantTable c).ref → swaps a = false →
      a.armed = none → a.held = false → a.epoch = 0 → s.dev.armBoundary a tick = some b →
      let launch := cycleAt b + s.dev.get (Reg.hubGrantLead c)
      let receive := launch + s.dev.get (Reg.hubEqCycles c)
      ∃ t, exec (.actionArming h tick) s = .next t ∧ t.dev.get (Reg.hubGrantFrom c) = fuToTime96 (receive * fuCycle) ∧
        (∀ l : LeafNo, let r := recordFor ((s.dev.grantsOf a).map bareRecord) l
          let k := s.dev.get (Reg.hubLeafDsSc (leafIx c l))
          r ≠ recordFor ((s.dev.grantsLast c).map bareRecord) l →
            .hub c k 0x23 l [r.getD (l.val * 2 ^ 56), receive, a.value] ∈ t.dev.out ∧
            (k < 16 → ⟨3, [k], launch * fuCycle != 0, launch * fuCycle, hubWord 0x23 l [(r.getD (l.val * 2 ^ 56), 64), (receive, 32), (a.value, 8)]⟩ ∈ (t.dev.frm.at c).slots)) ∧
        s.leaves t ((Reg.hubGrantFrom c).ref :: numbered) [.schedule, .frm]) ∧
    (∀ (h : BitVec 32) (a : Action), s.dev.fires h.toNat a 10 → a.target = (Reg.hubGrantTable c).ref → a.origin = .host →
      ∃ t sw, exec (.hubGrantTableSwitch h false) s = .next t ∧ t.dev.get (Reg.hubGrantTable c) = a.value % 2 ^ (Reg.hubGrantTable c).width ∧
        (t.dev.hub.at c).switches = (s.dev.hub.at c).switches.filter (fun x => decide (x.receive < sw.receive)) ++ [sw] ∧ sw.table = a.value ∧ sw.records = s.dev.grantsOf a ∧
        sw.launch = cycleAt (a.armed.getD s.dev.now) + s.dev.get (Reg.hubGrantLead c) ∧ sw.receive = sw.launch + s.dev.get (Reg.hubEqCycles c) ∧
        s.leaves t ((Reg.hubGrantTable c).ref :: fired) [.hub, .schedule]) ∧
    ∀ sw rest, (s.dev.hub.at c).switches = sw :: rest →
      ∃ t, exec (.grantUpstreamCycle c) s = .next t ∧ (t.dev.hub.at c).switches = rest ∧
        t.dev.dom (Reg.hubGrantActive c).ref = (sw.records.map (withLength (s.dev.overhead c))).flatMap (beBytes 8) ∧
        (∀ l : LeafNo, let old := recordFor (s.dev.grantsActive c) l
          let new := recordFor (sw.records.map (withLength (s.dev.overhead c))) l
          old ≠ new → (t.dev.leafOf c l).oldGrant = old ∧ (t.dev.leafOf c l).staleUntil = sw.receive + 64 ∧
            t.dev.get (Reg.hubLeafState (leafIx c l)) =
              (if new = none ∧ s.dev.get (Reg.hubLeafState (leafIx c l)) = 3 then 5 else s.dev.get (Reg.hubLeafState (leafIx c l)))) ∧
        s.leavesAt t lineAndFabric numbered [.stored, .hub, .frm, .rx, .fab]

/-- The burst receiver (Table 7.4, R158 to R165): Idle, Armed, Detected and Receiving follow windows, detections at HUB_DET_THRESH within HUB_ARRIVE_TOL of START and sync words within
HUB_SYNC_TOL bits of HUB_SYNC; a stronger second preamble is captured, one while Receiving is a collision; a window or burst without a valid burst is missed, a valid one counted once its
blocks are there, one with another leaf's header a violation of that leaf; the rogue watch counts what it finds. -/
def Obligations.BurstsAreReceived : Prop :=
  ∀ (s : State) (c : CarrierNo) (k : ScNo),
    let p := s.dev.pathOf c k
    let idle := fun (t : State) => t.dev.get (Reg.hubUsState c k) = b2n p.windowOpen
    (∀ leaf : Fin 129, s.dev.on (Reg.hubEnable c) = true →
      (leaf.val = 128 → s.dev.get (Reg.hubDiscState c) = 1 ∧ s.dev.get (Reg.hubDiscSc c) = k.val ∧ s.dev.now < p.till) →
      (leaf.val ≠ 128 → (s.dev.grantsActive c).any (fun r => grLeaf r == leaf.val && grSc r == k.val && !grCont r) = true) →
      ∃ t, exec (.burstWindowOpen c k leaf) s = .next t ∧
        t.dev.pathOf c k = { p with leaf := leaf, windowOpen := true, start := if leaf.val = 128 then none else (s.dev.leafOf c leaf).start } ∧
        t.dev.get (Reg.hubUsState c k) = (if s.dev.get (Reg.hubUsState c k) = 0 then 1 else s.dev.get (Reg.hubUsState c k)) ∧
        s.leaves t [(Reg.hubUsState c k).ref] [.hub]) ∧
    (∀ (x : Int) (corr : Nat) (pos : Int), s.dev.get (Reg.hubUsState c k) = 1 →
      (256 * s.dev.get (Reg.hubDetThresh c) ≤ corr → s.dev.inBurstWindow c p pos = true →
        ∃ t, exec (.burstDetection c k x corr pos) s = .next t ∧ t.dev.get (Reg.hubUsState c k) = 2 ∧
          t.dev.pathOf c k = { p with burst := p.leaf, power := x, pos := pos, second := none } ∧ s.leaves t [(Reg.hubUsState c k).ref] [.hub]) ∧
      (corr < 256 * s.dev.get (Reg.hubDetThresh c) ∨ s.dev.inBurstWindow c p pos = false →
        ∃ t, exec (.burstDetection c k x corr pos) s = .next t ∧ s.leaves t [] [])) ∧
    (∀ (x : Int) (corr : Nat) (pos : Int), 256 * s.dev.get (Reg.hubDetThresh c) ≤ corr →
      (s.dev.get (Reg.hubUsState c k) = 2 →
        (p.power + s.dev.get (Reg.hubCapture c) < x →
          ∃ t, exec (.burstBDetection c k x corr pos) s = .next t ∧ t.dev.pathOf c k = { p with power := x, pos := pos, second := none } ∧
            s.counts t (Reg.hubCaptures c k) ∧ s.leaves t [(Reg.hubCaptures c k).ref] [.hub]) ∧
        (x ≤ p.power + s.dev.get (Reg.hubCapture c) →
          ∃ t, exec (.burstBDetection c k x corr pos) s = .next t ∧ t.dev.pathOf c k = { p with second := some (x, pos) } ∧ s.leaves t [] [.hub])) ∧
      (s.dev.get (Reg.hubUsState c k) = 3 →
        ∃ t, exec (.burstBDetection c k x corr pos) s = .next t ∧ s.counts t (Reg.hubCollisions c k) ∧ s.leaves t [(Reg.hubCollisions c k).ref] [])) ∧
    (s.dev.get (Reg.hubUsState c k) = 2 →
      (∀ (w : BitVec 64) (shift rssi : Int), differing (bitsDown 64 w.toNat) (bitsDown 64 (s.dev.get (Reg.hubSync c))) ≤ s.dev.get (Reg.hubSyncTol c) → shift.natAbs ≤ 2 →
        ∃ t b, exec (.burstSyncFound c k w shift rssi) s = .next t ∧ t.dev.get (Reg.hubUsState c k) = 3 ∧ (t.dev.pathOf c k).bursts = p.bursts ++ [b] ∧
          b.leaf = p.burst ∧ b.record = s.dev.recordOf c p.burst ∧ b.pos = p.pos + shift ∧ b.rssi = rssi ∧ b.taken = 0 ∧ b.report = none ∧
          s.leaves t [(Reg.hubUsState c k).ref] [.hub]) ∧
      (∀ x : Int × Int, p.second = some x → p.pos + 2 < x.2 →
        ∃ t, exec (.burstSyncMissed c k) s = .next t ∧ t.dev.get (Reg.hubUsState c k) = 2 ∧ t.dev.pathOf c k = { p with power := x.1, pos := x.2, second := none } ∧
          s.leaves t [] [.hub]) ∧
      (p.second.all (fun x => decide (x.2 ≤ p.pos + 2)) = true →
        (p.windowOpen = true → ∃ t, exec (.burstSyncMissed c k) s = .next t ∧ idle t ∧ s.leaves t [(Reg.hubUsState c k).ref] [.hub]) ∧
        (p.windowOpen = false → p.burst ≤ 127 →
          ∃ t, exec (.burstSyncMissed c k) s = .next t ∧ idle t ∧ s.counts t (Reg.hubLeafMissed (leafIx c p.burst)) ∧ s.leavesAt t lineAndFabric numbered [.hub, .fab]))) ∧
    (p.windowOpen = true → (p.leaf = 128 → p.till ≤ s.dev.now) →
      (s.dev.get (Reg.hubUsState c k) ≠ 1 →
        ∃ t, exec (.burstWindowClose c k) s = .next t ∧ (t.dev.pathOf c k).windowOpen = false ∧ s.leaves t [] [.hub]) ∧
      (s.dev.get (Reg.hubUsState c k) = 1 → p.leaf ≤ 127 →
        ∃ t, exec (.burstWindowClose c k) s = .next t ∧ (t.dev.pathOf c k).windowOpen = false ∧ t.dev.get (Reg.hubUsState c k) = 0 ∧
          s.counts t (Reg.hubLeafMissed (leafIx c p.leaf)) ∧ s.leavesAt t lineAndFabric numbered [.hub, .fab])) ∧
    (∀ (m : BurstReport) (b : HubBurst), s.dev.get (Reg.hubUsState c k) = 3 → p.bursts.find? (fun x => x.report.isNone) = some b → (∀ x ∈ p.bursts, x.id = b.id → x = b) →
      (b.blocks.length < b.taken →
        ∃ t, exec (.burstEnd c k m) s = .next t ∧ idle t ∧
          t.dev.pathOf c k = { p with bursts := p.bursts.map (fun x => if x.id = b.id then { b with report := some m } else x) } ∧
          s.leaves t ((Reg.hubUsState c k).ref :: numbered) [.hub]) ∧
      (b.taken ≤ b.blocks.length → b.leaf ≤ 127 → ∀ b0, tblGet b.blocks 0 = some b0 →
        let w := b0.units.headD 0
        (b0.fail0 = false → hcrcOk w = true → bhBlock w = 0 → huLeaf w = b.leaf → huLast w = bits b.record 51 48 →
          ∃ t, exec (.burstEnd c k m) s = .next t ∧ idle t ∧ (t.dev.pathOf c k).bursts = p.bursts.filter (fun x => x.id != b.id) ∧
            s.counts t (Reg.hubLeafBursts (leafIx c b.leaf)) ∧ t.dev.get (Reg.hubLeafDsSnr (leafIx c b.leaf)) = huDsSnr w ∧
            (t.dev.leafOf c b.leaf).offset = b.pos - (16 * grStart b.record : Nat) ∧ (t.dev.leafOf c b.leaf).start = some ⟨m.freq, m.timing, m.taps⟩ ∧
            s.leavesAt t lineAndFabric numbered [.hub, .fab, .frm]) ∧
        (b0.fail0 = false → hcrcOk w = true → bhBlock w = 0 → huLeaf w ≠ b.leaf ∨ huLast w ≠ bits b.record 51 48 → huLeaf w ≤ 127 → s.dev.staleBurst c k (huLeaf w) (b.pos / 16).toNat = false →
          ∃ t, exec (.burstEnd c k m) s = .next t ∧ idle t ∧ s.counts t (Reg.hubLeafViolations (leafIx c (huLeaf w))) ∧ s.counts t (Reg.hubLeafMissed (leafIx c b.leaf)) ∧
            s.leavesAt t lineAndFabric (Reg.schedDeviceWaits.ref :: numbered) [.hub, .fab, .frm, .schedule]) ∧
        (b0.fail0 = true ∨ hcrcOk w = false ∨ bhBlock w ≠ 0 →
          ∃ t, exec (.burstEnd c k m) s = .next t ∧ idle t ∧ s.counts t (Reg.hubLeafMissed (leafIx c b.leaf)) ∧ s.leavesAt t lineAndFabric numbered [.hub, .fab])) ∧
      (b.taken = 0 → b.leaf ≤ 127 → b.blocks = [] →
        ∃ t, exec (.burstEnd c k m) s = .next t ∧ idle t ∧ s.counts t (Reg.hubLeafMissed (leafIx c b.leaf)) ∧ s.leavesAt t lineAndFabric numbered [.hub, .fab])) ∧
    (∀ (num : Nat) (x : Stopped) (b : HubBurst), s.dev.fec.stopped.find? (fun y => y.word.num == num) = some x → x.word.carrier = c.val → x.word.group = k.val →
      x.word.burst = some b.id → s.dev.comes (deliveryAt x.word) = true → p.bursts.find? (fun y => y.id == b.id) = some b → b.report = none →
      ∃ t b', exec (.blockDelivery num) s = .next t ∧ t.dev.now = max s.dev.now (deliveryAt x.word) ∧
        (t.dev.pathOf c k).bursts = p.bursts.map (fun y => if y.id = b.id then b' else y) ∧
        b'.blocks = tblPut b.blocks x.word.block (s.dev.rxBlockOf c (decodedOf x)) ∧ b'.taken = b.taken ∧ b'.report = none ∧
        s.leaves t ((if s.dev.passesSoft c then [(Reg.fecCwFailed c).ref, (Reg.fecBits c).ref, (Reg.fecPreErrors c).ref, (Reg.fecOuterCorr c).ref,
          (Reg.fecFramesFailed c).ref] else []) ++ numbered) [.now, .fec, .hub]) ∧
    (∀ corr unit : Nat, s.dev.on (Reg.hubEnable c) = true → s.dev.on (Reg.hubRogueWatch c) = true → s.dev.get (Reg.hubUsState c k) = 0 →
      256 * s.dev.get (Reg.hubDetThresh c) ≤ corr →
      (∃ t, exec (.rogueBurst c k corr none unit) s = .next t ∧ s.counts t (Reg.hubRogue c k) ∧ s.leaves t (counted (Reg.hubRogue c k)) []) ∧
      ∀ h : BitVec 128, hcrcOk h.toNat = true → huLeaf h.toNat ≤ 127 →
        (s.dev.staleBurst c k (huLeaf h.toNat) unit = true →
          ∃ t, exec (.rogueBurst c k corr (some h) unit) s = .next t ∧ s.counts t (Reg.hubLeafStale (leafIx c (huLeaf h.toNat))) ∧
            s.leaves t (counted (Reg.hubLeafStale (leafIx c (huLeaf h.toNat)))) []) ∧
        (s.dev.staleBurst c k (huLeaf h.toNat) unit = false →
          ∃ t, exec (.rogueBurst c k corr (some h) unit) s = .next t ∧ s.counts t (Reg.hubLeafViolations (leafIx c (huLeaf h.toNat))) ∧
            s.leavesAt t lineRange (Reg.schedDeviceWaits.ref :: numbered) [.hub, .frm, .schedule]))

/-- Discovery, ranging and leaf states (R154, R164, R166, R168 to R171, R173, R324): a discovery period opens the lowest subcarrier free of grants for K + 2 cycles and says so downstream;
the REGISTER that has waited longest is counted unknown, unauthentic or out of range, or makes its leaf Assigned with RTT and EQD, told in ASSIGN; a leaf's enable, time-outs and messages move its
state; a leaf that reaches HUB_POLICE_LIMIT is Quarantined, told so, and removed by an action of the device. -/
def Obligations.LeavesRegisterAndLeave : Prop :=
  ∀ (s : State) (c : CarrierNo),
    (s.dev.dead = false → s.dev.on (Reg.hubEnable c) = true →
      (s.dev.get (Reg.hubDiscPeriod c) = 0 →
        ∃ t, exec (.discoveryPeriod c) s = .next t ∧ t.dev.get (Reg.hubDiscState c) = 0 ∧ t.dev.get (Reg.hubDiscSc c) = 0xFF ∧
          s.leaves t ([(Reg.hubDiscState c).ref, (Reg.hubDiscSc c).ref] ++ numbered) []) ∧
      (s.dev.get (Reg.hubDiscPeriod c) ≠ 0 →
        ((List.range 16).find? (fun k => bitAt (s.dev.get (Reg.hubDiscMask c)) k && !(s.dev.scsGranted c).contains k) = none →
          ∃ t, exec (.discoveryPeriod c) s = .next t ∧ t.dev.get (Reg.hubDiscState c) = 2 ∧ t.dev.get (Reg.hubDiscSc c) = 0xFF ∧
            s.leaves t ([(Reg.hubDiscState c).ref, (Reg.hubDiscSc c).ref] ++ numbered) []) ∧
        ∀ k, (List.range 16).find? (fun k => bitAt (s.dev.get (Reg.hubDiscMask c)) k && !(s.dev.scsGranted c).contains k) = some k →
          ∃ t, exec (.discoveryPeriod c) s = .next t ∧ t.dev.get (Reg.hubDiscState c) = 1 ∧ t.dev.get (Reg.hubDiscSc c) = k ∧
            t.dev.get (Reg.hubUsState c k) = 1 ∧ (t.dev.pathOf c k).leaf = 128 ∧ (t.dev.pathOf c k).windowOpen = true ∧
            (t.dev.pathOf c k).till = nextMultiple fuCycle s.dev.now + (s.dev.get (Reg.hubEqCycles c) + 2) * fuCycle ∧
            (∀ j : ScNo, s.dev.get (Reg.lineTxLoad c j) ≠ 0 →
              .hub c j 0x20 0xFF [((s.dev.hub.at c).discId + 1) % 65536, k, s.dev.get (Reg.hubEqCycles c)] ∈ t.dev.out ∧
              ∃ m ∈ (t.dev.frm.at c).slots, j.val ∈ m.groups ∧ m.word = hubWord 0x20 0xFF
                [(((s.dev.hub.at c).discId + 1) % 65536, 16), (k, 8), (s.dev.get (Reg.hubEqCycles c), 8)]) ∧
            s.leaves t ([(Reg.hubDiscState c).ref, (Reg.hubDiscSc c).ref, (Reg.hubUsState c k).ref] ++ numbered) [.hub, .frm]) ∧
      (∃ t, exec (.leafTrimPeriod c) s = .next t ∧ (∀ l : LeafNo, s.dev.get (Reg.hubLeafState (leafIx c l)) = 3 →
          ∃ body, .hub c (s.dev.get (Reg.hubLeafDsSc (leafIx c l))) 0x24 l body ∈ t.dev.out ∧ body.take 2 = [s.dev.get (Reg.hubLeafEqd (leafIx c l)), s.dev.get (Reg.hubLeafFreq (leafIx c l))]) ∧
        s.leaves t numbered [.frm]) ∧
      ∀ (m : UpMsg) (rest : List UpMsg), (s.dev.hub.at c).registers = m :: rest →
        let known := (List.range 128).find? (fun l => s.dev.on (Reg.hubLeafEnable (leafIx c l)) && s.dev.get (Reg.hubLeafState (leafIx c l)) == 1 &&
          s.dev.get (Reg.hubLeafSerial (leafIx c l)) == rgSerial m.word)
        let rtt : Int := m.pos - (64 * rgBackoff m.word : Nat)
        let eqd : Int := (s.dev.get (Reg.hubEqCycles c) * 208000 : Nat) - rtt
        let taken := fun (t : State) => (t.dev.hub.at c).registers = rest
        (known = none → ∃ t, exec (.register c) s = .next t ∧ taken t ∧ s.counts t (Reg.hubRegUnknown c) ∧ s.raises t (Reg.hubRegUnknown c) ∧
          s.leaves t (counted (Reg.hubRegUnknown c) ++ noticed (Reg.hubRegUnknown c).ref) [.hub]) ∧
        ∀ l, known = some l →
          let right := s.dev.upTagOk c l 0xFFF (rgNonce m.word) m && (s.dev.leafOf c l).nonce != some (rgNonce m.word) && rgDiscId m.word == (s.dev.hub.at c).discId
          (right = false → ∃ t, exec (.register c) s = .next t ∧ taken t ∧ s.counts t (Reg.hubRegAuthfail c) ∧ s.leaves t (counted (Reg.hubRegAuthfail c)) [.hub]) ∧
          (right = true → eqd < 0 → ∃ t, exec (.register c) s = .next t ∧ taken t ∧ s.counts t (Reg.hubRegRange c) ∧ s.leaves t (counted (Reg.hubRegRange c)) [.hub]) ∧
          (right = true → 0 ≤ eqd →
            ∃ t, exec (.register c) s = .next t ∧ taken t ∧ t.dev.get (Reg.hubLeafState (leafIx c l)) = 2 ∧
              t.dev.get (Reg.hubLeafRtt (leafIx c l)) = ofSigned (Reg.hubLeafRtt 0).width rtt % 2 ^ (Reg.hubLeafRtt 0).width ∧
              t.dev.get (Reg.hubLeafEqd (leafIx c l)) = ofSigned (Reg.hubLeafEqd 0).width eqd % 2 ^ (Reg.hubLeafEqd 0).width ∧
              t.dev.get (Reg.hubLeafDsSc (leafIx c l)) = rgDsSc m.word ∧
              .hub c (rgDsSc m.word) 0x22 l [rgSerial m.word, rgNonce m.word, l, t.dev.get (Reg.hubLeafEqd (leafIx c l))] ∈ t.dev.out ∧
              s.leaves t ([(Reg.hubLeafState (leafIx c l)).ref, (Reg.hubLeafRtt (leafIx c l)).ref, (Reg.hubLeafEqd (leafIx c l)).ref,
                (Reg.hubLeafDsSc (leafIx c l)).ref] ++ numbered ++ noticed (Reg.hubLeafState (leafIx c l)).ref) [.hub, .frm])) ∧
    (∀ (m : UpMsg) (rest : List UpMsg), s.dev.dead = false → s.dev.on (Reg.hubEnable c) = true → (s.dev.hub.at c).messages = m :: rest → m.leaf ≤ 127 →
      let i := leafIx c m.leaf
      let right := s.dev.upTagOk c m.leaf (0x800 + m.leaf) (16 * m.count + m.block) m
      let times := ((s.dev.leafOf c m.leaf).violations.filter (fun t => decide (s.dev.now < t + fuSec))).length + 1
      (right = true → ∃ t, exec (.upstreamHubMessage c) s = .next t ∧ (t.dev.hub.at c).messages = rest ∧ s.leaves t numbered [.hub]) ∧
      (right = false → ∃ t, exec (.upstreamHubMessage c) s = .next t ∧ (t.dev.hub.at c).messages = rest ∧ s.counts t (Reg.hubLeafViolations i) ∧
        (s.dev.get (Reg.hubPoliceLimit c) ≤ times → 2 ≤ s.dev.get (Reg.hubLeafState i) → s.dev.get (Reg.hubLeafState i) ≤ 5 → s.dev.deviceUsed < 256 →
          t.dev.get (Reg.hubLeafState i) = 6 ∧ .hub c (s.dev.get (Reg.hubLeafDsSc i)) 0x25 m.leaf [2] ∈ t.dev.out ∧
            ∃ a, t.dev.sched.actions = s.dev.sched.actions ++ [a] ∧ a.cls = 10 ∧ a.origin = .device ∧ a.args = [c.val, m.leaf]) ∧
        (times < s.dev.get (Reg.hubPoliceLimit c) → t.dev.get (Reg.hubLeafState i) = s.dev.get (Reg.hubLeafState i) ∧ t.dev.sched.actions = s.dev.sched.actions) ∧
        s.leavesAt t lineRange (Reg.schedDeviceWaits.ref :: numbered) [.hub, .frm, .schedule])) ∧
    ∀ l : LeafNo,
      (s.dev.dead = false → s.dev.get (Reg.hubLeafState (leafIx c l)) = 2 →
        ∃ t, exec (.leafAssignTimeout c l) s = .next t ∧ t.dev.get (Reg.hubLeafState (leafIx c l)) = 1 ∧ s.leavesAt t lineAndFabric numbered [.hub, .fab]) ∧
      (s.dev.dead = false → s.dev.get (Reg.hubLeafState (leafIx c l)) ≠ 2 →
        ∃ t, exec (.leafAssignTimeout c l) s = .next t ∧ s.counts t Reg.schedStaleCount ∧ s.leaves t (counted Reg.schedStaleCount) []) ∧
      (s.dev.dead = false → s.dev.get (Reg.hubLeafState (leafIx c l)) = 4 →
        ∃ t, exec (.leafDeregTimeout c l) s = .next t ∧ t.dev.get (Reg.hubLeafState (leafIx c l)) = 1 ∧
          .hub c (s.dev.get (Reg.hubLeafDsSc (leafIx c l))) 0x25 l [3] ∈ t.dev.out ∧ s.leavesAt t lineAndFabric numbered [.hub, .fab, .frm]) ∧
      (s.dev.dead = false → s.dev.get (Reg.hubLeafState (leafIx c l)) ≠ 4 →
        ∃ t, exec (.leafDeregTimeout c l) s = .next t ∧ s.counts t Reg.schedStaleCount ∧ s.leaves t (counted Reg.schedStaleCount) []) ∧
      ∀ q : Req, s.fresh.writes q 1 (Reg.hubLeafEnable (leafIx c l)).ref = true →
        (∃ t, exec (.hubLeafEnableOn q c l) s = .next t ∧ t.dev.get (Reg.hubLeafEnable (leafIx c l)) = 1 ∧
          t.dev.get (Reg.hubLeafState (leafIx c l)) =
            (if s.dev.get (Reg.hubLeafState (leafIx c l)) = 0 then 1 else s.dev.get (Reg.hubLeafState (leafIx c l))) ∧
          s.leaves t ([(Reg.hubLeafEnable (leafIx c l)).ref, (Reg.hubLeafState (leafIx c l)).ref] ++ written (Reg.hubLeafEnable (leafIx c l)).ref ++
            noticed (Reg.hubLeafState (leafIx c l)).ref) [.store, .journal]) ∧
        ∃ t, exec (.hubLeafEnableOff q c l) s = .next t ∧ t.dev.get (Reg.hubLeafEnable (leafIx c l)) = 0 ∧ t.dev.get (Reg.hubLeafState (leafIx c l)) = 0 ∧
          (2 ≤ s.dev.get (Reg.hubLeafState (leafIx c l)) → .hub c (s.dev.get (Reg.hubLeafDsSc (leafIx c l))) 0x25 l [1] ∈ t.dev.out) ∧
          s.leavesAt t lineAndFabric (written (Reg.hubLeafEnable (leafIx c l)).ref) [.store, .journal, .hub, .fab, .frm]

/-! ### Packets (chapter 09) -/

/-- Packet configuration (R212, R219, R222, R239, R240): a port's mode sets its capacity, where its check allows; a flow record adds, replaces or deletes the flow of its key; a
queue record that Table 9.4 allows is in force; a flush waits for its fence; a write of the latch clears it and takes the queue off PKT_WM_LIST. -/
def Obligations.PacketConfigurationActs : Prop :=
  ∀ (s : State) (q : Req),
    (∀ (p : PortNo) (v : Val), s.fresh.writes q 1 (Reg.pktPortMode p).ref = true → v.len = 1 → v.raw ≤ 1 →
      (portModeCheck p v.raw s.dev = none →
        ∃ t, exec (.pktPortMode q p v) s = .next t ∧ t.dev.get (Reg.pktPortMode p) = v.raw ∧
          t.dev.get (Reg.pktPortCapacity p) = (if v.raw = 1 then s.dev.portCapacity p % 2 ^ 32 else 0) ∧
          s.leavesAt t [(0x3000, 0x4FFF)] (written (Reg.pktPortMode p).ref) [.store, .journal, .fab]) ∧
      ∀ e, portModeCheck p v.raw s.dev = some e →
        ∃ t, exec (.pktPortMode q p v) s = .next t ∧ t.answers (respOf q 2 e.status (errBytes e)) ∧ s.leaves t numbered []) ∧
    (∀ (rec : BitVec 576) (i : Nat × Instr), i ∈ [(1, Instr.flowAdd q rec), (2, .flowReplace q rec), (3, .flowDelete q rec)] →
      s.fresh.writes q 1 Reg.pktFlowEdit.ref = true → s.dev.asleep resHbm = false →
      let w := rec.toNat % 2 ^ 568 + i.1 * 2 ^ 568
      let k := bits w 511 192
      let n := flowOf w ((s.fresh.found q).now / fuCycle % 2 ^ 32)
      (s.dev.flowEditError s.dev.pkt.flows w = none →
        ∃ t, exec i.2 s = .next t ∧
          (i.1 = 1 → ∀ p fs, placeFlow s.dev.pkt.flows k = some (p, fs) → tblGet t.dev.pkt.flows k = some { n with pos := p } ∧
            ∀ j, j ≠ k → tblGet t.dev.pkt.flows j = tblGet fs j) ∧
          (i.1 = 2 → ∀ f, tblGet s.dev.pkt.flows k = some f →
            tblGet t.dev.pkt.flows k = some { f with valid := n.valid, action := n.action, queue := n.queue, cir := n.cir, cbs := n.cbs }) ∧
          (i.1 = 3 → tblGet t.dev.pkt.flows k = none) ∧ (i.1 ≠ 1 → ∀ j, j ≠ k → tblGet t.dev.pkt.flows j = tblGet s.dev.pkt.flows j) ∧
          t.dev.get Reg.pktFlowCount = (t.dev.pkt.flows.filter (·.2.valid)).length % 2 ^ 32 ∧
          s.leaves t (Reg.pktFlowCount.ref :: numbered) [.pkt, .journal]) ∧
      ∀ e, s.dev.flowEditError s.dev.pkt.flows w = some e →
        ∃ t, exec i.2 s = .next t ∧ t.answers (respOf q 5 e.status (errBytes e)) ∧ s.leaves t numbered []) ∧
    (∀ (crc : BitVec 32) (x : Transfer) (w : Nat), s.endsBlock q 1 Reg.pktQConfig.ref crc x → s.dev.asleep resHbm = false →
      x.data.length % 16 = 0 → recordsOf 16 x.data = [w] →
      (s.dev.queueError [w] = none →
        ∃ t, exec (.pktQConfig q crc) s = .next t ∧ (t.dev.queue (qcQueue w)).cfg = w ∧
          (qcEnable w = true → (s.dev.queue (qcQueue w)).state = 0 → (t.dev.queue (qcQueue w)).state = 1 ∨ qcDir w = 0 ∧ (t.dev.queue (qcQueue w)).state = 3) ∧
          (qcEnable w = false → s.dev.queueHolds (qcQueue w) = false → (t.dev.queue (qcQueue w)).state = 0) ∧
          (qcEnable w = false → s.dev.queueHolds (qcQueue w) = true → (s.dev.queue (qcQueue w)).state ≠ 0 →
            (t.dev.queue (qcQueue w)).flushing = true ∧ (t.dev.queue (qcQueue w)).disableAfter = true) ∧
          t.dev.dom Reg.pktQConfig.ref = t.dev.queueRecords ∧
          s.leaves t ([Reg.pktRateUsed.ref, Reg.pktSpillUsed.ref] ++ written Reg.pktQConfig.ref) [.stored, .pkt, .store, .journal]) ∧
      ∀ e, s.dev.queueError [w] = some e →
        ∃ t, exec (.pktQConfig q crc) s = .next t ∧ t.answers (respOf q 5 e.status (errBytes e)) ∧ s.leaves t numbered []) ∧
    (∀ v : Val, s.fresh.writes q 1 Reg.pktQFlush.ref = true → v.len = 4 → v.raw ≤ 262143 →
      ∃ t, exec (.pktQFlush q v) s = .next t ∧
        t.dev.queue v.raw = { s.dev.queue v.raw with flushing := (s.dev.queue v.raw).flushing || (s.dev.queue v.raw).state != 0 } ∧
        s.leaves t numbered [.pkt]) ∧
    ∀ v : Val, s.fresh.writes q 1 Reg.pktQWmLatch.ref = true → v.len = 4 → v.raw < 2 ^ 32 →
      ∃ t, exec (.pktQWmLatch q v) s = .next t ∧
        t.dev.queue (s.dev.get Reg.pktQSelect) = { s.dev.queue (s.dev.get Reg.pktQSelect) with latch := 0, wmFirst := 0 } ∧
        t.dev.pkt.wmList = s.dev.pkt.wmList.filter (· != s.dev.get Reg.pktQSelect) ∧ s.leaves t numbered [.pkt]

/-- Ingress (R213 to R217, R224 to R228, R239): a frame is classified from its bytes and its words go into its flow's queue, or where the miss action sends it; beyond PKT_MTU they are
taken back; at its end it is errored, policed, refused or committed with its deadline and counted as such; one that a fence met is discarded. -/
def Obligations.FramesEnterQueues : Prop :=
  ∀ (s : State) (p : PortNo),
    (∀ bytes : List Byte, let bs := bytes.map (·.toNat)
      let d := (tblGet s.dev.pkt.rx p).elim s.dev s.dev.dropOpen
      let begins := fun (t : State) (k : Nat) (flow : Option Nat) =>
        let x := d.queue k
        let l := (itemWords bs).dropLast
        let in_ := x.state != 0 && takesFrom x.cfg p
        tblGet t.dev.pkt.rx p = some ⟨some k, flow, false, bs, if in_ then l.length else 0⟩ ∧ t.dev.queue k = if in_ then l.foldl PktQueue.push x else x
      s.dev.classifies p bs = true →
      (s.dev.poisonedLookup p bs = false → ∀ k f, s.dev.lookup p bs = some (k, f) →
        ∃ t, exec (.ingressFrameStart p bytes false) s = .next t ∧ t.dev.portCount p 0 = s.dev.portCount p 0 + 1 ∧
          (f.action = 0 → begins t f.queue (some k)) ∧
          (f.action ≠ 0 → tblGet t.dev.pkt.rx p = some ⟨none, some k, false, bs, 0⟩ ∧ t.dev.portCount p 5 = s.dev.portCount p 5 + 1) ∧ s.leaves t [] [.pkt]) ∧
      ∀ bad : Bool, bad = true ∨ s.dev.poisonedLookup p bs = true ∨ s.dev.lookup p bs = none →
        let m := s.dev.get (Reg.pktPortMiss p)
        let met := bad || s.dev.poisonedLookup p bs
        ∃ t, exec (.ingressFrameStart p bytes bad) s = .next t ∧ t.dev.portCount p 0 = s.dev.portCount p 0 + 1 ∧
          (bits m 31 30 = 1 → begins t (m % 2 ^ 18) none) ∧
          (bits m 31 30 ≠ 1 → tblGet t.dev.pkt.rx p = some ⟨none, none, false, bs, 0⟩ ∧ t.dev.portCount p 5 = s.dev.portCount p 5 + 1) ∧
          (met = true → s.counts t (Reg.memPoisonConsumed 5) ∧ t.dev.portCount p 6 = s.dev.portCount p 6 + 1 ∧ t.dev.portCount p 9 = s.dev.portCount p 9 + 1) ∧
          s.leaves t (if met then poisonRefs 6 0x4FF0 else []) [.pkt]) ∧
    (∀ (bytes : List Byte) (bad : Bool), s.dev.classifies p (bytes.map (·.toNat)) = false →
      ∃ t, exec (.ingressFrameStart p bytes bad) s = .next t ∧ s.leaves t [] []) ∧
    (tblGet s.dev.pkt.rx p = none → (∃ t, exec (.ingressOversize p) s = .next t ∧ s.leaves t [] []) ∧
      ∀ (rest : List Byte) (err pois : Bool) (taken : Nat), ∃ t, exec (.ingressFrameEnd p rest err pois taken) s = .next t ∧ s.leaves t [] []) ∧
    ∀ f : RxFrame, tblGet s.dev.pkt.rx p = some f →
      (f.queue = none → (∃ t, exec (.ingressOversize p) s = .next t ∧ s.leaves t [] []) ∧
        ∀ (rest : List Byte) (err pois : Bool) (taken : Nat), ∃ t, exec (.ingressFrameEnd p rest err pois taken) s = .next t ∧
          tblGet t.dev.pkt.rx p = none ∧ s.leaves t [] [.pkt]) ∧
      ∀ k, f.queue = some k →
        (∃ t, exec (.ingressOversize p) s = .next t ∧ tblGet t.dev.pkt.rx p = some { f with queue := none, written := 0 } ∧
          t.dev.portCount p 4 = s.dev.portCount p 4 + 1 ∧ t.dev.queue k = (s.dev.queue k).undone f.written ∧ s.leaves t [] [.pkt]) ∧
        ∀ (rest : List Byte) (err pois : Bool) (taken : Nat),
          let x := (s.dev.reads k taken).queue k
          let bs := f.bytes ++ rest.map (·.toNat)
          let l := bs.length
          let errored := err || !fcsOk bs || decide (ceilDiv (s.dev.get Reg.pktMtu) 8 < ceilDiv l 8)
          let refs := noticed Reg.pktWmList.ref ++ if pois then Reg.memCounterResets.ref :: poisonRefs 7 0x4FF0 else []
          (f.fenced = true →
            ∃ t, exec (.ingressFrameEnd p rest err pois taken) s = .next t ∧ tblGet t.dev.pkt.rx p = none ∧
              t.dev.queue k = { x with fenceWords := x.fenceWords + ceilDiv l 8 } ∧ s.leaves t (noticed Reg.pktWmList.ref) [.pkt]) ∧
          (f.fenced = false → errored = true ∨ l < 64 →
            ∃ t, exec (.ingressFrameEnd p rest err pois taken) s = .next t ∧ tblGet t.dev.pkt.rx p = none ∧ t.dev.queue k = x.undone f.written ∧
              t.dev.portCount p 4 = s.dev.portCount p 4 + 1 ∧ s.leaves t refs [.pkt]) ∧
          (f.fenced = false → errored = false → 64 ≤ l →
            (∀ key g, f.flow = some key → tblGet s.dev.pkt.flows key = some g → g.cir ≠ 0 → (refill (s.dev.now / fuCycle % 2 ^ 32) g).tokens < l →
              ∃ t h, exec (.ingressFrameEnd p rest err pois taken) s = .next t ∧ tblGet t.dev.pkt.rx p = none ∧
                t.dev.queue k = (let y := x.undone f.written; { y with policed := y.policed + 1 }) ∧ t.dev.portCount p 3 = s.dev.portCount p 3 + 1 ∧
                tblGet t.dev.pkt.flows key = some h ∧ h.tokens = (refill (s.dev.now / fuCycle % 2 ^ 32) g).tokens ∧
                (pois = false → (h.recPoliced + h.polPkts) % 2 ^ 64 = (g.recPoliced + g.polPkts + 1) % 2 ^ 64) ∧ s.leaves t refs [.pkt]) ∧
            (s.dev.conforms f.flow l →
              (admits x l = false ∨ takesFrom x.cfg p = false →
                ∃ t, exec (.ingressFrameEnd p rest err pois taken) s = .next t ∧ tblGet t.dev.pkt.rx p = none ∧
                  t.dev.queue k = (let y := x.undone f.written; { y with refused := y.refused + 1 }) ∧
                  t.dev.portCount p 2 = s.dev.portCount p 2 + 1 ∧ s.leaves t refs [.pkt]) ∧
              (admits x l = true → takesFrom x.cfg p = true →
                ∃ t, exec (.ingressFrameEnd p rest err pois taken) s = .next t ∧ tblGet t.dev.pkt.rx p = none ∧
                  commits x (t.dev.queue k) s.dev.now l ((itemWords bs).drop f.written) ∧ t.dev.portCount p 1 = s.dev.portCount p 1 + 1 ∧
                  (∀ key g, f.flow = some key → tblGet s.dev.pkt.flows key = some g → ∃ h, tblGet t.dev.pkt.flows key = some h ∧
                    h.tokens = (if g.cir = 0 then g.tokens else (refill (s.dev.now / fuCycle % 2 ^ 32) g).tokens - l)) ∧
                  s.leaves t refs [.pkt])))

/-- Egress and draining (R227, R231, R233, R236 to R239): an item header opens an item or ends delineation; an item at its end is committed or rewound; a channel's and a port's item
boundary end what they sent and begin the committed item with the earliest deadline, a channel's item with its header, a port's as the frame its MAC sends; a fence discards what has
not begun, and the queue is done when nothing is. -/
def Obligations.ItemsLeaveQueues : Prop :=
  ∀ (s : State) (g : GroupNo),
    let e := s.dev.extOf g
    let header := Instr.extractorItemHeader g
    (s.dev.extractorFollows g = false →
      ∃ t, exec header s = .next t ∧ (t.dev.extOf g).lost = true ∧ (t.dev.extOf g).item = none ∧ (t.dev.extOf g).words = [] ∧
        (t.dev.extOf g).epoch = (s.dev.grp g).breaks ∧ s.leaves t [Reg.pktEgErrors.ref] [.pkt]) ∧
    (s.dev.extractorFollows g = true → s.dev.extractorRuns g = false →
      ∃ t, exec header s = .next t ∧ (t.dev.extOf g).item = none ∧ s.leaves t [Reg.pktEgErrors.ref] [.pkt]) ∧
    (s.dev.extractorFollows g = true → s.dev.extractorRuns g = true →
      (e.item ≠ none → ∃ t, exec header s = .next t ∧ s.leaves t [] []) ∧
      (e.item = none → e.seek = [] → ∃ t, exec header s = .next t ∧ t.dev.extOf g = { e with words := [] } ∧ s.leaves t [] [.pkt]) ∧
      ∀ h r, e.item = none → e.seek = h :: r →
        let l := bits h.data 63 50
        let bad := h.poison || crc16 48 (h.data / 2 ^ 16) != bits h.data 15 0 || decide (s.dev.get Reg.pktMtu < l) || (l != 0 && decide (l < 64))
        (bad = false →
          ∃ t, exec header s = .next t ∧ t.dev.extOf g = { e with lost := false, item := if l = 0 then none else some l, fenced := false, words := r } ∧
            (l ≠ 0 → s.dev.egressQueue g = none → s.counts t Reg.pktUnboundDiscards) ∧
            s.leaves t (if l ≠ 0 ∧ s.dev.egressQueue g = none then [Reg.pktUnboundDiscards.ref] else []) [.pkt]) ∧
        (bad = true →
          ∃ t, exec header s = .next t ∧ t.dev.extOf g = { e with lost := true, words := r } ∧ (e.lost = false → s.counts t Reg.pktEgDelin) ∧
            s.leaves t (if e.lost then [] else [Reg.pktEgDelin.ref]) [.pkt])) ∧
    (∀ (l taken : Nat), s.dev.extractorFollows g = true → e.item = some l →
      let n := ceilDiv l 8
      let body := e.words.take n
      let bs := (body.flatMap (fun w => beBytes 8 w.data)).take l
      let poison := body.any (·.poison)
      let rest := { e with words := e.words.drop n, item := none }
      (e.words.length < n → ∃ t, exec (.egressItemEnd g taken) s = .next t ∧ s.leaves t [] []) ∧
      (n ≤ e.words.length → s.dev.egressQueue g = none →
        ∃ t, exec (.egressItemEnd g taken) s = .next t ∧ t.dev.extOf g = { rest with fenced := false } ∧ s.leaves t [] [.pkt]) ∧
      (n ≤ e.words.length → ∀ k, s.dev.egressQueue g = some k →
        let x := (s.dev.reads k taken).queue k
        (e.fenced = false → poison = false → fcsOk bs = true →
          (admits x l = true →
            ∃ t, exec (.egressItemEnd g taken) s = .next t ∧ t.dev.extOf g = rest ∧ commits x (t.dev.queue k) s.dev.now l (itemWords bs) ∧
              s.leaves t (noticed Reg.pktWmList.ref) [.pkt]) ∧
          (admits x l = false →
            ∃ t, exec (.egressItemEnd g taken) s = .next t ∧ t.dev.extOf g = rest ∧ t.dev.queue k = { x with refused := x.refused + 1, rewound := x.rewound + 1 } ∧
              s.leaves t (noticed Reg.pktWmList.ref) [.pkt])) ∧
        (e.fenced = false → poison = true ∨ fcsOk bs = false →
          ∃ t, exec (.egressItemEnd g taken) s = .next t ∧ t.dev.extOf g = { rest with fenced := false } ∧
            t.dev.queue k = { s.dev.queue k with rewound := (s.dev.queue k).rewound + 1 } ∧ s.counts t Reg.pktEgErrors ∧
            (poison = true → s.counts t (Reg.memPoisonConsumed 3)) ∧ s.leaves t (Reg.pktEgErrors.ref :: if poison then poisonRefs 4 0x4FF0 else []) [.pkt]) ∧
        (e.fenced = true →
          ∃ t, exec (.egressItemEnd g taken) s = .next t ∧ t.dev.extOf g = { rest with fenced := false } ∧
            t.dev.queue k = { s.dev.queue k with fenceWords := (s.dev.queue k).fenceWords + n } ∧
            (poison = true → s.counts t (Reg.memPoisonConsumed 3)) ∧ s.leaves t (if poison then poisonRefs 4 0x4FF0 else []) [.pkt]))) ∧
    (let qs := s.dev.channelQueues g
      ∀ poison : Bool,
        (s.dev.boundaryDue g = false → ∃ t, exec (.channelItemBoundary g poison) s = .next t ∧ s.leaves t [] []) ∧
        (s.dev.boundaryDue g = true → (∀ q ∈ qs, q.2.begun = false) →
          (s.dev.channelBank.channelSize g = 0 ∨ earliest (qs.map (fun q => (q.1, s.dev.queue q.1))) none = none →
            ∃ t, exec (.channelItemBoundary g poison) s = .next t ∧ s.leaves t [] []) ∧
          ∀ k i, s.dev.channelBank.channelSize g ≠ 0 → earliest (qs.map (fun q => (q.1, s.dev.queue q.1))) none = some k → (k, s.dev.queue k) ∈ qs →
            (s.dev.queue k).items.head? = some i →
            ∃ t, exec (.channelItemBoundary g poison) s = .next t ∧ t.dev.queue k = { s.dev.queue k with begun := true, taken := 0 } ∧
              t.dev.chanOf g = { s.dev.chanOf g with bad := poison, words := (s.dev.chanOf g).words ++ [⟨itemHeader i.length, true, poison⟩] } ∧
              (poison = true → s.counts t (Reg.memPoisonConsumed 2)) ∧ s.leaves t (if poison then poisonRefs 3 0x4FF0 else []) [.pkt]) ∧
        ∀ k i r, s.dev.boundaryDue g = true → qs.filter (·.2.begun) = [(k, s.dev.queue k)] → (s.dev.queue k).items = i :: r →
          ∃ t, exec (.channelItemBoundary g poison) s = .next t ∧ (t.dev.queue k).items = r ∧
            (s.dev.endsLate k i = true → s.counts t Reg.pktLate) ∧ (s.dev.endsLate k i = false → t.dev.get Reg.pktLate = s.dev.get Reg.pktLate) ∧
            s.leaves t (Reg.pktLate.ref :: noticed Reg.pktWmList.ref ++ if poison then poisonRefs 3 0x4FF0 else []) [.pkt]) ∧
    (∀ (p : PortNo) (bad : Option Nat), let qs := s.dev.pkt.queues.filter (fun q => qcDir q.2.cfg == 1 && qcPort q.2.cfg == p.val)
      (∀ k i r, qs.filter (·.2.begun) = [(k, s.dev.queue k)] → (s.dev.queue k).items = i :: r →
        let n := if bad.isSome then 8 else 7
        ∃ t, exec (.portTxItemBoundary p bad) s = .next t ∧ (t.dev.queue k).items = r ∧ t.dev.portCount p n = s.dev.portCount p n + 1 ∧
          .clientFrame p (frameSent (wordBytes (tblGetD (s.dev.takeWords k (s.dev.queue k).left).pkt.tx p [])) bad) ∈ t.dev.out ∧ tblGet t.dev.pkt.tx p = none ∧
          (bad ≠ none → s.counts t Reg.pktEgPoison ∧ s.counts t (Reg.memPoisonConsumed 4)) ∧
          (s.dev.endsLate k i = true → s.counts t Reg.pktLate) ∧ (s.dev.endsLate k i = false → t.dev.get Reg.pktLate = s.dev.get Reg.pktLate) ∧
          s.leaves t (Reg.pktLate.ref :: noticed Reg.pktWmList.ref ++ if bad.isSome then Reg.pktEgPoison.ref :: poisonRefs 5 0x4FF0 else []) [.pkt]) ∧
      ((∀ q ∈ qs, q.2.begun = false) →
        (s.dev.get (Reg.lanePortState p) ≠ 2 ∨ earliest (qs.map (fun q => (q.1, s.dev.queue q.1))) none = none →
          ∃ t, exec (.portTxItemBoundary p bad) s = .next t ∧ s.leaves t [] []) ∧
        ∀ k, s.dev.get (Reg.lanePortState p) = 2 → earliest (qs.map (fun q => (q.1, s.dev.queue q.1))) none = some k →
          ∃ t, exec (.portTxItemBoundary p bad) s = .next t ∧ t.dev.queue k = { s.dev.queue k with begun := true, taken := 0 } ∧ s.leaves t [] [.pkt])) ∧
    ∀ (k : QueueNo) (taken : Nat), let x := s.dev.queue k
      (x.flushing = false → ∃ t, exec (.flushFence k taken) s = .next t ∧ s.leaves t [] []) ∧
      (x.flushing = true →
        ∃ t, exec (.flushFence k taken) s = .next t ∧ (t.dev.queue k).flushing = false ∧
          (∀ q f, tblGet s.dev.pkt.rx q = some f → f.queue = some k.val → tblGet t.dev.pkt.rx q = some { f with fenced := true, written := 0 }) ∧
          (qcDir x.cfg = 1 → (s.dev.extOf (qcGroup x.cfg)).item ≠ none → (t.dev.extOf (qcGroup x.cfg)).fenced = true) ∧
          (x.begun = false → (t.dev.queue k).items = [] ∧ (t.dev.queue k).content = [] ∧
            (t.dev.queue k).flushedItems = x.flushedItems + x.items.length ∧
            (x.disableAfter = true → (t.dev.queue k).state = 0) ∧ (x.disableAfter = false → (t.dev.queue k).state = 1 ∨ (t.dev.queue k).state = 3)) ∧
          (∀ i r, x.begun = true → x.items = i :: r →
            (t.dev.queue k).items = [i] ∧ (t.dev.queue k).state = 2 ∧ (t.dev.queue k).flushedItems = x.flushedItems + r.length) ∧
          s.leaves t (noticed Reg.pktWmList.ref) [.pkt]) ∧
      (x.state ≠ 2 → ∃ t, exec (.flushComplete k) s = .next t ∧ s.leaves t [] []) ∧
      (x.state = 2 → ∀ i r, x.begun = true → x.items = i :: r →
        ∃ t, exec (.flushComplete k) s = .next t ∧ (t.dev.queue k).items = r ∧ (t.dev.queue k).begun = false ∧
          (x.disableAfter = true → (t.dev.queue k).state = 0) ∧ (x.disableAfter = false → (t.dev.queue k).state ≠ 2) ∧
          (s.dev.endsLate k i = true → s.counts t Reg.pktLate) ∧ (s.dev.endsLate k i = false → t.dev.get Reg.pktLate = s.dev.get Reg.pktLate) ∧
          s.leaves t (Reg.pktLate.ref :: noticed Reg.pktWmList.ref) [.pkt])

/-! ### Memories (chapter 10) -/

/-- Memories (R244, R245, R248, R251 to R260, R262): a sweep read moves its class's position and counts, logs and poisons what its code makes of the errors found; a request is answered by
Table 10.7; a write of HBM or MRAM puts its bytes where a read finds them, every other byte as before; a poisoned response is counted as its consumer's; a buffered line and a stored
record become durable; a block that an uncorrectable error degrades counts a notice. -/
def Obligations.MemoriesAreSweptReadAndWritten : Prop :=
  ∀ s : State,
    (∀ (c : Fin 6) (k : Fin 4) (errs : Nat) (sym : Fin 72) (raced : Bool) (own : Fin 16), s.dev.dead = false →
      let u := tblGetD s.dev.mem.pos (sweepPlace (c.val + 1) k) 0
      let i := Instr.sweepRead c k errs sym raced own
      (s.dev.mayS (c.val + 1) k = false ∨ sweepUnits (c.val + 1) ≤ u → ∃ t, exec i s = .next t ∧ s.leaves t [] []) ∧
      (s.dev.mayS (c.val + 1) k = true → u < sweepUnits (c.val + 1) →
        let a := sweepAddress (c.val + 1) k u
        let found := s.dev.readFinds (c.val + 1) errs
        ∃ t, exec i s = .next t ∧ (u + 1 < sweepUnits (c.val + 1) → tblGetD t.dev.mem.pos (sweepPlace (c.val + 1) k) 0 = u + 1) ∧
          (s.dev.isPoisoned (c.val + 1) a = true → s.counts t (Reg.memPoisonReads c)) ∧
          (s.dev.isPoisoned (c.val + 1) a = false →
            (found = 0 → t.dev.mem.log = s.dev.mem.log) ∧
            (found ≠ 0 → raced = true → s.counts t Reg.memSweepCancels) ∧
            (found = 1 → s.counts t (Reg.memCeCount c) ∧ t.dev.mem.log.getLast? ≠ none) ∧
            (found = 2 → s.counts t (Reg.memUeCount c) ∧ bitAt (t.dev.get (blkFaults (blockIndices.getD own 0xFFF0))) 0 = true ∧
              (raced = false → t.dev.isPoisoned (c.val + 1) a = true))) ∧
          s.leavesAt t ([(0xF000, 0xFFFF), (0x9100, 0x910F)] ++ if c.val = 5 then [(0x2000, 0x3FFF), (0x6000, 0x6FFF)] else [])
            ((blkFaults (blockIndices.getD own 0xFFF0)).ref :: (noticed (blkState (blockIndices.getD own 0xFFF0)).ref ++ numbered))
            (.mem :: if c.val = 5 then [.sec, .tx, .itla, .aspi, .rx, .frm, .fab] else []))) ∧
    (∀ free : List (BitVec 32), s.dev.dead = false →
      ∃ t, exec (.ceRateSecond free) s = .next t ∧ t.dev.mem.ceSecond = [] ∧
        (∀ k : Fin 4, t.dev.get (Reg.memStackFree k) = ((free[k.val]?).getD 0).toNat % 2 ^ (Reg.memStackFree k).width) ∧
        s.leavesAt t [(0xF000, 0xFFFF), (0x9100, 0x910F)] numbered [.mem]) ∧
    (∀ (m : Fin 6) (g : Fin 4) (w : Bool) (ad : BitVec 48) (bs : List Byte) (len : Fin 65) (named mapped : Bool) (errs : Nat) (sym : Fin 72) (own : Fin 16)
        (rivals : List (Fin 6)), s.dev.dead = false →
      let n := if w then (bs.take 64).length else len.val
      let ahead := s.dev.ahead g m (rivals.map (·.val))
      let clocks := s.dev.grantClocks g m (rivals.map (·.val))
      let there := (g.val = 0 → mapped = true) ∧ (g.val ≠ 0 → ad.toNat + n ≤ targetBytes g)
      let i := Instr.matrixRequest m g w ad bs len named mapped errs sym own rivals
      (¬ there → ∃ t, exec i s = .next t ∧ .matrix m g 1 ahead clocks [] false ∈ t.dev.out ∧ s.counts t Reg.memDecodeErrors ∧
        s.leavesAt t [(0xF000, 0xFFFF), (0x9100, 0x910F)] numbered []) ∧
      (there → s.dev.permits m g w named ad.toNat n = false →
        ∃ t, exec i s = .next t ∧ .matrix m g 2 ahead clocks [] false ∈ t.dev.out ∧ s.counts t Reg.memDecodeErrors ∧
          s.leavesAt t [(0xF000, 0xFFFF), (0x9100, 0x910F)] numbered []) ∧
      (there → s.dev.permits m g w named ad.toNat n = true → w = true →
        ∃ t, exec i s = .next t ∧ tblGet t.dev.mem.parked g.val = some m.val ∧
          (g.val = 0 ∨ g.val = 3 → .matrix m g 0 ahead clocks [] false ∈ t.dev.out) ∧
          (g.val = 1 → .matrix m g 0 ahead clocks [] false ∈ t.dev.out ∧ ∀ x, x < 2 ^ 25 →
            t.dev.mramByte x = (if ad.toNat ≤ x ∧ x < ad.toNat + n then (bs.getD (x - ad.toNat) 0).toNat else s.dev.mramByte x)) ∧
          (g.val = 2 → ad.toNat % 64 = 0 → n = 64 → .matrix m g 0 ahead clocks [] false ∈ t.dev.out ∧ t.dev.isPoisoned 4 ad.toNat = false ∧ ∀ x,
            t.dev.hbmByte x = (if ad.toNat ≤ x ∧ x < ad.toNat + 64 then (bs.getD (x - ad.toNat) 0).toNat else s.dev.hbmByte x)) ∧
          (g.val = 2 → ad.toNat % 64 ≠ 0 ∨ n ≠ 64 → .matrix m g 3 ahead clocks [] false ∈ t.dev.out ∧ ∀ x, t.dev.hbmByte x = s.dev.hbmByte x) ∧
          (g.val ≠ 1 → ∀ x, t.dev.mramByte x = s.dev.mramByte x) ∧ (g.val ≠ 2 → ∀ x, t.dev.hbmByte x = s.dev.hbmByte x) ∧
          (s.dev.memWf → t.dev.memWf) ∧ s.leaves t [] [.mem]) ∧
      (there → s.dev.permits m g w named ad.toNat n = true → w = false →
        let stored := (unitsOf g ad.toNat n).any (s.dev.isPoisoned (targetClass g))
        let found := s.dev.readFinds (targetClass g) errs
        ∃ t data, exec i s = .next t ∧ .matrix m g 0 ahead clocks data (stored || found == 2) ∈ t.dev.out ∧ tblGet t.dev.mem.parked g.val = some m.val ∧
          (g.val = 1 → data = (List.range n).map (fun k => s.dev.mramByte (ad.toNat + k))) ∧
          (g.val = 2 → data = (List.range n).map (fun k => s.dev.hbmByte (ad.toNat + k))) ∧
          (stored = true → s.counts t (Reg.memPoisonReads (targetClass g - 1))) ∧
          (stored = false → found = 1 → s.counts t (Reg.memCeCount (targetClass g - 1))) ∧
          (stored = false → found = 2 → s.counts t (Reg.memUeCount (targetClass g - 1))) ∧
          (stored = true ∨ found = 2 → ∀ r, (m.val, r) ∈ [(0, if named then 9 else 8), (1, 7), (2, 10), (4, 11)] → s.counts t (Reg.memPoisonConsumed r)) ∧
          (∀ x, t.dev.mramByte x = s.dev.mramByte x) ∧ (∀ x, t.dev.hbmByte x = s.dev.hbmByte x) ∧
          s.leavesAt t ([(0xF000, 0xFFFF), (0x9100, 0x910F)] ++ if g.val = 3 then [(0x2000, 0x3FFF), (0x6000, 0x6FFF)] else [])
            ([(blkFaults (blockIndices.getD own 0xFFF0)).ref, (blkFaults 0x9FF0).ref, (blkFaults 0x7FF0).ref] ++
            noticed (blkState (blockIndices.getD own 0xFFF0)).ref ++ numbered) (.mem :: if g.val = 3 then [.sec, .tx, .itla, .aspi, .rx, .frm, .fab] else []))) ∧
    (∀ (ad : BitVec 25) (v : Nat), tblGet s.dev.mem.mramBuf (ad.toNat / 32) = some v →
      ((tblGet s.dev.mem.mramAt (ad.toNat / 32)).isSome = true → tblGetD s.dev.mem.mramAt (ad.toNat / 32) 0 + fuMs ≤ s.dev.now) →
      ∃ t, exec (.mramLineWrite (.line ad)) s = .next t ∧ (∀ k < 32, (Memory.read t.dev.mem.mram (32 * (ad.toNat / 32) + k)).toNat = byteOf 32 v k) ∧ tblGet t.dev.mem.mramBuf (ad.toNat / 32) = none ∧
        (∀ x, t.dev.mramByte x = s.dev.mramByte x) ∧ (s.dev.memWf → t.dev.memWf) ∧ s.leaves t [] [.mem]) ∧
    (∀ (ref : BitVec 24) (r : StoreRec), tblGet s.dev.store.live ref.toNat = some r →
      (∀ b ∈ s.dev.sched.bundles, b.preDurable = true ∨ b.values.all (fun m => m.ref != ref.toNat) = true) →
      ∃ t, exec (.mramLineWrite (.record ref)) s = .next t ∧ tblGet t.dev.store.live ref.toNat = some { r with before := none, waits := false } ∧
        s.leaves t [Reg.dictStoreState.ref] [.store]) ∧
    ∀ q : Req, s.fresh.writes q 2 Reg.memErrLogClear.ref = true →
      (∃ t, exec (.memErrLogClear q ⟨1, 1⟩) s = .next t ∧ t.dev.mem.log = [] ∧ t.answers (respOf q 2 stSuccess (beBytes 4 0)) ∧ s.leaves t numbered [.mem]) ∧
      ∃ t, exec (.memErrLogClear q ⟨1, 0⟩) s = .next t ∧ t.answers (respOf q 2 stSuccess (beBytes 4 0)) ∧ s.leaves t numbered []

/-! ### Timing (chapters 11 and 12) -/

/-- References are heard and told (R265 to R268, R290, R293): pulses are timestamped; a ToD message pairs with a pulse; PTP messages give the four times, the mean delay, the class
and the port state; ESMC gives the QL, DNU after its time-out; messages go out with the advertised QL; what is not well formed is counted. -/
def Obligations.ReferencesAreHeard : Prop :=
  ∀ s : State, s.dev.dead = false →
    (∀ (rising : Bool) (at_ : Nat), rising = (s.dev.get Reg.timeGnssEdge == 0) →
      ∃ t, exec (.gnssPpsEdge rising at_) s = .next t ∧ t.dev.tim.gnssEdge = some at_ ∧ t.dev.tim.gnssPulses = s.dev.tim.gnssPulses + 1 ∧ s.leaves t [] [.tim]) ∧
    (∀ (rising : Bool) (at_ : Nat), rising ≠ (s.dev.get Reg.timeGnssEdge == 0) → ∃ t, exec (.gnssPpsEdge rising at_) s = .next t ∧ s.leaves t [] []) ∧
    (∀ (k : Fin 2) (at_ : Nat), ∃ t, exec (.extRefEdge k at_) s = .next t ∧ tblGet t.dev.tim.extEdge k = some at_ ∧ s.leaves t [] [.tim]) ∧
    (∀ (st : Fin 4) (secs p : Nat), s.dev.tim.gnssEdge = some p → s.dev.now ≤ p + 500 * fuMs → s.dev.tim.gnssPaired ≠ some p →
      ∃ t, exec (.gnssTodMessage true st secs) s = .next t ∧ t.dev.tim.gnssPaired = some p ∧ t.dev.get Reg.timeGnssStatus = st ∧ t.dev.tim.gnssPulses = 0 ∧
        t.dev.tim.gnssBad = s.dev.tim.gnssSecs.any (fun x => secs != x + s.dev.tim.gnssPulses) ∧
        (∀ n, s.dev.candOf 1 = some n → s.dev.get (Reg.timeCandQlMode n) ≠ 1 → t.dev.get (Reg.timeCandQl n) = gnssQl st) ∧
        s.leavesAt t timing [] [.tim, .schedule]) ∧
    (∀ (v : Bool) (st : Fin 4) (secs : Nat), v = false ∨ s.dev.tim.gnssEdge.all (fun p => decide (p + 500 * fuMs < s.dev.now) || s.dev.tim.gnssPaired == some p) = true →
      ∃ t, exec (.gnssTodMessage v st secs) s = .next t ∧ s.counts t Reg.timeGnssTodErrors ∧ s.leaves t [Reg.timeGnssTodErrors.ref] []) ∧
    (∀ (p : Fin 8) (m : PtpMsg), s.dev.ptpRuns p = true →
      (m.good = false ∨ m.domain ≠ s.dev.get (Reg.timePtpDomain p) ∨ m.kind = 5 ∨ (m.kind = 1 ∧ (s.dev.ptpPort p).awaits.all (fun a => a.1 != m.seqId) = true) ∨
          (m.kind = 2 ∧ ((s.dev.ptpPort p).t1 = none ∨ (s.dev.ptpPort p).t2 = none ∨ (s.dev.ptpPort p).t3 = none)) →
        ∃ t, exec (.ptpMessage p m) s = .next t ∧ s.counts t (Reg.timePtpRxErrors p) ∧ s.leaves t [(Reg.timePtpRxErrors p).ref] []) ∧
      (m.good = true → m.domain = s.dev.get (Reg.timePtpDomain p) →
        (m.kind = 0 → m.twoStep = false →
          ∃ t, exec (.ptpMessage p m) s = .next t ∧ (t.dev.ptpPort p).t1 = some m.time ∧ (t.dev.ptpPort p).t2 = some m.arrival ∧
            (t.dev.ptpPort p).syncAt = some m.arrival ∧
            (t.dev.ptpPort p).thetas = (s.dev.ptpPort p).thetas ++ (if (s.dev.ptpPort p).measured = true ∧ s.dev.get (Reg.timePtpState p) = 9 then
              [roundInt (((m.arrival : Int) - m.time) * 1000) 65536 - s.dev.getI (Reg.timePtpMeanDelay p) - s.dev.getI (Reg.timePtpAsym p)] else []) ∧
            s.leaves t [] [.tim]) ∧
        (m.kind = 0 → m.twoStep = true →
          ∃ t, exec (.ptpMessage p m) s = .next t ∧ (t.dev.ptpPort p).awaits = some (m.seqId, m.arrival) ∧ s.leaves t [] [.tim]) ∧
        (∀ a, m.kind = 1 → (s.dev.ptpPort p).awaits = some (m.seqId, a) →
          ∃ t, exec (.ptpMessage p m) s = .next t ∧ (t.dev.ptpPort p).t1 = some m.time ∧ (t.dev.ptpPort p).t2 = some a ∧ s.leaves t [] [.tim]) ∧
        (∀ t1 t2 t3, m.kind = 2 → (s.dev.ptpPort p).t1 = some t1 → (s.dev.ptpPort p).t2 = some t2 → (s.dev.ptpPort p).t3 = some t3 →
          ∃ t, exec (.ptpMessage p m) s = .next t ∧ (t.dev.ptpPort p).measured = true ∧
            t.dev.get (Reg.timePtpMeanDelay p) = ofSigned (Reg.timePtpMeanDelay p).width (pathDelay t1 t2 t3 m.time) % 2 ^ (Reg.timePtpMeanDelay p).width ∧
            s.leaves t [(Reg.timePtpMeanDelay p).ref] [.tim]) ∧
        (m.kind = 3 → s.dev.get (Reg.timePtpState p) = 6 →
          ∃ t, exec (.ptpMessage p m) s = .next t ∧ .ptp p 9 (s.dev.ptpTo p ++ [fuToTime96 m.arrival]) ∈ t.dev.out ∧ s.leaves t [] []) ∧
        (m.kind = 3 → s.dev.get (Reg.timePtpState p) ≠ 6 → ∃ t, exec (.ptpMessage p m) s = .next t ∧ s.leaves t [] []) ∧
        (m.kind = 4 →
          ∃ t, exec (.ptpMessage p m) s = .next t ∧ t.dev.get (Reg.timePtpClassRx p) = m.clockClass % 2 ^ (Reg.timePtpClassRx p).width ∧
            t.dev.get (Reg.timePtpState p) =
              ptpVerdict (s.dev.get (Reg.timePtpRole p)) (s.dev.get Reg.schedTimeState) (s.dev.get (Reg.timePtpState p)) m.verdict ∧
            (∀ n, s.dev.candOf (0x10 + p) = some n → (t.dev.cand n).steps = m.steps % 256 ∧
              (s.dev.get (Reg.timeCandQlMode n) ≠ 1 → t.dev.get (Reg.timeCandQl n) = qlOfClass m.clockClass)) ∧
            s.leavesAt t timing [] [.tim, .schedule]))) ∧
    (∀ p : Fin 8, s.dev.ptpRuns p = true →
      (s.dev.get (Reg.timePtpState p) = 6 →
        (∃ t, exec (.ptpMessageTransmit p 0) s = .next t ∧ .ptp p 0 (s.dev.ptpTo p ++ [fuToTime96 s.dev.now]) ∈ t.dev.out ∧ s.leaves t [] []) ∧
        ∃ t, exec (.ptpMessageTransmit p 1) s = .next t ∧
          .ptp p 11 (s.dev.ptpTo p ++ [clockClassOf s.dev.advertised, s.dev.get (Reg.timePtpLocalPrio p), s.dev.stepsSent]) ∈ t.dev.out ∧ s.leaves t [] []) ∧
      (s.dev.get (Reg.timePtpState p) = 9 →
        ∃ t, exec (.ptpMessageTransmit p 2) s = .next t ∧ .ptp p 1 (s.dev.ptpTo p) ∈ t.dev.out ∧ (t.dev.ptpPort p).t3 = some s.dev.now ∧ s.leaves t [] [.tim])) ∧
    (∀ p : Fin 8, s.dev.get (Reg.timeSynceLane p) ≠ 0xFF →
      (∀ (ssm : BitVec 4) (e : Option (BitVec 8)),
        let code := if s.dev.on (Reg.timeSynceEnhanced p) then (e.map (·.toNat)).getD ssm.toNat else ssm.toNat
        (∃ t, exec (.esmcMessage p true ssm e) s = .next t ∧ t.dev.get (Reg.timeSynceQlRx p) = code ∧
          (∀ n, s.dev.candOf (0x20 + p) = some n → s.dev.get (Reg.timeCandQlMode n) ≠ 1 → t.dev.get (Reg.timeCandQl n) = qlOfSsm code) ∧
          s.leavesAt t timing [] [.tim, .schedule]) ∧
        ∃ t, exec (.esmcMessage p false ssm e) s = .next t ∧ s.counts t (Reg.timeSynceEsmcErrors p) ∧ s.leaves t [(Reg.timeSynceEsmcErrors p).ref] []) ∧
      (s.dev.get (Reg.timeSynceQlRx p) = 0x0F →
        ∃ t, exec (.esmcTimeout p) s = .next t ∧ s.counts t Reg.schedStaleCount ∧ s.leaves t (counted Reg.schedStaleCount) []) ∧
      (s.dev.get (Reg.timeSynceQlRx p) ≠ 0x0F →
        ∃ t, exec (.esmcTimeout p) s = .next t ∧ t.dev.get (Reg.timeSynceQlRx p) = 0x0F ∧
          (∀ n, s.dev.candOf (0x20 + p) = some n → s.dev.get (Reg.timeCandQlMode n) ≠ 1 → t.dev.get (Reg.timeCandQl n) = 15) ∧
          s.leavesAt t timing [] [.tim, .schedule]) ∧
      (s.dev.on (Reg.timeSynceEsmcTx p) = true →
        ∃ t, exec (.esmcMessageTransmit p) s = .next t ∧
          .esmc p (if s.dev.get Reg.timeSelected ≠ 0xFF ∧ s.dev.get (Reg.timeCandSource (s.dev.get Reg.timeSelected)) = 0x20 + p then 0x0F
            else ssmOfQl (s.dev.on (Reg.timeSynceEnhanced p)) s.dev.advertised) ∈ t.dev.out ∧ s.leaves t [] [])) ∧
    ∀ p, s.dev.tim.ppsAt = some p → bitAt s.dev.driving 4 = true →
      ∃ t, exec .todTxStart s = .next t ∧ .tod (fuToTime96 p) s.dev.advertised (s.dev.get Reg.timeTodBaud) ∈ t.dev.out ∧ s.leaves t [] []

/-- Candidates and the reference (R263, R264, R269, R270, R276, R277, R280, R288): a source as its check allows; a fault makes a candidate Failed, its end starts proofing, proofing
ends in Qualified; a change that fires selects a Qualified candidate with a build-out; PPS boundaries take the measurements, drive the edges and count temperatures. -/
def Obligations.CandidatesAreSelected : Prop :=
  ∀ s : State, s.dev.dead = false →
    (∀ (n : Fin 16) (f : Fin 4),
      (∀ b, s.dev.get (Reg.timeCandSource n) = 0 ∨ bitAt (s.dev.get (Reg.timeCandFaults n)) f = b →
        ∃ t, exec (.candidateFaultChange n f b) s = .next t ∧ s.leaves t [] []) ∧
      (∀ b, s.dev.get (Reg.timeCandSource n) ≠ 0 → bitAt (s.dev.get (Reg.timeCandFaults n)) f = !b → s.dev.faultHolds n f = some (!b) →
        ∃ t, exec (.candidateFaultChange n f b) s = .next t ∧ s.counts t Reg.schedStaleCount ∧ s.leaves t (counted Reg.schedStaleCount) []) ∧
      (s.dev.get (Reg.timeCandSource n) ≠ 0 → bitAt (s.dev.get (Reg.timeCandFaults n)) f = false → s.dev.faultHolds n f ≠ some false →
        ∃ t, exec (.candidateFaultChange n f true) s = .next t ∧ bitAt (t.dev.get (Reg.timeCandFaults n)) f = true ∧ t.dev.get (Reg.timeCandState n) = 1 ∧
          (s.dev.get (Reg.timeCandState n) ≠ 1 → s.counts t (Reg.timeCandFails n) ∧ t.dev.get Reg.timeSelected ≠ n) ∧
          s.leavesAt t timing [] [.tim, .schedule]) ∧
      (s.dev.get (Reg.timeCandSource n) ≠ 0 → s.dev.get (Reg.timeCandFaults n) = 2 ^ f.val → s.dev.get (Reg.timeCandState n) = 1 → s.dev.faultHolds n f ≠ some true →
        ∃ t, exec (.candidateFaultChange n f false) s = .next t ∧ t.dev.get (Reg.timeCandFaults n) = 0 ∧ t.dev.get (Reg.timeCandState n) = 2 ∧
          s.leavesAt t timing [] [.tim, .schedule])) ∧
    (∀ n : Fin 16,
      (s.dev.get (Reg.timeCandState n) = 2 →
        ∃ t, exec (.proofingExpiry n) s = .next t ∧ (t.dev.get (Reg.timeCandState n) = 3 ∨ t.dev.get (Reg.timeCandState n) = 4) ∧
          (s.dev.get (Reg.timeCandPriority n) = 0 → t.dev.get (Reg.timeCandState n) = 3) ∧ t.dev.get (Reg.timeCandProofLeft n) = 0 ∧
          s.leavesAt t timing [] [.tim, .schedule]) ∧
      (s.dev.get (Reg.timeCandState n) ≠ 2 →
        ∃ t, exec (.proofingExpiry n) s = .next t ∧ s.counts t Reg.schedStaleCount ∧ s.leaves t (counted Reg.schedStaleCount) [])) ∧
    (∀ (q : Req) (n : Fin 16) (v : Val), s.fresh.writes q 1 (Reg.timeCandSource n).ref = true → v.len = 1 → v.raw < 256 →
      (candSourceCheck n v.raw s.dev = none →
        ∃ t, exec (.timeCandSource q n v) s = .next t ∧ t.dev.get (Reg.timeCandSource n) = v.raw ∧
          t.dev.get (Reg.timeCandFaults n) = (if v.raw = 0 then 0 else (s.fresh.found q).faultsShown v.raw) ∧
          t.dev.get (Reg.timeCandState n) = (if v.raw = 0 then 0 else if (s.fresh.found q).faultsShown v.raw ≠ 0 then 1 else 2) ∧
          s.leavesAt t timing (written (Reg.timeCandSource n).ref) [.tim, .schedule, .store, .journal]) ∧
      ∀ e, candSourceCheck n v.raw s.dev = some e →
        ∃ t, exec (.timeCandSource q n v) s = .next t ∧ t.answers (respOf q 2 e.status (errBytes e)) ∧ s.leaves t numbered []) ∧
    (∀ (h : BitVec 32) (a : Action) (phase : Int), s.dev.fires h.toNat a 4 → a.value < 16 →
      (s.dev.get (Reg.timeCandState a.value) = 3 → s.dev.get (Reg.timeCandPriority a.value) ≠ 0 → s.dev.get (Reg.timeCandQl a.value) < 15 →
        s.dev.standby = false →
        ∃ t, exec (.referenceChange h phase false) s = .next t ∧ t.dev.get Reg.timeSelected = a.value ∧ t.dev.get (Reg.timeCandState a.value) = 5 ∧
          s.counts t Reg.timeSwitches ∧ (s.dev.candF a.value = false → t.dev.get Reg.schedTimeState = 2) ∧
          (s.dev.candF a.value = false → s.dev.get Reg.schedTimeState = 2 → s.dev.get Reg.timeLoopMode ≠ 1 →
            t.dev.tim.pull = (if phase = 0 then none else some (phase, s.dev.now, s.dev.slope))) ∧
          s.leavesAt t timing (written Reg.timeForce.ref) [.tim, .schedule, .store, .journal]) ∧
      (s.dev.get (Reg.timeCandState a.value) ≠ 3 →
        ∃ t, exec (.referenceChange h phase false) s = .next t ∧ s.counts t Reg.schedFailedCount ∧
          s.leavesAt t timing [] [.tim, .schedule])) ∧
    (s.dev.tim.pull.isSome = true →
      ∃ t, exec .pullComplete s = .next t ∧ t.dev.tim.pull = none ∧ s.leaves t (Reg.timePullLeft.ref :: numbered) [.tim]) ∧
    (s.dev.tim.pull = none →
      (∃ t, exec .pullComplete s = .next t ∧ s.counts t Reg.schedStaleCount ∧ s.leaves t (counted Reg.schedStaleCount) []) ∧
      (s.dev.get Reg.timeLock = 1 → s.dev.get Reg.timeSelected ≠ 0xFF →
        ∃ t, exec .lockWindowReached s = .next t ∧ t.dev.get Reg.timeLock = (if s.dev.get Reg.timeLoopMode = 1 then 5 else 2) ∧ t.dev.tim.locked = true ∧
          s.leaves t ([Reg.timeLock.ref, Reg.timeHoState.ref] ++ numbered) [.tim])) ∧
    ∀ (meas : List CandMeas) (mean now : Int), s.dev.now % fuSec = 0 →
      ∃ t, exec (.ppsBoundary meas mean now) s = .next t ∧
        (∀ (n : Fin 16) m, meas[n.val]? = some m → (s.dev.measOf n m).measured = true → s.dev.candClass n ≠ 0 →
          t.dev.get (Reg.timeCandFreq n) = ofSigned (Reg.timeCandFreq n).width m.freq % 2 ^ (Reg.timeCandFreq n).width ∧
          (s.dev.candClass n ≠ 3 → t.dev.get (Reg.timeCandPhase n) =
            ofSigned (Reg.timeCandPhase n).width ((s.dev.measOf n m).phase - s.dev.getI (Reg.timeCandDelay n)) % 2 ^ (Reg.timeCandPhase n).width)) ∧
        (s.dev.driving ≠ 0 → t.dev.tim.ppsAt = some s.dev.now ∧ ∀ k : Fin 2, ∃ x, .pps k x (s.dev.get (Reg.timePpsWidth k)) ∈ t.dev.out ∧
          (s.dev.tim.outNext = [] → x = tblGetD s.dev.tim.outForce k 0)) ∧
        t.dev.tim.ho.temps = [] ∧
        t.dev.tim.ho.tempLost = (if 5 ≤ s.dev.tim.ho.temps.length then 0 else s.dev.tim.ho.tempLost + 1) ∧
        s.leavesAt t timing [Reg.calTimeApplied.ref, Reg.twinOutMissed.ref] [.tim, .schedule, .stored]

/-- The loop in software, the outputs and line time transfer (R283 to R287, R292): entry and exit fire as written; a frequency takes effect at the next calendar boundary, a phase at
once; the watchdog brings the hardware loop back; the first frame of an interval is marked; an exchange gives offset and mean delay. -/
def Obligations.LoopAndLineTimeTransfer : Prop :=
  ∀ s : State,
    (∀ (h : BitVec 32) (a : Action), s.dev.fires h.toNat a 8 → a.target = Reg.timeLoopMode.ref →
      (a.value = 1 →
        ∃ t, exec (.softwareLoopEntry h false) s = .next t ∧ t.dev.get Reg.timeLoopMode = 1 ∧ t.dev.get Reg.timeLock = 5 ∧ t.dev.tim.pull = none ∧
          s.leaves t ([Reg.timeLoopMode.ref, Reg.timeLock.ref] ++ fired ++ written Reg.timeLoopMode.ref) [.tim, .schedule, .store, .journal]) ∧
      (a.value = 0 → ∀ phase : Int,
        ∃ t, exec (.softwareLoopExit h phase false) s = .next t ∧ t.dev.get Reg.timeLoopMode = 0 ∧ t.dev.getI Reg.timeLoopFreq = clampLoop (s.dev.getI Reg.timeSwFreq) ∧
          (s.dev.get Reg.timeSelected ≠ 0xFF → t.dev.get Reg.timeLock = 1 ∧
            t.dev.tim.pull = (if phase = 0 ∨ s.dev.candF (s.dev.get Reg.timeSelected) = true then none else some (phase, s.dev.now, s.dev.slope))) ∧
          (s.dev.get Reg.timeSelected = 0xFF → t.dev.tim.pull = none ∧
            t.dev.get Reg.timeLock = (if s.dev.get Reg.schedTimeState = 3 then 4 else if s.dev.get Reg.schedTimeState = 2 then 3 else 0)) ∧
          s.leaves t ([Reg.timeLoopMode.ref, Reg.timeLock.ref, Reg.timeLoopFreq.ref] ++ fired ++ written Reg.timeLoopMode.ref)
            [.tim, .schedule, .store, .journal])) ∧
    (∀ (q : Req) (v : Val), s.fresh.writes q 1 Reg.timeSwFreq.ref = true → valueCheck Reg.timeSwFreq (.span (-50000000000) 50000000000) v = none →
      ∃ t, exec (.timeSwFreq q v) s = .next t ∧ t.dev.get Reg.timeSwFreq = v.raw ∧
        (s.dev.get Reg.timeLoopMode = 1 → t.dev.tim.cNext = some (toSigned 64 v.raw)) ∧
        s.leaves t (Reg.timeSwFreq.ref :: written Reg.timeSwFreq.ref) [.tim, .store, .journal]) ∧
    (∀ (q : Req) (v : Val), s.fresh.writes q 1 Reg.timeSwPhase.ref = true → valueCheck Reg.timeSwPhase (rangeOf Reg.timeSwPhase.ref) v = none →
      ∃ t, exec (.timeSwPhase q v) s = .next t ∧
        t.dev.tim.pull = (if toSigned 64 v.raw = 0 then none else some (toSigned 64 v.raw, (s.fresh.found q).now, s.dev.get Reg.timeSlope)) ∧ s.leaves t numbered [.tim]) ∧
    (s.dev.dead = false → s.dev.get Reg.timeLoopMode = 1 → s.dev.deviceUsed < 256 →
      ∃ t a, exec .swWatchdogExpiry s = .next t ∧ t.dev.sched.actions = s.dev.sched.actions ++ [a] ∧ a.cls = 8 ∧ a.target = Reg.timeLoopMode.ref ∧
        a.value = 0 ∧ a.origin = .device ∧ s.leaves t (numbered ++ noticed Reg.timeLoopMode.ref) [.schedule]) ∧
    (s.dev.dead = false → s.dev.get Reg.timeLoopMode ≠ 1 →
      ∃ t, exec .swWatchdogExpiry s = .next t ∧ s.counts t Reg.schedStaleCount ∧ s.leaves t (counted Reg.schedStaleCount) []) ∧
    (∀ (q : Req) (freq : Bool) (k : Fin 2) (v : Val), s.fresh.writes q 1 (outObj freq k).ref = true → valueCheck (outObj freq k) (outRange freq) v = none →
      ∃ t, exec (.timePpsOffset q freq k v) s = .next t ∧ t.dev.get (outObj freq k) = v.raw ∧
        tblGet t.dev.tim.outNext (k + 2 * b2n freq) = some ((outObj freq k).asInt v.raw, (s.fresh.found q).now) ∧
        s.leaves t ((outObj freq k).ref :: written (outObj freq k).ref) [.tim, .store, .journal]) ∧
    ∀ c : CarrierNo, s.dev.dead = false →
      (∀ (g : Nat) (off : BitVec 32), s.dev.txReference c = some g → s.dev.get (Reg.lineTxState c) ≠ 0 → (s.dev.frm.at c).tickAt ≠ 0 →
        (s.dev.tim.lt.at c).marks.all (fun m => m.interval != (s.dev.frm.at c).tickAt / fuMark) = true →
        let loop := s.dev.get Reg.timeSelected != 0xFF && s.dev.get (Reg.timeCandSource (s.dev.get Reg.timeSelected)) == 0x30 + c.val
        ∃ t m src, exec (.ttMarkInterval c off) s = .next t ∧ (t.dev.tim.lt.at c).marks = (m :: (s.dev.tim.lt.at c).marks).take 16 ∧
          m.tick = (s.dev.frm.at c).tickAt ∧ m.offset = off.toNat ∧ m.frame = ((s.dev.txg c g).frameCount + 2 ^ 48 - 1) % 2 ^ 48 ∧ m.interval = m.tick / fuMark ∧
          (let w := ttInfoWord m.frame (fuToTime96 m.tick) (s.dev.get Reg.schedTimeState) s.dev.advertised s.dev.stepsSent loop src off.toNat (s.dev.txFreq c).toNat
           .ttInfo c g w ∈ t.dev.out ∧ (t.dev.frm.at c).slots = (s.dev.frm.at c).slots ++ [⟨17, [g], false, 0, w⟩]) ∧
          s.leaves t [] [.tim, .frm]) ∧
      (s.dev.txReference c = none ∨ s.dev.get (Reg.lineTxState c) = 0 ∨ (s.dev.frm.at c).tickAt = 0 →
        ∀ off : BitVec 32, ∃ t, exec (.ttMarkInterval c off) s = .next t ∧ s.leaves t [] []) ∧
      ∀ (g : ScNo) (msg : BitVec 512) (failed : Bool), let w := msg.toNat
        (∀ arrival : Nat, let i := Instr.ttInfo c g msg failed arrival
          (s.dev.on (Reg.hubEnable c) = true ∨ slotType w ≠ 0x10 → ∃ t, exec i s = .next t ∧ s.leaves t [] []) ∧
          (s.dev.on (Reg.hubEnable c) = false → slotType w = 0x10 →
            (s.dev.takesTime c g = false → ∃ t, exec i s = .next t ∧ s.counts t (Reg.frmSlotDiscards c) ∧ s.leaves t [(Reg.frmSlotDiscards c).ref] []) ∧
            (s.dev.takesTime c g = true → failed = true ∨ (s.dev.rxg c g).stamp ≠ ttStamp (time96ToFu (ttTime w)) →
              ∃ t, exec i s = .next t ∧ (failed = false → (t.dev.tim.lt.at c).stampBad = true) ∧ s.counts t (Reg.timeLtDiscards c) ∧
                s.leaves t (counted (Reg.timeLtDiscards c)) [.tim]) ∧
            (s.dev.takesTime c g = true → failed = false → (s.dev.rxg c g).stamp = ttStamp (time96ToFu (ttTime w)) →
              ∃ t, exec i s = .next t ∧ (t.dev.tim.lt.at c).stampBad = false ∧ (t.dev.tim.lt.at c).infoAt = some s.dev.now ∧
                (t.dev.tim.lt.at c).kept = (⟨ttFrame w, time96ToFu (ttTime w), ttOffset w, arrival, arrival / fuMark⟩ :: (s.dev.tim.lt.at c).kept).take 16 ∧
                t.dev.get (Reg.timeLtFarFreq c) = ttFreq w ∧ t.dev.get (Reg.timeLtFarQl c) = ttQl w ∧
                (∀ h, s.dev.txReference c = some h → let v := ttReturnWord (ttFrame w) (fuToTime96 arrival) (s.dev.getI (Reg.lineRxCd c)) (s.dev.cdTracked c)
                  .ttReturn c h v ∈ t.dev.out ∧ (t.dev.frm.at c).slots = (s.dev.frm.at c).slots ++ [⟨1, [h], false, 0, v⟩]) ∧
                (∀ n, s.dev.candOf (0x30 + c) = some n → (t.dev.cand n).steps = ttSteps w ∧
                  (s.dev.get (Reg.timeCandQlMode n) ≠ 1 → t.dev.get (Reg.timeCandQl n) = (if ttLoop w = true ∨ ttState w = 0 then 15 else ttQl w))) ∧
                s.leavesAt t timing [] [.tim, .schedule, .frm]))) ∧
        let i := Instr.ttReturn c g msg failed
        (s.dev.on (Reg.hubEnable c) = true ∨ slotType w ≠ 0x11 → ∃ t, exec i s = .next t ∧ s.leaves t [] []) ∧
        (s.dev.on (Reg.hubEnable c) = false → slotType w = 0x11 →
          (s.dev.takesTime c g = false → ∃ t, exec i s = .next t ∧ s.counts t (Reg.frmSlotDiscards c) ∧ s.leaves t [(Reg.frmSlotDiscards c).ref] []) ∧
          (s.dev.takesTime c g = true → failed = true ∨
              ((s.dev.tim.lt.at c).marks.find? (fun m => m.frame == ttFrame w)).bind (fun h => (s.dev.tim.lt.at c).kept.find? (fun m => m.interval == h.interval)) = none →
            ∃ t, exec i s = .next t ∧ s.counts t (Reg.timeLtDiscards c) ∧ s.leaves t (counted (Reg.timeLtDiscards c)) []) ∧
          ∀ h k, s.dev.takesTime c g = true → failed = false → (s.dev.tim.lt.at c).marks.find? (fun m => m.frame == ttFrame w) = some h →
            (s.dev.tim.lt.at c).kept.find? (fun m => m.interval == h.interval) = some k →
            let asym := s.dev.asymmetry c (ttCd w) (ttCdValid w && s.dev.cdTracked c)
            (asym = none → ∃ t, exec i s = .next t ∧ s.counts t (Reg.timeLtDiscards c) ∧ s.leaves t ((Reg.timeLtFarCd c).ref :: counted (Reg.timeLtDiscards c)) []) ∧
            ∀ a, asym = some a →
              let r := exchange k h (time96ToFu (ttTime w)) a (Config.ttRefer (s.dev.getI (Reg.lineRxClockOffset c)) k.arrival h.tick)
              ∃ t, exec i s = .next t ∧
                t.dev.get (Reg.timeLtOffset c) = ofSigned (Reg.timeLtOffset c).width r.1 % 2 ^ (Reg.timeLtOffset c).width ∧
                t.dev.get (Reg.timeLtMeanDelay c) = ofSigned (Reg.timeLtMeanDelay c).width r.2 % 2 ^ (Reg.timeLtMeanDelay c).width ∧
                t.dev.get (Reg.timeLtAsymUsed c) = ofSigned (Reg.timeLtAsymUsed c).width a % 2 ^ (Reg.timeLtAsymUsed c).width ∧
                s.counts t (Reg.timeLtExchanges c) ∧ (t.dev.tim.lt.at c).exchangeAt = some s.dev.now ∧ (t.dev.tim.lt.at c).thetas = (s.dev.tim.lt.at c).thetas ++ [r.1] ∧
                s.leaves t ([(Reg.timeLtOffset c).ref, (Reg.timeLtMeanDelay c).ref, (Reg.timeLtFarCd c).ref, (Reg.timeLtAsymUsed c).ref,
                  (Reg.timeLtExchanges c).ref] ++ numbered) [.tim])

/-- The starter (R297 to R300, R312, R314): a conversion in its table is a temperature of the second; ten seconds without one are a fault; sixteen learning seconds make a sample;
64 outliers in a row are a retrace; an hour's learning refits the model; history and model can be imported, and the history cleared, while holdover does not rest on them. -/
def Obligations.StarterLearns : Prop :=
  ∀ s : State,
    (s.dev.dead = false →
      (∀ (code : Int) (beyond : Bool), let x := s.dev.corrected (clampCode code)
        let chan := s.dev.get Reg.timeHoThermChan
        (chan = 0xFF ∨ s.dev.get Reg.monRefState ≠ 2 ∨ s.dev.mon.work = .selfCal → ∃ t, exec (.thermConversion code beyond) s = .next t ∧ s.leaves t [] []) ∧
        (chan ≠ 0xFF → s.dev.get Reg.monRefState = 2 → s.dev.mon.work ≠ .selfCal →
          ∃ t, exec (.thermConversion code beyond) s = .next t ∧
            t.dev.get (Reg.monChLast (chan % 32)) = resultWord s.dev.now x beyond false % 2 ^ (Reg.monChLast 0).width ∧
            (∀ y, beyond = false → interpolate s.dev.thermTable x = some y → t.dev.tim.ho.temps = s.dev.tim.ho.temps ++ [y]) ∧
            (beyond = true ∨ interpolate s.dev.thermTable x = none → t.dev.tim.ho.temps = s.dev.tim.ho.temps) ∧
            (beyond = true → s.counts t Reg.monOvrCount) ∧
            s.leaves t ((Reg.monChLast (chan % 32)).ref :: if beyond then [Reg.monOvrCount.ref] else []) [.tim])) ∧
      (10 ≤ s.dev.tim.ho.tempLost →
        ∃ t, exec .tempInvalidTimeout s = .next t ∧ bitAt (t.dev.get Reg.timeHoFaults) 0 = true ∧
          (bitAt (s.dev.get Reg.timeHoFaults) 0 = false → t.dev.tim.ho.specHeld = false) ∧ s.leaves t (Reg.timeHoFaults.ref :: Reg.timeHoInspec.ref :: numbered) [.tim]) ∧
      (s.dev.tim.ho.tempLost < 10 →
        ∃ t, exec .tempInvalidTimeout s = .next t ∧ s.counts t Reg.schedStaleCount ∧ s.leaves t (counted Reg.schedStaleCount) []) ∧
      (16 ≤ s.dev.tim.ho.secs.length →
        ∃ t w, exec .learningSampleComplete s = .next t ∧ t.dev.tim.ho.secs = s.dev.tim.ho.secs.drop 16 ∧ smSeconds w = s.dev.now / fuSec % 2 ^ 32 ∧
          t.dev.tim.ho.history = (s.dev.tim.ho.history ++ [w]).drop (s.dev.tim.ho.history.length + 1 - 37800) ∧
          t.dev.tim.ho.outRun = (if smOutlier w then s.dev.tim.ho.outRun + 1 else 0) ∧
          (smOutlier w = true → t.dev.tim.ho.model = s.dev.tim.ho.model ∧ s.counts t Reg.timeHoOutliers) ∧
          s.leaves t ([Reg.timeHoOutliers.ref, Reg.timeHoLearnTime.ref, Reg.timeHoState.ref] ++ numbered) [.tim]) ∧
      (64 ≤ s.dev.tim.ho.outRun →
        ∃ t, exec .oscillatorRetrace s = .next t ∧ t.dev.tim.ho.outRun = 0 ∧ t.dev.tim.ho.fitted = false ∧ t.dev.get Reg.timeHoBootTime = 0 ∧
          t.dev.tim.ho.history.length = s.dev.tim.ho.history.length ∧
          s.leaves t ([Reg.timeHoBootTime.ref, Reg.timeHoState.ref] ++ numbered ++ noticed Reg.timeHoState.ref) [.tim, .journal]) ∧
      (3600 ≤ s.dev.tim.ho.sinceFit →
        (∀ m v, s.dev.afterGap.fitModel = some (m, v) →
          ∃ t, exec .modelFit s = .next t ∧ t.dev.tim.ho.model = some m ∧ t.dev.tim.ho.fitted = true ∧ t.dev.tim.ho.sinceFit = 0 ∧
            s.leaves t ([Reg.timeHoDrift.ref, Reg.timeHoDriftSe.ref, Reg.timeHoResid.ref, Reg.timeHoState.ref, Reg.timeHoExpect.ref] ++ numbered)
              [.tim, .journal]) ∧
        (s.dev.afterGap.fitModel = none →
          ∃ t, exec .modelFit s = .next t ∧ t.dev.tim.ho = { s.dev.tim.ho with sinceFit := 0 } ∧ s.leaves t numbered [.tim]))) ∧
    (∀ (q : Req) (crc : BitVec 32) (x : Transfer), s.endsBlock q 2 Reg.timeHoImport.ref crc x →
      (s.dev.get Reg.timeHoState = 3 →
        ∃ t, exec (.timeHoImport q crc) s = .next t ∧ t.answers (respOf q 5 stNotPermitted (errBytes (err stNotPermitted))) ∧ s.leaves t numbered []) ∧
      (let n := x.data.length - modelSize
       let ok := modelSize ≤ x.data.length ∧ n % 16 = 0 ∧ n ≤ 37800 * 16 ∧ time96Valid (at_ (x.data.drop n) 4 12) = true
       s.dev.get Reg.timeHoState ≠ 3 →
        (¬ ok → ∃ t, exec (.timeHoImport q crc) s = .next t ∧ t.answers (respOf q 5 stInvalidValue (errBytes (err stInvalidValue))) ∧ s.leaves t numbered []) ∧
        (ok → ∃ t, exec (.timeHoImport q crc) s = .next t ∧
          t.dev.tim.ho.history = (recordsOf 16 (x.data.take n)).map (fun w => clearBits (clearBits w 35 32) 15 0) ∧
          t.dev.tim.ho.model = some (modelOf (x.data.drop n)) ∧ t.dev.get Reg.timeHoBootTime = 0 ∧ t.dev.get Reg.timeHoLearnTime = n % 2 ^ Reg.timeHoLearnTime.width ∧
          s.leaves t ([Reg.timeHoBootTime.ref, Reg.timeHoLearnTime.ref, Reg.timeHoState.ref] ++ numbered) [.tim, .journal]))) ∧
    ∀ q : Req, s.fresh.writes q 2 Reg.timeHoClear.ref = true →
      (s.dev.get Reg.timeHoState = 3 →
        ∃ t, exec (.timeHoClear q ⟨1, 1⟩) s = .next t ∧ t.answers (respOf q 2 stNotPermitted (errBytes (err stNotPermitted))) ∧ s.leaves t numbered []) ∧
      (s.dev.get Reg.timeHoState ≠ 3 →
        ∃ t, exec (.timeHoClear q ⟨1, 1⟩) s = .next t ∧ t.dev.tim.ho.history = [] ∧ t.dev.get Reg.timeHoLearnTime = 0 ∧
          t.dev.tim.ho.model = s.dev.tim.ho.model ∧ s.leaves t ([Reg.timeHoLearnTime.ref, Reg.timeHoState.ref] ++ numbered) [.tim]) ∧
      ∃ t, exec (.timeHoClear q ⟨1, 0⟩) s = .next t ∧ (s.dev.get Reg.timeHoState ≠ 3 → t.answers (respOf q 2 stSuccess (beBytes 4 0))) ∧ s.leaves t numbered []

/-! ### Line encryption (chapter 13) -/

/-- Crypt groups and keys (R318, R320, R326 to R330): a table that R320 allows is held, its reserved fields 0, and comes into force when its action fires; a key goes to its pair's next
half; a roll makes it current and ends the guard stop of its groups, an erase empties the pair; a Retired half that nothing matched for its hold empties; a guard threshold gives a
notice or stops its groups; RES moves ahead of SEG. -/
def Obligations.KeysAndTablesChange : Prop :=
  ∀ s : State,
    (∀ (q : Req) (crc : BitVec 32) (x : Transfer), s.endsBlock q 2 Reg.secCgNext.ref crc x →
      (x.data.length % 16 ≠ 0 →
        ∃ t, exec (.secCgNext q crc) s = .next t ∧ t.answers (respOf q 5 stInvalidValue (errBytes (err stInvalidValue))) ∧ s.leaves t numbered []) ∧
      (x.data.length % 16 = 0 → s.dev.cgCheck (recordsOf 16 x.data) = none →
        ∃ t, exec (.secCgNext q crc) s = .next t ∧
          t.dev.dom Reg.secCgNext.ref = (recordsOf 16 x.data).flatMap (fun r => beBytes 16 (clearBits (clearBits (clearBits r 112 112) 91 88) 47 0)) ∧
          (s.dev.journals = false → t.answers (respOf q 5 stSuccess [])) ∧ s.leaves t numbered [.stored, .journal]) ∧
      ∀ e, x.data.length % 16 = 0 → s.dev.cgCheck (recordsOf 16 x.data) = some e →
        ∃ t, exec (.secCgNext q crc) s = .next t ∧ t.answers (respOf q 5 e.status (errBytes e)) ∧ s.leaves t numbered []) ∧
    (∀ (h : BitVec 32) (a : Action), s.dev.fires h.toNat a 8 → a.target = Reg.secCgApply.ref →
      (s.dev.cgCheck (recordsOf 16 (s.dev.dom Reg.secCgNext.ref)) = none →
        ∃ t, exec (.cryptTableApply h false) s = .next t ∧ t.dev.dom Reg.secCgActive.ref = s.dev.dom Reg.secCgNext.ref ∧
          t.dev.get Reg.secCgGen = a.value % 65536 ∧
          (∀ n, n ∈ t.dev.sec.guardStop ↔ ∃ w ∈ t.dev.cgTable, cgNum w = n ∧ cgTx w = true ∧
            ∃ v ∈ s.dev.cgTable, cgPair v = cgPair w ∧ cgNum v ∈ s.dev.sec.guardStop) ∧
          (∀ n : Fin 128, t.dev.cgTable.all (fun w => cgNum w != n.val) = true → t.dev.get (Reg.secCgState n) = 0) ∧
          s.leavesAt t [(0x6000, 0x6FFF), (0x9100, 0x910F)] (fired ++ written Reg.secCgApply.ref) [.stored, .sec, .schedule, .store, .journal]) ∧
      (s.dev.cgCheck (recordsOf 16 (s.dev.dom Reg.secCgNext.ref)) ≠ none →
        ∃ t, exec (.cryptTableApply h false) s = .next t ∧ t.dev.dom Reg.secCgActive.ref = s.dev.dom Reg.secCgActive.ref ∧ s.counts t Reg.schedFailedCount ∧
          s.leaves t (Reg.schedFailedCount.ref :: noticed Reg.schedList.ref) [.schedule])) ∧
    (∀ (q : Req) (v : Val), s.fresh.writes q 2 Reg.secKeyWrite.ref = true → valueCheck Reg.secKeyWrite (rangeOf Reg.secKeyWrite.ref) v = none →
      let p := s.dev.get Reg.secKeySelect
      let epoch := v.raw / 2 ^ 256
      (epoch ≠ 0 → epoch ≠ (s.dev.pair p).cur.epoch → s.dev.pairAction p = none →
        ∃ t, exec (.secKeyWrite q v) s = .next t ∧ t.dev.pair p = { s.dev.pair p with next := ⟨1, epoch, v.raw % 2 ^ 256⟩ } ∧
          tblGetD t.dev.sec.wrapped p pairNew = t.dev.pair p ∧ (∀ k, k ≠ p → t.dev.pair k = s.dev.pair k) ∧
          (s.dev.journals = false → t.answers (respOf q 2 stSuccess (beBytes 4 0))) ∧ s.leaves t numbered [.sec, .journal]) ∧
      (∀ a, epoch ≠ 0 → epoch ≠ (s.dev.pair p).cur.epoch → s.dev.pairAction p = some a →
        ∃ t, exec (.secKeyWrite q v) s = .next t ∧ t.answers (respOf q 2 stInUse (errBytes (errAct stInUse a.handle))) ∧ s.leaves t numbered []) ∧
      (epoch = 0 ∨ epoch = (s.dev.pair p).cur.epoch →
        ∃ t, exec (.secKeyWrite q v) s = .next t ∧ t.answers (respOf q 2 stInvalidValue (errBytes (err stInvalidValue))) ∧ s.leaves t numbered [])) ∧
    (∀ (h : BitVec 32) (a : Action), s.dev.fires h.toNat a 3 →
      (a.target = Reg.secRoll.ref → (s.dev.pair a.value).next.state = 1 →
        ∃ t, exec (.keyRoll h false) s = .next t ∧
          (t.dev.pair a.value).cur = { (s.dev.pair a.value).next with state := 2 } ∧ (t.dev.pair a.value).uses = 0 ∧
          (t.dev.pair a.value).next = (if (s.dev.pair a.value).cur.state = 0 then halfEmpty else { (s.dev.pair a.value).cur with state := 3 }) ∧
          (∀ k, k ≠ a.value → t.dev.pair k = s.dev.pair k) ∧ tblGet t.dev.sec.matched a.value = some s.dev.now ∧
          (∀ w ∈ s.dev.cgTable, cgPair w = a.value → cgNum w ∉ t.dev.sec.guardStop) ∧
          s.leavesAt t [(0x6000, 0x6FFF), (0x9100, 0x910F)] fired [.sec, .schedule, .frm]) ∧
      (a.target = Reg.secRoll.ref → (s.dev.pair a.value).next.state ≠ 1 →
        ∃ t, exec (.keyRoll h false) s = .next t ∧ s.counts t Reg.schedFailedCount ∧
          s.leaves t (Reg.schedFailedCount.ref :: noticed Reg.schedList.ref) [.schedule]) ∧
      (a.target = Reg.secErase.ref →
        ∃ t, exec (.keyErase h false) s = .next t ∧ t.dev.pair a.value = { pairNew with shared := (s.dev.pair a.value).shared } ∧
          tblGetD t.dev.sec.wrapped a.value pairNew = t.dev.pair a.value ∧
          (∀ k, k ≠ a.value → t.dev.pair k = s.dev.pair k) ∧ s.leavesAt t [(0x6000, 0x6FFF), (0x9100, 0x910F)] fired [.sec, .schedule])) ∧
    (s.dev.dead = false →
      ∀ p : BitVec 8,
        let due := tblGetD s.dev.sec.matched p.toNat 0 + s.dev.get Reg.secRetireHold * fuSec
        ((s.dev.pair p.toNat).next.state = 3 → due ≤ s.dev.now →
          ∃ t, exec (.retireHoldExpiry p) s = .next t ∧ t.dev.pair p.toNat = { s.dev.pair p.toNat with next := halfEmpty } ∧
            (∀ k, k ≠ p.toNat → t.dev.pair k = s.dev.pair k) ∧ s.leaves t numbered [.sec]) ∧
        ((s.dev.pair p.toNat).next.state ≠ 3 ∨ s.dev.now < due →
          ∃ t, exec (.retireHoldExpiry p) s = .next t ∧ s.counts t Reg.schedStaleCount ∧ s.leaves t (counted Reg.schedStaleCount) []) ∧
        ∀ groups, groups = (s.dev.cgTable.filter (fun w => cgTx w && cgPair w == p.toNat)).map cgNum →
          ((s.dev.pair p.toNat).uses < s.dev.get Reg.secGuard - s.dev.get Reg.secGuardMargin ∨ groups = [] →
            ∃ t, exec (.guardThreshold p) s = .next t ∧ s.leaves t [] []) ∧
          (s.dev.get Reg.secGuard - s.dev.get Reg.secGuardMargin ≤ (s.dev.pair p.toNat).uses → groups ≠ [] →
            ((s.dev.pair p.toNat).uses < s.dev.get Reg.secGuard → (s.dev.pair p.toNat).next.state = 1 →
              ∃ t, exec (.guardThreshold p) s = .next t ∧ s.raises t Reg.secPairStatus ∧ s.leaves t (numbered ++ noticed Reg.secPairStatus.ref) []) ∧
            (s.dev.get Reg.secGuard ≤ (s.dev.pair p.toNat).uses ∨ (s.dev.pair p.toNat).next.state ≠ 1 →
              ∃ t, exec (.guardThreshold p) s = .next t ∧ (∀ n, n ∈ t.dev.sec.guardStop ↔ n ∈ s.dev.sec.guardStop ∨ n ∈ groups) ∧
                s.leavesAt t [(0x6000, 0x6FFF), (0x9100, 0x910F)] numbered [.sec]))) ∧
    ∀ (c : CarrierNo) (g : ScNo),
      let k := 16 * c.val + g.val
      (s.dev.dead = false → tblGetD s.dev.sec.res k 0 ≤ tblGetD s.dev.sec.segs k 0 + 2 ^ 27 →
        ∃ t, exec (.segReservation c g) s = .next t ∧ tblGetD t.dev.sec.res k 0 = tblGetD s.dev.sec.res k 0 + 2 ^ 28 ∧ s.leaves t [] [.sec]) ∧
      (s.dev.dead = true ∨ tblGetD s.dev.sec.segs k 0 + 2 ^ 27 < tblGetD s.dev.sec.res k 0 →
        ∃ t, exec (.segReservation c g) s = .next t ∧ s.leaves t [] [])

/-- Segments and tamper response (R325, R333 to R336): the units of a segment that waits are delivered: a group's as its tag lets them, decrypted where its mode encrypts, as fill where it
has no key, poisoned where a tag fails, a SEG comes again or an engine's half is poisoned, each counted; a sensor that detects acts as its class says, class 2 erasing every key; the
alarm clears when no sensor of class 1 or 2 detects; a locked class is not lowered. -/
def Obligations.SegmentsAndTamper : Prop :=
  ∀ s : State,
    (∀ (c : CarrierNo) (g : ScNo) (msg : Option (BitVec 512)) (poison : List Bool),
      ((s.dev.rxg c g).held = [] → ∃ t, exec (.secSeg c g msg poison) s = .next t ∧ s.leaves t [] []) ∧
      (∀ (u : RxUnit) (l : List RxUnit), (s.dev.rxg c g).held = u :: l →
        ∃ t, exec (.secSeg c g msg poison) s = .next t ∧ (t.dev.rxg c g).held = (u :: l).dropWhile (fun v => v.seg == u.seg) ∧ (t.dev.rxg c g).faults = [] ∧
          s.leavesAt t [(0x3000, 0x3FFF), (0x6000, 0x6FFF), (0x9100, 0x910F)] (poisonRefs 14 0x6FF0) [.frm, .fab, .sec]) ∧
      ∀ (u : RxUnit) (l : List RxUnit) (w : Nat), (s.dev.rxg c g).held = u :: l → s.dev.rxGroups c g = [w] →
        let us := (u :: l).takeWhile (fun v => v.seg == u.seg)
        let mine := us.filter (fun v => s.dev.unitGroup c g v == cgNum w)
        let lost := (s.dev.rxg c g).faults.contains (cgNum w)
        let segment := fun (t : State) (b : List SliceBlock) =>
          let x := (s.fresh.putRxg c g { s.dev.rxg c g with held := (u :: l).drop us.length }).deliverSegment c g us [(cgNum w, b)]
          t.dev.fab = x.fab ∧ t.dev.rxg c g = { x.rxg c g with faults := [] } ∧
            s.leavesAt t [(0x3000, 0x3FFF), (0x6000, 0x6FFF), (0x9100, 0x910F)] (poisonRefs 14 0x6FF0) [.frm, .fab, .sec]
        let failed := fun (t : State) => s.counts t Reg.secAuthFails ∧ segment t (mine.map (fun _ => ⟨0, true⟩))
        (msg.all (fun m => bits m.toNat 511 504 != 0x30) = true →
          ∃ t, exec (.secSeg c g msg poison) s = .next t ∧ failed t ∧ t.dev.sec.lastSeg = s.dev.sec.lastSeg) ∧
        ∀ m : BitVec 512, msg = some m → bits m.toNat 511 504 = 0x30 →
          let port := 2 * (16 * c.val + g.val) + bits m.toNat 439 439
          let before := tblGetD s.dev.sec.lastSeg port 0
          let seg := bits m.toNat 503 440
          let epoch := bits m.toNat 431 424
          let pair := s.dev.pair (cgPair w)
          (bits m.toNat 437 435 = 0 ∨ lost = true →
            ∃ t, exec (.secSeg c g msg poison) s = .next t ∧ failed t ∧ t.dev.sec.lastSeg = s.dev.sec.lastSeg) ∧
          (bits m.toNat 437 435 ≠ 0 → lost = false →
            (epoch = 0 → ∃ t, exec (.secSeg c g msg poison) s = .next t ∧ s.counts t Reg.secNoKeySegs ∧ segment t (mine.map (fun _ => ⟨0, false⟩))) ∧
            (epoch ≠ 0 → seg < before →
              ∃ t, exec (.secSeg c g msg poison) s = .next t ∧ s.counts t Reg.secReplays ∧ failed t ∧ t.dev.sec.lastSeg = s.dev.sec.lastSeg) ∧
            (epoch ≠ 0 → before ≤ seg → halfKey pair epoch = none →
              ∃ t, exec (.secSeg c g msg poison) s = .next t ∧ failed t ∧ t.dev.sec.lastSeg = s.dev.sec.lastSeg) ∧
            ∀ key half, epoch ≠ 0 → before ≤ seg → halfKey pair epoch = some (key, half) →
              let iv := ivOf c g (cgId w) (1 - s.dev.get (Reg.secEnd c)) (bits m.toNat 439 439) epoch seg
              let data := mine.map (fun v => v.data)
              let tag := (if cgMode w = 1 then gcmTag key iv data (128 * data.length) [] 0 else gcmTag key iv [] 0 data (128 * data.length)) / 2 ^ 64
              (poison.headD false = true →
                ∃ t, exec (.secSeg c g msg poison) s = .next t ∧ failed t ∧ s.counts t (Reg.memPoisonConsumed 13) ∧ t.dev.sec.lastSeg = s.dev.sec.lastSeg ∧
                  t.dev.pair (cgPair w) = (if half = 0 then { pair with cur := halfEmpty } else { pair with next := halfEmpty })) ∧
              (poison.headD false = false → tag = bits m.toNat 383 320 →
                ∃ t, exec (.secSeg c g msg poison) s = .next t ∧
                  segment t (mine.zipIdx.map (fun e => ⟨if cgMode w = 1 then e.1.data else e.1.data ^^^ gcmStream key iv e.2, e.1.poison⟩)) ∧
                  tblGet t.dev.sec.lastSeg port = some (seg + 1) ∧ t.dev.pair (cgPair w) = pair ∧
                  (half = 1 → tblGet t.dev.sec.matched (cgPair w) = some s.dev.now)) ∧
              (poison.headD false = false → tag ≠ bits m.toNat 383 320 →
                ∃ t, exec (.secSeg c g msg poison) s = .next t ∧ failed t ∧ t.dev.sec.lastSeg = s.dev.sec.lastSeg ∧ t.dev.pair (cgPair w) = pair))) ∧
    (s.dev.dead = false →
      (∀ (c : CarrierNo) (g : ScNo) (n : Fin 128) (tx : Bool),
        let seen := (s.dev.sec.mismatches.filter (fun x => decide (s.dev.now < x + fuSec))).length + 1
        (seen < s.dev.get Reg.secFaultLimit ∨ bitAt (s.dev.get Reg.secSensors) 6 = true →
          ∃ t, exec (.dualMismatch c g n tx) s = .next t ∧ s.counts t Reg.secDualMismatch ∧
            (tx = true → (t.dev.txg c g).faults = (s.dev.txg c g).faults ++ [n.val]) ∧ (tx = false → (t.dev.rxg c g).faults = (s.dev.rxg c g).faults ++ [n.val]) ∧
            s.leaves t (Reg.secDualMismatch.ref :: numbered) [.sec, .frm]) ∧
        (s.dev.get Reg.secFaultLimit ≤ seen → bitAt (s.dev.get Reg.secSensors) 6 = false →
          ∃ t, exec (.dualMismatch c g n tx) s = .next t ∧ s.counts t Reg.secDualMismatch ∧ bitAt (t.dev.get Reg.secSensors) 6 = true ∧
            s.leavesAt t ((0x6000, 0x6FFF) :: lineAndFabric) (Reg.memDebugEnable.ref :: numbered) [.sec, .tx, .itla, .aspi, .rx, .frm, .fab])) ∧
      (∀ k : Fin 8,
        (∃ t, exec (.tamperDetection k) s = .next t ∧ bitAt (t.dev.get Reg.secSensors) k = true ∧
          tblGet t.dev.sec.detections k = some (tblGetD s.dev.sec.detections k 0 + 1) ∧ s.raises t Reg.secSensors ∧
          (s.dev.sensorClass k = 0 → s.leaves t (Reg.secSensors.ref :: numbered ++ noticed Reg.secSensors.ref) [.sec]) ∧
          (s.dev.sensorClass k ≠ 0 → bitAt (t.dev.get Reg.secAlarm) k = true ∧ t.dev.get Reg.memDebugEnable = 0 ∧
            (∀ c : CarrierNo, bitAt (t.dev.get (Reg.lineTxCauses c)) 2 = true ∧ t.dev.get (Reg.lineTxState c) = squelched (s.dev.get (Reg.lineTxState c)))) ∧
          (s.dev.sensorClass k = 2 → t.dev.sec.erasePending = true ∧ s.counts t Reg.secErases ∧
            ∀ p, (t.dev.pair p).cur = halfEmpty ∧ (t.dev.pair p).next = halfEmpty) ∧
          s.leavesAt t ((0x6000, 0x6FFF) :: lineAndFabric) (Reg.memDebugEnable.ref :: numbered) [.sec, .tx, .itla, .aspi, .rx, .frm, .fab]) ∧
        ∃ t, exec (.tamperSensorClear k) s = .next t ∧ bitAt (t.dev.get Reg.secSensors) k = false ∧
          (∀ j : Fin 8, j ≠ k → bitAt (t.dev.get Reg.secSensors) j = bitAt (s.dev.get Reg.secSensors) j) ∧ s.leaves t (Reg.secSensors.ref :: numbered) [])) ∧
    (s.dev.sec.erasePending = true →
      ∃ t, exec .wrappedEraseComplete s = .next t ∧ t.dev.sec.wrapped = s.dev.sec.pairs ∧ t.dev.sec.erasePending = false ∧ s.leaves t [] [.sec]) ∧
    (s.dev.sec.erasePending = false → ∃ t, exec .wrappedEraseComplete s = .next t ∧ s.leaves t [] []) ∧
    ∀ q : Req,
      (s.fresh.writes q 2 Reg.secAlarmClear.ref = true →
        let detects := (List.range 8).any (fun k => bitAt (s.dev.get Reg.secSensors) k && s.dev.sensorClass k != 0)
        (detects = true →
          ∃ t, exec (.secAlarmClear q ⟨1, 1⟩) s = .next t ∧ t.answers (respOf q 2 stNotPermitted (errBytes (err stNotPermitted))) ∧ s.leaves t numbered []) ∧
        (detects = false →
          ∃ t, exec (.secAlarmClear q ⟨1, 1⟩) s = .next t ∧ t.dev.get Reg.secAlarm = 0 ∧ t.answers (respOf q 2 stSuccess (beBytes 4 0)) ∧
            (∀ c : CarrierNo, bitAt (t.dev.get (Reg.lineTxCauses c)) 2 = false ∧ t.dev.get (Reg.lineTxState c) = s.dev.unsquelched c 2) ∧
            s.leavesAt t ((0x6000, 0x6FFF) :: lineAndFabric) numbered [.tx, .itla, .aspi, .rx, .frm, .fab])) ∧
      (∀ v : Val, s.fresh.writes q 3 Reg.secSensorClass.ref = true → v.len = 2 → v.raw < 65536 →
        (sensorClassCheck v.raw s.dev = none →
          ∃ t, exec (.secSensorClass q v) s = .next t ∧ t.dev.get Reg.secSensorClass = v.raw ∧
            (s.dev.journals = false → t.answers (respOf q 2 stSuccess (beBytes 4 0))) ∧
            s.leaves t (Reg.secSensorClass.ref :: written Reg.secSensorClass.ref) [.store, .journal]) ∧
        ∀ e, sensorClassCheck v.raw s.dev = some e →
          ∃ t, exec (.secSensorClass q v) s = .next t ∧ t.answers (respOf q 2 e.status (errBytes e)) ∧ s.leaves t numbered []) ∧
      (s.fresh.writes q 3 Reg.secClassLock.ref = true →
        (∃ t, exec (.secClassLock q ⟨1, 1⟩) s = .next t ∧ t.dev.get Reg.secClassLock = 1 ∧
          (s.dev.journals = false → t.answers (respOf q 2 stSuccess (beBytes 4 0))) ∧
          s.leaves t (Reg.secClassLock.ref :: written Reg.secClassLock.ref) [.store, .journal]) ∧
        ∃ t, exec (.secClassLock q ⟨1, 0⟩) s = .next t ∧ t.answers (respOf q 2 stInvalidValue (errBytes (err stInvalidValue))) ∧ s.leaves t numbered [])

/-! ### Twin operation (chapter 14) -/

/-- Voted cores, health and claims (R340, R341, R342, R344, R346 to R352): a dissenting core waits for its resynchronisation or is removed, a mismatch in duplex restarts control; a frame
carries the claim; the bus is judged by the frames it carried; the lowest claim takes the active role, with the bus faulty by the claims the mate link carries, a unit alone on both links by
R351; the shared outputs follow. -/
def Obligations.CoresVoteAndClaimsDecide : Prop :=
  ∀ s : State,
    (∀ (k : Fin 3) (all : Bool),
      (s.dev.coresRun = false ∨ bitAt (s.dev.get Reg.twinCoreState) k = false → ∃ t, exec (.coreDissent k all) s = .next t ∧ s.leaves t [] []) ∧
      (s.dev.coresRun = true → bitAt (s.dev.get Reg.twinCoreState) k = true →
        (all = true ∨ s.dev.get Reg.twinCoreState ≠ 7 → s.dev.phase ≠ .loading →
          ∃ t, exec (.coreDissent k all) s = .next t ∧ t.dev.phase = .restarting ∧ t.dev.eop.sessions = [] ∧ t.dev.eop.transfers = [] ∧ t.dev.deferred = [] ∧
            s.counts t Reg.twinCtrlRestarts ∧ s.leaves t (counted Reg.twinCtrlRestarts) [.phase, .deferred]) ∧
        (all = true ∨ s.dev.get Reg.twinCoreState ≠ 7 → s.dev.phase = .loading →
          let x := s.dev.pwr.slots.at s.dev.pwr.active
          let slots := s.dev.pwr.slots.put s.dev.pwr.active { x with fails := x.fails + 1 }
          ∃ t, exec (.coreDissent k all) s = .next t ∧ t.dev.pwr.slots = slots ∧ s.booted t slots s.dev.pwr.prefer (true, true) ∧
            s.counts t Reg.twinCtrlRestarts ∧ s.leaves t (Reg.pwrImgFallbacks.ref :: imageRefs ++ counted Reg.twinCtrlRestarts) [.phase, .deferred, .pwr, .store]) ∧
        (all = false → s.dev.get Reg.twinCoreState = 7 →
          let removed := decide (s.dev.get Reg.twinCoreLimit ≤ s.dev.recentDissents k + 1) ||
            (match tblGet s.dev.twin.resyncAt k with
             | some x => decide (s.dev.now ≤ x + 16 * fuCycle)
             | none => false)
          ∃ t, exec (.coreDissent k all) s = .next t ∧ bitAt (t.dev.get Reg.twinCoreState) k = !removed ∧ t.dev.twin.dissenting.contains k.val = !removed ∧
            s.leaves t (Reg.twinCoreState.ref :: numbered) [.twin]))) ∧
    (∀ gap : Fin 4097,
      (s.dev.coresRun = true → s.dev.twin.dissenting ≠ [] → s.dev.now % fuCycle = 0 →
        ∃ t, exec (.coreResync gap) s = .next t ∧ t.dev.twin.dissenting = [] ∧ (∀ k ∈ s.dev.twin.dissenting, tblGet t.dev.twin.resyncAt k = some s.dev.now) ∧
          (s.dev.get Reg.twinResyncs + s.dev.twin.dissenting.length < 2 ^ Reg.twinResyncs.width →
            t.dev.get Reg.twinResyncs = s.dev.get Reg.twinResyncs + s.dev.twin.dissenting.length) ∧
          (∀ k : Fin 3, s.dev.twin.dissenting.count k.val = 1 → s.counts t (Reg.twinCoreDissents k)) ∧
          t.dev.twin.gapEnd = s.dev.now + gap * fuNs * 5 / 6 ∧ t.dev.now = s.dev.now ∧
          (s.dev.get Reg.twinGapMax ≤ gap → t.dev.get Reg.twinGapMax = gap) ∧ s.leavesAt t [(0x7000, 0x7FFF)] numbered [.twin, .now]) ∧
      (s.dev.coresRun = false ∨ s.dev.twin.dissenting = [] ∨ s.dev.now % fuCycle ≠ 0 → ∃ t, exec (.coreResync gap) s = .next t ∧ s.leaves t [] [])) ∧
    (∀ q : Req, s.fresh.writes q 2 Reg.twinCoreRetry.ref = true →
      (∃ t, exec (.twinCoreRetry q ⟨1, 1⟩) s = .next t ∧ t.dev.get Reg.twinCoreState = 7 ∧ t.answers (respOf q 2 stSuccess (beBytes 4 0)) ∧
        (∀ k : Fin 3, bitAt (s.dev.get Reg.twinCoreState) k = false → tblGet t.dev.twin.resyncAt k = some s.fresh.afterGap.now) ∧
        s.leavesAt t [(0x7000, 0x7FFF)] numbered [.twin]) ∧
      ∃ t, exec (.twinCoreRetry q ⟨1, 0⟩) s = .next t ∧ t.answers (respOf q 2 stSuccess (beBytes 4 0)) ∧ s.leaves t numbered []) ∧
    (∀ (q : Req) (v : Val), s.fresh.writes q 2 Reg.twinHostClass.ref = true → v.len = 1 →
      (v.raw ≤ 14 → ∃ t, exec (.twinHostClass q v) s = .next t ∧ t.dev.get Reg.twinHostClass = v.raw ∧ t.answers (respOf q 2 stSuccess (beBytes 4 0)) ∧
        s.leaves t (Reg.twinHostClass.ref :: written Reg.twinHostClass.ref) [.store]) ∧
      (14 < v.raw → ∃ t, exec (.twinHostClass q v) s = .next t ∧ t.answers (respOf q 2 stInvalidValue (errBytes (err stInvalidValue))) ∧ s.leaves t numbered [])) ∧
    (s.dev.dead = false → s.dev.twin.enabled = true →
      (∀ x, s.dev.twin.lowerSince = some x → x + s.dev.get Reg.twinHealthHold * fuMs ≤ s.dev.now → s.dev.healthNow < s.dev.get Reg.twinHealth →
        ∃ t, exec .healthHoldExpiry s = .next t ∧ t.dev.get Reg.twinHealth = s.dev.healthNow % 2 ^ Reg.twinHealth.width ∧ t.dev.twin.lowerSince = none ∧
          s.leaves t (Reg.twinHealth.ref :: numbered) [.twin]) ∧
      (s.dev.get Reg.twinHealth ≤ s.dev.healthNow ∨ s.dev.twin.lowerSince = none ∨
          (∃ x, s.dev.twin.lowerSince = some x ∧ s.dev.now < x + s.dev.get Reg.twinHealthHold * fuMs) →
        ∃ t, exec .healthHoldExpiry s = .next t ∧ s.counts t Reg.schedStaleCount ∧ s.leaves t (counted Reg.schedStaleCount) []) ∧
      (s.dev.twin.listening = false → ∀ b, ∃ t, exec (.claimListenEnd b) s = .next t ∧ s.leaves t [] []) ∧
      (s.dev.twin.listening = true →
        (∃ t, exec (.claimListenEnd false) s = .next t ∧ t.dev.twin.listening = false ∧ s.leaves t [] [.twin]) ∧
        ∃ t, exec (.claimListenEnd true) s = .next t ∧ t.dev.twin.listening = false ∧ t.dev.get Reg.twinState = 4 ∧ t.dev.get Reg.twinMirrorState = 0 ∧
          s.raises t Reg.twinState ∧ s.leavesAt t [(0x2000, 0x2FFF), (0x5800, 0x5FFF), (0x7000, 0x7FFF), (0x9100, 0x910F)] [] [.twin, .journal, .schedule, .rx, .frm])) ∧
    (∀ i ∈ [Instr.claimFrameStart, .claimSyncJoin],
      let begins := s.dev.onBus = true ∧ s.dev.inFrame = false ∧ (s.dev.now % (100 * fuUs) = 0 ∨ i = .claimSyncJoin)
      let rises := s.dev.twin.claimed = false ∨ s.dev.get Reg.twinHealth ≤ s.dev.healthNow
      (begins → ∃ t, exec i s = .next t ∧ .claim t.dev.claim ∈ t.dev.out ∧ t.dev.get Reg.twinClaimSent = t.dev.claim % 2 ^ Reg.twinClaimSent.width ∧
        t.dev.twin.frameAt = some s.dev.now ∧ t.dev.twin.frameOpen = true ∧
        (rises → t.dev.get Reg.twinHealth = s.dev.healthNow % 2 ^ Reg.twinHealth.width ∧ t.dev.twin.lowerSince = none) ∧
        (¬ rises → t.dev.get Reg.twinHealth = s.dev.get Reg.twinHealth ∧ t.dev.twin.lowerSince = some (s.dev.twin.lowerSince.getD s.dev.now)) ∧
        s.leaves t [Reg.twinHealth.ref, Reg.twinClaimSent.ref] [.twin]) ∧
      (¬ begins → ∃ t, exec i s = .next t ∧ s.leaves t [] [])) ∧
    (∀ (bus : BitVec 16) (p : Fin 3) (stuck : Bool),
      (s.dev.onBus = false ∨ s.dev.twin.frameOpen = false → ∃ t, exec (.claimEffectInstant bus p stuck) s = .next t ∧ s.leaves t [] []) ∧
      (s.dev.onBus = true → s.dev.twin.frameOpen = true →
        let mate := s.dev.get Reg.twinMateState == 1
        let faulty := stuck || p.val == 1 || (mate && (p.val == 0 || s.dev.twin.twinBus.any (· != bus.toNat)))
        let silent := !mate && p.val == 0
        let mine := s.dev.get Reg.twinClaimSent
        let best := min mine (s.dev.twin.twinClaim.getD 0xFFFF)
        ∃ t, exec (.claimEffectInstant bus p stuck) s = .next t ∧ t.dev.twin.frameOpen = false ∧ t.dev.get Reg.twinClaimBus = bus.toNat ∧
          (mate = true → .mateClaim mine bus.toNat ∈ t.dev.out) ∧
          t.dev.twin.faultyRun = (if faulty then s.dev.twin.faultyRun + 1 else 0) ∧ t.dev.twin.silentRun = (if silent then s.dev.twin.silentRun + 1 else 0) ∧
          t.dev.twin.goodRun = (if faulty || silent then 0 else s.dev.twin.goodRun + 1) ∧
          t.dev.get Reg.twinBusState = (if 3 ≤ t.dev.twin.faultyRun then 1 else if 3 ≤ t.dev.twin.silentRun then 2 else if 10 ≤ t.dev.twin.goodRun then 0
            else s.dev.get Reg.twinBusState) ∧
          (t.dev.get Reg.twinBusState ≠ 1 → t.dev.twin.lostAt = none ∧ t.dev.twin.won = (mine == bus.toNat && bus.toNat != 0xFFFF) ∧
            (bus.toNat ≠ 0xFFFF → t.dev.twin.winner = some (bus.toNat % 2))) ∧
          (t.dev.get Reg.twinBusState = 1 → mate = true → t.dev.twin.lostAt = none ∧ t.dev.twin.won = (mine == best && best != 0xFFFF)) ∧
          (t.dev.get Reg.twinBusState = 1 → mate = false → t.dev.twin.lostAt = some (s.dev.twin.lostAt.getD s.dev.now) ∧
            t.dev.twin.won = (s.dev.get Reg.twinUnit == 0 && s.dev.get Reg.twinRole == 0)) ∧
          (t.dev.twin.won = true → t.dev.get Reg.twinRole = 0) ∧ (t.dev.twin.won = false → t.dev.get Reg.twinRole ≠ 0) ∧
          s.leavesAt t [(0x5000, 0x7FFF), (0x9100, 0x910F)] [] [.twin, .journal, .tim, .schedule])) ∧
    (∀ x, s.dev.twin.lostAt = some x → s.dev.onBus = true → s.dev.get Reg.twinUnit = 0 → s.dev.get Reg.twinBusState = 1 → s.dev.get Reg.twinMateState = 0 →
      x + fuMs ≤ s.dev.now →
      ∃ t, exec .bothLinksLostTakeover s = .next t ∧ t.dev.get Reg.twinRole = 0 ∧ t.dev.twin.won = true ∧ t.dev.twin.winner = some 0 ∧
        s.leavesAt t [(0x5000, 0x7FFF), (0x9100, 0x910F)] [] [.twin, .journal, .tim, .schedule]) ∧
    (s.dev.twin.lostAt = none → ∃ t, exec .bothLinksLostTakeover s = .next t ∧ s.leaves t [] []) ∧
    (∀ x, s.dev.twin.driveAt = some x → x ≤ s.dev.now → s.dev.twin.enabled = true → s.dev.get Reg.twinRole = 0 → s.dev.now % fuCycle = 0 →
      ∃ t, exec .sharedOutputStart s = .next t ∧ t.dev.twin.drives = true ∧ t.dev.twin.driveAt = none ∧ s.leaves t [] [.twin]) ∧
    (s.dev.twin.driveAt = none → ∃ t, exec .sharedOutputStart s = .next t ∧ s.leaves t [] [])

/-- The mate link and the mirror (R344, R350, R355 to R359): identities make Conflict, Incompatible or Paired; an epoch closes with its journal and its ACK gives the responses that
waited; the standby holds whole epochs and commits them at calendar boundaries; a failure that repeats, a time-out or a lost link makes the mirror Stale. -/
def Obligations.MirrorFollowsEpochs : Prop :=
  ∀ s : State, s.dev.dead = false →
    let released := fun (t : State) (refs : List Nat) =>
      s.leavesAt t [(0x2000, 0x2FFF), (0x5800, 0x5FFF), (0x7000, 0x7FFF), (0x9100, 0x910F)] refs [.twin, .journal, .schedule, .rx, .frm]
    let linked := fun (t : State) => s.leavesAt t [(0x2000, 0x2FFF), (0x5000, 0x7FFF), (0x9100, 0x910F)] [] [.twin, .journal, .tim, .schedule, .rx, .frm]
    let mirrors := s.dev.get Reg.twinMirrorState = 1 ∨ s.dev.get Reg.twinMirrorState = 2
    (s.dev.twin.enabled = true →
      (∀ m : MateMsg,
        ∃ t, exec (.mateControlMessage m) s = .next t ∧ t.dev.get Reg.twinMateState = 1 ∧
          (m.hello = none → t.dev.get Reg.twinState = (if s.dev.get Reg.twinState ≤ 1 then 2 else s.dev.get Reg.twinState)) ∧
          (∀ u p a b, m.hello = some (u, p, a, b) →
            (u = s.dev.get Reg.twinUnit ∨ p ≠ s.dev.get Reg.twinPairId → t.dev.get Reg.twinState = 4) ∧
            (u ≠ s.dev.get Reg.twinUnit → p = s.dev.get Reg.twinPairId →
              t.dev.get Reg.twinState = (if a && b then 3 else 2) ∧ ((a && b) = false → t.dev.get Reg.twinMirrorState = 4) ∧
              ((a && b) = true → s.dev.get Reg.twinState ≠ 3 ∨ s.dev.get Reg.twinMirrorState = 3 → t.dev.get Reg.twinMirrorState = 1))) ∧
          (∀ c b, m.claim = some (c, b) → t.dev.twin.twinClaim = some c.toNat ∧ t.dev.twin.twinBus = some b.toNat) ∧
          (∀ e, m.delays = some e → t.dev.getI Reg.twinTimeDiff = toSigned Reg.twinTimeDiff.width (ofSigned Reg.twinTimeDiff.width
            (if s.dev.get Reg.twinRole = 1 then s.dev.mateTheta e else -(s.dev.mateTheta e)))) ∧ linked t) ∧
      (s.dev.get Reg.twinMateState ≠ 0 →
        ∃ t, exec .mateLinkDown s = .next t ∧ t.dev.get Reg.twinMateState = 0 ∧ t.dev.twin.twinClaim = none ∧
          t.dev.get Reg.twinState = (if s.dev.get Reg.twinState = 4 then 4 else 1) ∧ (mirrors → t.dev.get Reg.twinMirrorState = 3) ∧
          (s.dev.get Reg.twinBusState = 1 → t.dev.twin.lostAt = some (s.dev.twin.lostAt.getD s.dev.now) ∧
            (s.dev.get Reg.twinUnit = 1 → t.dev.get Reg.twinRole ≠ 0)) ∧ linked t) ∧
      (s.dev.get Reg.twinMateState = 0 → ∃ t, exec .mateLinkDown s = .next t ∧ s.leaves t [] [])) ∧
    (s.dev.journals = true →
      (∀ poison : Fin 3,
        (mirrors → poison.val < 2 →
          ∃ t, exec (.epochClose poison) s = .next t ∧ .epoch s.dev.twin.openEpoch s.dev.twin.journal ∈ t.dev.out ∧ t.dev.twin.journal = [] ∧
            t.dev.twin.openEpoch = s.dev.twin.openEpoch + 1 ∧
            t.dev.twin.closed = s.dev.twin.closed ++ [⟨s.dev.twin.openEpoch, s.dev.twin.journal, s.dev.now⟩] ∧
            (s.dev.get Reg.twinEpochsFailed + poison < 2 ^ Reg.twinEpochsFailed.width →
              t.dev.get Reg.twinEpochsFailed = s.dev.get Reg.twinEpochsFailed + poison) ∧
            s.leaves t (Reg.twinEpochsFailed.ref :: Reg.twinBaselineLeft.ref :: poisonRefs 12 0x7FF0) [.twin, .journal]) ∧
        (mirrors → poison.val = 2 →
          ∃ t, exec (.epochClose poison) s = .next t ∧ t.dev.get Reg.twinMirrorState = 3 ∧ t.dev.twin.closed = [] ∧ t.dev.twin.journal = [] ∧
            released t [(Reg.memPoisonConsumed 11).ref]) ∧
        (¬ mirrors → ∃ t, exec (.epochClose poison) s = .next t ∧ s.leaves t [] [])) ∧
      (∀ num : Nat,
        (∀ e : Epoch, s.dev.twin.closed.find? (fun e => e.num == num) = some e →
          ∃ t, exec (.epochAck num) s = .next t ∧ t.dev.get Reg.twinEpoch = num % 2 ^ Reg.twinEpoch.width ∧
            t.dev.get Reg.twinCommitLatency = (s.dev.now - e.closedAt) / fuUs % 2 ^ Reg.twinCommitLatency.width ∧
            t.dev.twin.closed = s.dev.twin.closed.filter (fun x => decide (num < x.num)) ∧
            (∀ w ∈ s.dev.eop.withheld, w.epoch ≤ num → t.answers w.resp) ∧ t.dev.eop.withheld = s.dev.eop.withheld.filter (fun w => decide (num < w.epoch)) ∧
            (∀ b, s.dev.twin.baseAt = some b → b ≤ num → t.dev.get Reg.twinMirrorState = 2) ∧ released t []) ∧
        (s.dev.twin.closed.find? (fun e => e.num == num) = none → ∃ t, exec (.epochAck num) s = .next t ∧ s.leaves t [] [])) ∧
      (s.dev.twin.closed.any (fun e => decide (e.closedAt + s.dev.get Reg.twinAckLimit * fuMs ≤ s.dev.now)) = true →
        ∃ t, exec .epochAckTimeout s = .next t ∧ t.dev.get Reg.twinMirrorState = 3 ∧ t.dev.twin.closed = [] ∧
          (∀ w ∈ s.dev.eop.withheld, t.answers w.resp) ∧ released t []) ∧
      (s.dev.twin.closed.any (fun e => decide (e.closedAt + s.dev.get Reg.twinAckLimit * fuMs ≤ s.dev.now)) = false →
        ∃ t, exec .epochAckTimeout s = .next t ∧ s.counts t Reg.schedStaleCount ∧ s.leaves t (counted Reg.schedStaleCount) [])) ∧
    (s.dev.standby = true → ∀ (num : Nat) (rs : List MirrorRec),
      (mirrors →
        (∃ t, exec (.epochReceived num rs true) s = .next t ∧
          t.dev.twin.ready = s.dev.twin.ready.filter (fun e => e.num != num) ++ [⟨num, rs, s.dev.now⟩] ∧ t.dev.twin.part = none ∧ s.leaves t numbered [.twin]) ∧
        (∃ t, exec (.epochReceived num rs false) s = .next t ∧ s.counts t Reg.twinEpochsFailed ∧
          (s.dev.twin.failedNum = some num → t.dev.get Reg.twinMirrorState = 3) ∧
          (s.dev.twin.failedNum ≠ some num → t.dev.twin.failedNum = some num ∧ t.dev.get Reg.twinMirrorState = s.dev.get Reg.twinMirrorState) ∧
          s.leaves t ([Reg.twinEpochsFailed.ref, Reg.twinMirrorState.ref] ++ numbered) [.twin, .journal])) ∧
      (¬ mirrors → ∀ good, ∃ t, exec (.epochReceived num rs good) s = .next t ∧ s.leaves t [] [])) ∧
    (s.dev.get Reg.twinMirrorState ≠ 1 → s.dev.now % fuCycle = 0 → ∀ e l, s.dev.twin.ready = l ++ [e] →
      (∃ t, exec .epochCommit s = .next t ∧ t.dev.get Reg.twinEpoch = e.num % 2 ^ Reg.twinEpoch.width) ∧
      (l = [] → e.records = [] →
        ∃ t, exec .epochCommit s = .next t ∧ t.dev.twin.ready = [] ∧ (s.dev.get Reg.twinState = 3 → .epochAck e.num ∈ t.dev.out) ∧
          s.leaves t (Reg.twinEpoch.ref :: numbered) [.twin]) ∧
      (∀ r, l = [] → e.records = [r] → r.kind = 2 → s.dev.hostUsed < 3840 → (s.dev.mirrorAction e.num r).needs = [] →
        ∃ t a, exec .epochCommit s = .next t ∧ t.dev.sched.actions = s.dev.sched.actions ++ [a] ∧ a.origin = .mirror ∧ a.mirrorOf = r.handle ∧
          a.cls = r.data.getD 0 0 ∧ a.target = r.ref ∧ a.value = r.value ∧ a.bake = r.bake ∧ s.leaves t (Reg.twinEpoch.ref :: numbered) [.twin, .schedule])) ∧
    (s.dev.get Reg.twinMirrorState = 1 ∨ s.dev.now % fuCycle ≠ 0 ∨ s.dev.twin.ready = [] → ∃ t, exec .epochCommit s = .next t ∧ s.leaves t [] []) ∧
    ∀ b : Baseline,
      (s.dev.standby = false ∨ s.dev.get Reg.twinMirrorState ≠ 1 ∨ s.dev.now % fuCycle ≠ 0 → ∃ t, exec (.baselineComplete b) s = .next t ∧ s.leaves t [] []) ∧
      (s.dev.standby = true → s.dev.get Reg.twinMirrorState = 1 → s.dev.now % fuCycle = 0 → (∀ e ∈ s.dev.twin.ready, e.num ≤ b.epoch) →
        ∃ t, exec (.baselineComplete b) s = .next t ∧ t.dev.get Reg.twinMirrorState = 2 ∧ t.dev.get Reg.twinEpoch = b.epoch % 2 ^ Reg.twinEpoch.width ∧
          t.dev.twin.ready = [] ∧ .epochAck b.epoch ∈ t.dev.out ∧
          (b.records = [] →
            s.leavesAt t [(0x3000, 0x7FFF), (0x9100, 0x910F)] (written Reg.pktQConfig.ref ++ written Reg.secCgApply.ref)
              [.fab, .pkt, .sec, .stored, .store, .schedule, .twin]))

/-! ### Client ports, FlexE and the mate link (chapter 15) -/

/-- Client ports and lanes (R366 to R369, R374): a port type and a lane's training as their checks allow; the PCS's report, a lane's lock and a training time-out move the states; a
FlexE member leaves its group and rejoins; a configuration is held, agreed and swapped in. -/
def Obligations.PortsAndLanesFollow : Prop :=
  ∀ s : State,
    let ports := fun t : State => s.leavesAt t [(0x3000, 0x4FFF), (0xA000, 0xAFFF), (0x9100, 0x910F)] numbered [.fab, .pkt, .lane]
    let flexe := fun t : State => s.leavesAt t [(0x3000, 0x3FFF), (0xA000, 0xAFFF), (0x9100, 0x910F)] numbered [.fab, .lane]
    (∀ (q : Req) (p : PortNo) (v : Val),
      (s.fresh.writes q 1 (Reg.lanePortType p).ref = true → valueCheck (Reg.lanePortType p) (rangeOf (Reg.lanePortType p).ref) v = none →
        (portTypeCheck p v.raw s.dev = none →
          ∃ t, exec (.lanePortType q p v) s = .next t ∧ t.dev.get (Reg.lanePortType p) = v.raw ∧
            t.dev.get (Reg.lanePortSlots p) = typeSlots v.raw % 2 ^ (Reg.lanePortSlots p).width ∧ t.answers (respOf q 2 stSuccess (beBytes 4 0)) ∧
            s.leavesAt t [(0x3000, 0x4FFF), (0x9100, 0x910F)] ([(Reg.lanePortType p).ref, (Reg.lanePortSlots p).ref] ++ written (Reg.lanePortType p).ref)
              [.store, .fab]) ∧
        ∀ e, portTypeCheck p v.raw s.dev = some e →
          ∃ t, exec (.lanePortType q p v) s = .next t ∧ t.answers (respOf q 2 e.status (errBytes e)) ∧ s.leaves t numbered []) ∧
      (s.fresh.writes q 1 (Reg.laneTrain p).ref = true → v.len = 1 → v.raw ≤ 1 →
        (trainCheck p v.raw s.dev = none →
          ∃ t, exec (.laneTrain q p v) s = .next t ∧ t.dev.get (Reg.laneTrain p) = v.raw ∧ t.answers (respOf q 2 stSuccess (beBytes 4 0)) ∧
            s.leaves t ((Reg.laneTrain p).ref :: written (Reg.laneTrain p).ref) [.store]) ∧
        ∀ e, trainCheck p v.raw s.dev = some e →
          ∃ t, exec (.laneTrain q p v) s = .next t ∧ t.answers (respOf q 2 e.status (errBytes e)) ∧ s.leaves t numbered [])) ∧
    (s.dev.dead = false → ∀ p : PortNo,
      let rx := s.dev.get (Reg.laneRxState p)
      let tx := s.dev.get (Reg.laneTxState p)
      let trains := s.dev.get (Reg.laneTrain p) = 1 ∧ (rx = 3 ∨ tx = 2)
      (trains → ∃ t, exec (.trainingTimeout p) s = .next t ∧ t.dev.get (Reg.laneRxState p) = (if rx = 0 then 0 else 3) ∧
        t.dev.get (Reg.laneTxState p) = (if tx = 0 then 0 else 2) ∧ s.leaves t ([(Reg.laneRxState p).ref, (Reg.laneTxState p).ref] ++ numbered) []) ∧
      (¬ trains → ∃ t, exec (.trainingTimeout p) s = .next t ∧ s.counts t Reg.schedStaleCount ∧ s.leaves t (counted Reg.schedStaleCount) []) ∧
      (∀ al hb lf rf : Bool,
        let receives := s.dev.get (Reg.lanePortType p) ≠ 0 ∧ bitAt (s.dev.get (Reg.lanePortEnable p)) 0 = true
        let st := if (s.dev.portLanes p).any (fun l => s.dev.get (Reg.laneRxState l) == 2 || s.dev.get (Reg.laneRxState l) == 3) then 1
          else if al && !hb && !lf then 2 else 3
        (receives → ∃ t, exec (.portLinkChange p al hb lf rf) s = .next t ∧ t.dev.get (Reg.lanePortState p) = st ∧
          t.dev.get (Reg.lanePortFaults p) % 16 = b2n (!al) + 2 * b2n hb + 4 * b2n lf + 8 * b2n rf ∧
          bitAt (t.dev.get (Reg.lanePortFaults p)) 4 = bitAt (s.dev.get (Reg.lanePortFaults p)) 4 ∧
          (st ≠ 2 → s.dev.flexMember p = true → t.dev.flexRemoved p = true) ∧ ports t) ∧
        (¬ receives → ∃ t, exec (.portLinkChange p al hb lf rf) s = .next t ∧ s.leaves t [] [])) ∧
      (∀ snr : BitVec 16,
        (∀ lock : Bool, rx ≤ 1 ∨ (rx = 4 ↔ lock = true) →
          ∃ t, exec (.laneLockChange (p.castLE (by decide)) lock snr) s = .next t ∧ t.dev.get (Reg.laneRxSnr p) = snr.toNat ∧
            s.leaves t [(Reg.laneRxSnr p).ref] []) ∧
        (2 ≤ rx → rx ≠ 4 →
          ∃ t, exec (.laneLockChange (p.castLE (by decide)) true snr) s = .next t ∧ t.dev.get (Reg.laneRxState p) = 4 ∧
            t.dev.get (Reg.laneTxState p) = (if s.dev.get (Reg.laneTrain p) = 1 ∧ tx = 2 then 3 else tx) ∧
            t.dev.get (Reg.laneRxSnr p) = snr.toNat ∧ (∀ k, s.dev.portOf p = some k → t.dev.get (Reg.lanePortState k) = t.dev.portNow k) ∧ ports t) ∧
        (rx = 4 →
          ∃ t, exec (.laneLockChange (p.castLE (by decide)) false snr) s = .next t ∧
            t.dev.get (Reg.laneRxState p) = (if s.dev.get (Reg.laneTrain p) = 1 then 3 else 2) ∧ s.counts t (Reg.laneLockLosses p) ∧
            (∀ k, s.dev.portOf p = some k → t.dev.get (Reg.lanePortFaults k) % 16 = 1 ∧ t.dev.get (Reg.lanePortState k) = t.dev.portNow k) ∧ ports t)) ∧
      (s.dev.flexRejoins p = true → ∃ t, exec (.flexeRejoinExpiry p) s = .next t ∧ t.dev.flexRemoved p = false ∧ flexe t) ∧
      (s.dev.flexRejoins p = false →
        ∃ t, exec (.flexeRejoinExpiry p) s = .next t ∧ s.counts t Reg.schedStaleCount ∧ s.leaves t (counted Reg.schedStaleCount) []) ∧
      (s.dev.flexMember p = true →
        (∃ t, exec (.flexeOverheadLockChange p false) s = .next t ∧ t.dev.lane.overheadLost.contains p.val = true ∧ t.dev.flexRemoved p = true ∧
          tblGet t.dev.lane.flexUp p = none ∧ flexe t) ∧
        ∃ t, exec (.flexeOverheadLockChange p true) s = .next t ∧ t.dev.lane.overheadLost.contains p.val = false ∧
          (s.dev.get (Reg.lanePortState p) = 2 → tblGet t.dev.lane.flexUp p = some ((tblGet s.dev.lane.flexUp p).getD s.dev.now)) ∧ flexe t) ∧
      (s.dev.flexMember p = false → ∀ lock, ∃ t, exec (.flexeOverheadLockChange p lock) s = .next t ∧ s.leaves t [] [])) ∧
    (∀ (q : Req) (crc : BitVec 32) (x : Transfer), s.endsBlock q 1 Reg.laneFlexeNext.ref crc x →
      ∃ t, exec (.laneFlexeNext q crc) s = .next t ∧
        (∀ c, Config.flexe x.data = some c → s.dev.flexError c = none → t.dev.dom Reg.laneFlexeNext.ref = x.data ∧ t.answers (respOf q 5 stSuccess [])) ∧
        (∀ c e, Config.flexe x.data = some c → s.dev.flexError c = some e → t.answers (respOf q 5 e.status (errBytes e)) ∧ s.leaves t numbered []) ∧
        (Config.flexe x.data = none → t.answers (respOf q 5 stInvalidValue (errBytes (err stInvalidValue))) ∧ s.leaves t numbered []) ∧
        s.leaves t (written Reg.laneFlexeNext.ref) [.stored, .store]) ∧
    (∀ (h : BitVec 32) (a : Action), s.dev.fires h.toNat a 8 → a.target = Reg.laneFlexeApply.ref →
      let bs := s.dev.dom Reg.laneFlexeNext.ref
      let fails := fun t : State => s.counts t Reg.schedFailedCount ∧ t.dev.lane = s.dev.lane ∧ t.dev.get Reg.laneFlexeApply = s.dev.get Reg.laneFlexeApply
      ∃ t, exec (.flexeCalendarStart h false) s = .next t ∧
        (∀ c, Config.flexe bs = some c →
          (s.dev.flexError c = none → t.dev.lane.switching = some bs ∧ t.dev.get Reg.laneFlexeApply = a.value % 2 ^ Reg.laneFlexeApply.width) ∧
          (s.dev.flexError c ≠ none → fails t)) ∧
        (Config.flexe bs = none → fails t) ∧
        s.leaves t (Reg.laneFlexeApply.ref :: Reg.schedFailedCount.ref :: fired ++ noticed Reg.schedList.ref) [.lane, .schedule]) ∧
    (∀ bs, s.dev.lane.switching = some bs → s.dev.dead = false →
      ∃ t, exec .flexeCalendarSwap s = .next t ∧ t.dev.lane.flexActive = (Config.flexe bs).getD [] ∧ t.dev.lane.calendarB = !s.dev.lane.calendarB ∧
        t.dev.lane.switching = none ∧ (∀ p : PortNo, t.dev.flexMember p = true → t.dev.get (Reg.lanePortState p) ≠ 2 → t.dev.flexRemoved p = true) ∧
        s.leavesAt t [(0x3000, 0x3FFF), (0xA000, 0xAFFF), (0x9100, 0x910F)] (written Reg.laneFlexeActive.ref) [.lane, .stored, .store, .fab]) ∧
    (s.dev.lane.switching = none → ∃ t, exec .flexeCalendarSwap s = .next t ∧ s.leaves t [] [])

/-- The mate link's lanes (R376 to R379): the third valid mark in a row locks a lane, the second missing one in a row and too many uncorrectable codewords unlock it, as does the loss of its
clock; a mark of another lane is counted; a locked lane's data wait with their cycle; a direction changes its lane set at cycle SWITCH. -/
def Obligations.MateLanesLockAndSwitch : Prop :=
  ∀ s : State,
    let more := fun t : State => s.leavesAt t [(0x2000, 0x3FFF), (0x5000, 0x7FFF), (0xA000, 0xAFFF), (0x9100, 0x910F)] []
      [.lane, .fab, .twin, .journal, .tim, .schedule, .rx, .frm]
    (∀ k : Fin 8,
      let on := s.dev.lane.mateOn = true ∧ bitAt (s.dev.get Reg.laneMateEnable) k = true
      (∀ (lock : Bool) (snr : BitVec 16), s.dev.phase ≠ .reset →
        (lock = true ∨ ¬ on →
          ∃ t, exec (.laneLockChange ⟨32 + k.val, by omega⟩ lock snr) s = .next t ∧ t.dev.get (Reg.laneRxSnr (32 + k)) = snr.toNat ∧
            s.leaves t [(Reg.laneRxSnr (32 + k)).ref] []) ∧
        (lock = false → on →
          ∃ t, exec (.laneLockChange ⟨32 + k.val, by omega⟩ lock snr) s = .next t ∧ bitAt (t.dev.get Reg.laneMateRxLanes) k = false ∧
            (s.dev.lane.mateClock = 0 → t.dev.get Reg.laneMateRxLanes % 256 = 0) ∧ tblGet t.dev.lane.marks k = none ∧ more t)) ∧
      ∀ (mark : Option (BitVec 128)) (blocks : List (BitVec 128)) (skew : Int),
        let got := laneReceived (blocks.map (·.toNat))
        let r := tblGetD s.dev.lane.marks k (0, 0, 0)
        let locked := bitAt (s.dev.get Reg.laneMateRxLanes) k
        let i := Instr.mateLaneMark k mark blocks skew
        (¬ on → ∃ t, exec i s = .next t ∧ s.leaves t [] []) ∧
        (on → s.dev.mateDegrades k got.2.2 = true →
          ∃ t, exec i s = .next t ∧ bitAt (t.dev.get Reg.laneMateRxLanes) k = false ∧ s.counts t (Reg.laneLockLosses (32 + k)) ∧ more t) ∧
        (on → s.dev.mateDegrades k got.2.2 = false →
          (mark.all (fun w => !s.dev.markOk w.toNat || markLane w.toNat != k) = true →
            ∃ t, exec i s = .next t ∧ tblGet t.dev.lane.marks k = some (0, r.2.1 + 1, r.2.2 + 1) ∧
              bitAt (t.dev.get Reg.laneMateRxLanes) k = (locked && r.2.1 == 0) ∧
              (mark.any (fun w => s.dev.markOk w.toNat) = true → s.counts t Reg.laneMateMiswire) ∧
              (locked = true → r.2.1 = 0 → (k.val, r.2.2 + 1, got.1) ∈ t.dev.lane.mateIn) ∧ more t ∧
              (r.2.1 = 0 → s.leaves t [Reg.laneMateCwCorr.ref, Reg.laneMateCwUncorr.ref, Reg.laneMateSkew.ref, Reg.laneMateMiswire.ref] [.lane])) ∧
          ∀ w : BitVec 128, mark = some w → s.dev.markOk w.toNat = true → markLane w.toNat = k →
            let run := if 0 < r.1 ∧ r.2.2 + 1 = markCycle w.toNat then r.1 + 1 else 1
            ∃ t, exec i s = .next t ∧ tblGet t.dev.lane.marks k = some (run, 0, markCycle w.toNat) ∧
              bitAt (t.dev.get Reg.laneMateRxLanes) k = (locked || decide (3 ≤ run)) ∧
              (locked = true ∨ 3 ≤ run → (k.val, markCycle w.toNat, got.1) ∈ t.dev.lane.mateIn ∧
                (markNext w.toNat ≠ markTx w.toNat → t.dev.lane.rxNext = some (markNext w.toNat, markSwitch w.toNat))) ∧ more t ∧
              (locked = false → run < 3 → s.leaves t [Reg.laneMateCwCorr.ref, Reg.laneMateCwUncorr.ref, Reg.laneMateSkew.ref] [.lane]))) ∧
    (s.dev.lane.mateOn = true →
      (∀ next cycle, s.dev.lane.txNext = some (next, cycle) → cycle ≤ s.dev.now / fuCycle →
        ∃ t, exec (.mateWidthSwitch true) s = .next t ∧ t.dev.get Reg.laneMateTxLanes = next % 256 ∧ t.dev.lane.txNext = none ∧
          s.counts t Reg.laneMateWidthChanges ∧ more t) ∧
      (∀ next cycle, s.dev.lane.rxNext = some (next, cycle) →
        ∃ t, exec (.mateWidthSwitch false) s = .next t ∧ t.dev.lane.rxDeal = next ∧ t.dev.lane.rxNext = none ∧ s.counts t Reg.laneMateWidthChanges ∧ more t)) ∧
    (s.dev.lane.mateOn = false ∨ s.dev.lane.txNext.all (fun e => decide (s.dev.now / fuCycle < e.2)) = true →
      ∃ t, exec (.mateWidthSwitch true) s = .next t ∧ s.leaves t [] []) ∧
    (s.dev.lane.mateOn = false ∨ s.dev.lane.rxNext = none → ∃ t, exec (.mateWidthSwitch false) s = .next t ∧ s.leaves t [] [])

/-! ### Monitor converter and calibration (chapter 16) -/

/-- The converter (R387 to R395): a result, with the corrections in force, goes to its channel and to the work in progress; the reference becomes ready; a self-calibration is requested,
collects its results, ends and applies; a sequence takes its channels, starts its passes and records each step. -/
def Obligations.ConverterServesItsOwners : Prop :=
  ∀ s : State,
    let calibrates := fun t : State => t.dev.mon.calQueued = true ∨ t.dev.mon.work = .selfCal
    (∀ (code : Int) (ovr : Bool),
      let raw := clampCode code
      let value := s.dev.corrected raw
      (s.dev.get Reg.monRefState ≠ 2 ∨ s.dev.mon.work = .idle → ∃ t, exec (.monResult code ovr) s = .next t ∧ s.leaves t [] []) ∧
      (s.dev.get Reg.monRefState = 2 →
        (s.dev.mon.work = .selfCal →
          ∃ t, exec (.monResult code ovr) s = .next t ∧ t.dev.mon.calConv = (s.dev.mon.calConv ++ [raw]).take 44 ∧
            (ovr = true → s.counts t Reg.monOvrCount) ∧ s.leaves t [Reg.monOvrCount.ref] []) ∧
        (∀ n, s.dev.mon.work = .visit → s.dev.bias.visited = some n →
          ∃ t, exec (.monResult code ovr) s = .next t ∧
            t.dev.get (Reg.monChLast (s.dev.get (Reg.lineBiasMon n) % 32)) = resultWord s.dev.now value ovr false % 2 ^ (Reg.monChLast 0).width ∧
            (ovr = true → s.counts t Reg.monOvrCount) ∧
            s.leaves t [(Reg.monChLast (s.dev.get (Reg.lineBiasMon n) % 32)).ref, Reg.monOvrCount.ref] []) ∧
        ∀ k r, s.dev.mon.work = .seq k → s.dev.seqRun? k = some r →
          let w := (s.dev.seqSteps k).getD r.step 0
          (stepCount w ≤ r.taken → ∃ t, exec (.monResult code ovr) s = .next t ∧ s.leaves t [] []) ∧
          (r.taken < stepCount w →
            ∃ t, exec (.monResult code ovr) s = .next t ∧ t.dev.seqRun? k = some (r.take value ovr) ∧
              t.dev.get (Reg.monChLast (stepChan w % 32)) = resultWord s.dev.now value ovr false % 2 ^ (Reg.monChLast 0).width ∧
              s.leaves t [(Reg.monChLast (stepChan w % 32)).ref, Reg.monOvrCount.ref] []))) ∧
    (s.dev.phase ≠ .reset →
      (s.dev.get Reg.monRefState = 1 →
        ∃ t, exec .monRefReady s = .next t ∧ t.dev.get Reg.monRefState = 2 ∧ t.dev.mon.refSeen = true ∧
          (s.dev.mon.refSeen = false → calibrates t) ∧ s.leaves t (Reg.monRefState.ref :: numbered) []) ∧
      (s.dev.get Reg.monRefState ≠ 1 →
        ∃ t, exec .monRefReady s = .next t ∧ s.counts t Reg.schedStaleCount ∧ s.leaves t (counted Reg.schedStaleCount) [])) ∧
    (∀ (q : Req) (v : Val), s.fresh.writes q 1 Reg.monRefEnable.ref = true → v.len = 1 → v.raw ≤ 1 →
      (refEnableCheck v.raw s.dev = none →
        ∃ t, exec (.monRefEnable q v) s = .next t ∧ t.dev.get Reg.monRefEnable = v.raw ∧ t.answers (respOf q 2 stSuccess (beBytes 4 0)) ∧
          t.dev.get Reg.monRefState = (if v.raw = 0 then 0 else if s.dev.get Reg.monRefState = 0 then 1 else s.dev.get Reg.monRefState) ∧
          s.leaves t ([Reg.monRefEnable.ref, Reg.monRefState.ref] ++ written Reg.monRefEnable.ref) [.store]) ∧
      ∀ e, refEnableCheck v.raw s.dev = some e →
        ∃ t, exec (.monRefEnable q v) s = .next t ∧ t.answers (respOf q 2 e.status (errBytes e)) ∧ s.leaves t numbered []) ∧
    (∀ q : Req, s.fresh.writes q 1 Reg.monCalStart.ref = true → ∀ b : Bool,
      ∃ t, exec (.monCalStart q ⟨1, b2n b⟩) s = .next t ∧ (b = true → calibrates t) ∧ t.answers (respOf q 2 stSuccess (beBytes 4 0)) ∧ s.leaves t numbered []) ∧
    (∀ delays : List Int,
      (s.dev.mon.work = .selfCal → 44 ≤ s.dev.mon.calConv.length →
        let x := s.dev.calFound s.dev.mon.calConv
        ∃ t, exec (.monSelfCalDone delays) s = .next t ∧ t.dev.get Reg.monCalOffset = ofSigned Reg.monCalOffset.width x.1 % 2 ^ Reg.monCalOffset.width ∧
          t.dev.get Reg.monCalGain = ofSigned Reg.monCalGain.width x.2 % 2 ^ Reg.monCalGain.width ∧ s.counts t Reg.monCalRuns ∧
          t.dev.get Reg.monCalLast = fuToTime96 s.dev.now % 2 ^ Reg.monCalLast.width ∧ t.dev.mon.measured = some (s.dev.now, delays) ∧
          s.leaves t ([Reg.monCalOffset.ref, Reg.monCalGain.ref, Reg.monCalRuns.ref, Reg.monCalLast.ref] ++ numbered) []) ∧
      (s.dev.mon.work ≠ .selfCal ∨ s.dev.mon.calConv.length < 44 → ∃ t, exec (.monSelfCalDone delays) s = .next t ∧ s.leaves t [] [])) ∧
    (∀ temp : Int, s.dev.dead = false → -32768 ≤ temp → temp < 32768 →
      ∃ t, exec (.dieTempTrigger temp) s = .next t ∧ t.dev.getI Reg.calDieTemp = temp ∧
        (∀ x, s.dev.mon.calTemp = some x → s.dev.tempMoved x temp = true → calibrates t) ∧
        (∀ c : CarrierNo, s.dev.tempMoved (s.dev.getI (Reg.calTempLast c)) temp = true → s.dev.on (Reg.calRxEnable c) = true → (s.dev.calAt c).run = 0 →
          (t.dev.calAt c).run = 1) ∧
        s.leaves t (Reg.calDieTemp.ref :: numbered) []) ∧
    (∀ (q : Req) (k : Fin 8) (crc : BitVec 32) (x : Transfer), s.endsBlock q 1 (Reg.monSeqSteps k).ref crc x →
      let l := recordsOf 8 x.data
      let refused := fun e : Err => ∃ t, exec (.monSeqSteps q k crc) s = .next t ∧ t.answers (respOf q 5 e.status (errBytes e)) ∧ s.leaves t numbered []
      (s.dev.seqRun? k ≠ none → refused (err stNotPermitted)) ∧
      (s.dev.seqRun? k = none → x.data.length % 8 ≠ 0 ∨ 128 < x.data.length ∨ l.all stepValid = false → refused (err stInvalidValue)) ∧
      (s.dev.seqRun? k = none → x.data.length % 8 = 0 → x.data.length ≤ 128 → l.all stepValid = true →
        (∀ e, s.dev.claimAll (ownerSeq k) (l.map stepChan) = some e → refused e) ∧
        (s.dev.claimAll (ownerSeq k) (l.map stepChan) = none →
          ∃ t, exec (.monSeqSteps q k crc) s = .next t ∧
            t.dev.dom (Reg.monSeqSteps k).ref = l.flatMap (fun w => beBytes 8 (clearBits (clearBits w 53 48) 15 0)) ∧
            (∀ w ∈ l, t.dev.get (Reg.monChOwner (stepChan w)) = ownerSeq k % 2 ^ (Reg.monChOwner 0).width) ∧ t.answers (respOf q 5 stSuccess []) ∧
            s.leaves t ((List.range 32).map (fun ch => (Reg.monChOwner ch).ref) ++ written (Reg.monSeqSteps k).ref) [.stored, .store]))) ∧
    (∀ k : Fin 8, s.dev.dead = false → ∀ poison : Bool,
      (∀ r, s.dev.seqRun? k = some r → s.dev.get (Reg.monSeqPeriod k) ≠ 0 → r.stop = false →
        (r.inPass = true →
          ∃ t, exec (.seqPassStart k 0 poison) s = .next t ∧ t.dev.seqRun? k = some { r with due := true } ∧ s.counts t (Reg.monSeqLate k) ∧
            s.leaves t (counted (Reg.monSeqLate k)) []) ∧
        (r.inPass = false → s.dev.seqSteps k ≠ [] →
          ∃ t r', exec (.seqPassStart k 0 poison) s = .next t ∧ t.dev.seqRun? k = some r' ∧ r'.startAt = s.dev.now ∧ r'.inPass = true ∧ r'.step = 0 ∧
            s.leaves t numbered []) ∧
        (r.inPass = false → s.dev.seqSteps k = [] →
          ∃ t, exec (.seqPassStart k 0 poison) s = .next t ∧ t.dev.dom (Reg.monSeqResults k).ref = [] ∧ s.counts t (Reg.monSeqPasses k) ∧
            s.leaves t ((Reg.monSeqPasses k).ref :: numbered ++ noticed (Reg.monSeqResults k).ref) [.stored])) ∧
      (s.dev.seqRun? k = none ∨ s.dev.get (Reg.monSeqPeriod k) = 0 ∨ (∃ r, s.dev.seqRun? k = some r ∧ r.stop = true) →
        ∃ t, exec (.seqPassStart k 0 poison) s = .next t ∧ s.counts t Reg.schedStaleCount ∧ s.leaves t (counted Reg.schedStaleCount) []) ∧
      ∀ (h : BitVec 32) (a : Action), s.dev.fires h.toNat a 8 → a.target = (Reg.monSeqRun k).ref → a.value = 1 → h ≠ 0 → s.dev.seqRun? k = none →
        s.dev.seqSteps k ≠ [] →
        ∃ t r, exec (.seqPassStart k h false) s = .next t ∧ t.dev.seqRun? k = some r ∧ r.startAt = s.dev.now ∧ t.dev.get (Reg.monSeqRun k) = 1 ∧
          s.leaves t ([(Reg.monSeqRun k).ref] ++ fired ++ written (Reg.monSeqRun k).ref) [.schedule, .store]) ∧
    ∀ k : Fin 8,
      (s.dev.mon.work ≠ .seq k ∨ s.dev.seqRun? k = none → ∃ t, exec (.seqStepDone k) s = .next t ∧ s.leaves t [] []) ∧
      ∀ r, s.dev.mon.work = .seq k → s.dev.seqRun? k = some r →
        let count := stepCount ((s.dev.seqSteps k).getD r.step 0)
        let done := r.records ++ [resultWord s.dev.now (roundInt r.sum r.taken) r.ovr r.resumed]
        (r.taken < count → ∃ t, exec (.seqStepDone k) s = .next t ∧ s.leaves t [] []) ∧
        (count ≤ r.taken → r.stop = true → ∃ t, exec (.seqStepDone k) s = .next t ∧ t.dev.seqRun? k = none ∧ s.leaves t numbered []) ∧
        (count ≤ r.taken → r.stop = false →
          (r.step + 1 < (s.dev.seqSteps k).length →
            ∃ t r', exec (.seqStepDone k) s = .next t ∧ t.dev.seqRun? k = some r' ∧ r'.step = r.step + 1 ∧ r'.records = done ∧ r'.taken = 0 ∧
              s.leaves t numbered []) ∧
          ((s.dev.seqSteps k).length ≤ r.step + 1 → r.due = false ∨ s.dev.seqSteps k ≠ [] →
            ∃ t, exec (.seqStepDone k) s = .next t ∧ s.counts t (Reg.monSeqPasses k) ∧
              t.dev.dom (Reg.monSeqResults k).ref = done.flatMap (beBytes 16) ∧
              (r.due = false → s.dev.get (Reg.monSeqPeriod k) = 0 → t.dev.seqRun? k = none) ∧
              (r.due = true → ∃ r', t.dev.seqRun? k = some r' ∧ r'.startAt = s.fresh.afterGap.now ∧ r'.inPass = true) ∧
              s.leaves t ((Reg.monSeqPasses k).ref :: numbered ++ noticed (Reg.monSeqResults k).ref) [.stored]))

/-- Line-path calibration (R396 to R401, R405): a run is requested and started; an estimate gives the targets, which ramp in 64 steps; ten reports move the transmit terms or end the
run; a time-out ends it; a receiver reports the terms it finds; a calibration set whose CRCs are right replaces the stored one. -/
def Obligations.LinePathIsCalibrated : Prop :=
  ∀ (s : State) (c : CarrierNo),
    let x := s.dev.calAt c
    let active := s.dev.get (Reg.lineTxState c) = 3
    let stale := fun t : State => s.counts t Reg.schedStaleCount ∧ s.leaves t (counted Reg.schedStaleCount) []
    (∀ q : Req, s.fresh.writes q 1 (Reg.calRun c).ref = true →
      (x.run = 0 →
        ∃ t, exec (.calRun q c ⟨1, 1⟩) s = .next t ∧ (t.dev.calAt c).run = 1 ∧ (t.dev.calAt c).txQueued = true ∧
          t.answers (respOf q 2 stSuccess (beBytes 4 0)) ∧ s.leaves t numbered []) ∧
      (x.run = 1 ∨ x.run = 2 → x.run = 1 ∨ active →
        ∃ t, exec (.calRun q c ⟨1, 1⟩) s = .next t ∧ (t.dev.calAt c).run = x.run ∧ (t.dev.calAt c).rxQueued = true ∧ (t.dev.calAt c).txQueued = true ∧
          t.answers (respOf q 2 stSuccess (beBytes 4 0)) ∧ s.leaves t numbered []) ∧
      ∃ t, exec (.calRun q c ⟨1, 0⟩) s = .next t ∧ t.answers (respOf q 2 stSuccess (beBytes 4 0)) ∧ s.leaves t numbered []) ∧
    (∀ adc : AdcReport,
      (x.run = 1 → s.dev.get (Reg.calState c) = 2 →
        ∃ t, exec (.calEstimateDone c adc) s = .next t ∧ t.dev.get (Reg.calState c) = 3 ∧
          (t.dev.calAt c).rxRamp = x.rxRamp.aim (rxTargets x.rxRamp.now adc.terms) ∧
          t.dev.mon.measured = some (s.fresh.afterGap.now, adc.delays) ∧ s.leavesAt t lineRange numbered []) ∧
      (x.run ≠ 1 ∨ s.dev.get (Reg.calState c) ≠ 2 → ∃ t, exec (.calEstimateDone c adc) s = .next t ∧ s.leaves t [] [])) ∧
    (s.dev.dead = false →
      (x.rxRamp.step < 64 →
        ∃ t, exec (.calRampStep c false) s = .next t ∧ (t.dev.calAt c).rxRamp = x.rxRamp.advance ∧
          (∀ k : Fin 8, ∀ v, x.rxRamp.advance.now[k.val]? = some v →
            t.dev.get (rxTerm c k) = ofSigned (rxTerm c k).width v % 2 ^ (rxTerm c k).width) ∧
          (x.rxRamp.step = 63 → x.run = 1 → s.dev.get (Reg.calState c) = 3 → s.counts t (Reg.calRuns c)) ∧ s.leavesAt t lineRange [] []) ∧
      (64 ≤ x.rxRamp.step → ∃ t, exec (.calRampStep c false) s = .next t ∧ s.leaves t [] []) ∧
      (x.txRamp.step < 64 → x.run ≠ 2 →
        ∃ t, exec (.calRampStep c true) s = .next t ∧ (t.dev.calAt c).txRamp = x.txRamp.advance ∧ s.leaves t [] []) ∧
      (x.txRamp.step < 64 → x.run = 2 → active →
        ∃ t, exec (.calRampStep c true) s = .next t ∧ (t.dev.calAt c).txRamp = x.txRamp.advance ∧
          (∀ k : Fin 8, ∀ v, x.txRamp.advance.now[k.val]? = some v →
            t.dev.get (txTerm c k) = ofSigned (txTerm c k).width v % 2 ^ (txTerm c k).width) ∧
          (x.txRamp.step = 63 → x.iter < 4 → (t.dev.calAt c).iter = x.iter + 1) ∧
          (x.txRamp.step = 63 → 4 ≤ x.iter → s.counts t (Reg.calRuns c)) ∧ s.leavesAt t lineRange [] []) ∧
      (64 ≤ x.txRamp.step → ∃ t, exec (.calRampStep c true) s = .next t ∧ s.leaves t [] []) ∧
      (∀ (g : ScNo) (m : CalMsg),
        let counts := s.dev.rxReportGroup c = some g.val ∧ x.run = 2 ∧ x.averaging = true ∧ m.valid.toNat % 4 = 3
        (¬ counts → ∃ t, exec (.calReport c g m) s = .next t ∧ s.leaves t numbered []) ∧
        (counts → active →
          let reports := x.reports ++ [(List.range 8).map (fun k => m.terms.getD k 0)]
          let means := reportMeans reports
          (reports.length < 10 → ∃ t, exec (.calReport c g m) s = .next t ∧ (t.dev.calAt c).reports = reports ∧ s.leaves t numbered []) ∧
          (10 ≤ reports.length → ∃ t, exec (.calReport c g m) s = .next t ∧
            (∀ k : Fin 8, ∀ v, means[k.val]? = some v →
              t.dev.get (Reg.calTxReport c k) = ofSigned (Reg.calTxReport c k).width v % 2 ^ (Reg.calTxReport c k).width) ∧
            (means.zipIdx.all (fun e => s.dev.inDeadband e.2 e.1) = true → s.counts t (Reg.calRuns c)) ∧
            (means.zipIdx.all (fun e => s.dev.inDeadband e.2 e.1) = false →
              (t.dev.calAt c).averaging = false ∧ (t.dev.calAt c).txRamp.step = 0 ∧ (t.dev.calAt c).txRamp.start = x.txRamp.now) ∧
            s.leaves t ((List.range 8).map (fun k => (Reg.calTxReport c k).ref) ++ (Reg.calTxIter c).ref :: numbered) []))) ∧
      (∀ delays : List Int,
        (x.run = 2 → x.averaging = false → 64 ≤ x.txRamp.step → active →
          ∃ t, exec (.calTxSettleExpiry c delays) s = .next t ∧ (t.dev.calAt c).averaging = true ∧ (t.dev.calAt c).reports = [] ∧
            (x.iter = 1 → t.dev.mon.measured = some (s.fresh.afterGap.now, delays)) ∧ s.leaves t numbered []) ∧
        (x.run ≠ 2 ∨ x.averaging = true ∨ x.txRamp.step < 64 → ∃ t, exec (.calTxSettleExpiry c delays) s = .next t ∧ stale t)) ∧
      (x.run = 2 →
        ∃ t, exec (.calTxNoReportTimeout c) s = .next t ∧ s.counts t (Reg.calRuns c) ∧ (t.dev.calAt c).txRamp = rampIdle x.txRamp.now ∧ s.leaves t numbered []) ∧
      (x.run ≠ 2 → ∃ t, exec (.calTxNoReportTimeout c) s = .next t ∧ stale t)) ∧
    (∀ (terms : List Int) (g : Nat),
      let valid := if s.dev.reportsValid c && !x.unsteady then 3 else 0
      (s.dev.on (Reg.hubEnable c) = false → s.dev.get (Reg.lineRxState c) = 3 → s.dev.txReportGroup c = some g →
        ∃ t, exec (.calReportSend c terms) s = .next t ∧ .calReport c g x.seq valid (terms.take 8) ∈ t.dev.out ∧
          (∃ m ∈ (t.dev.frm.at c).slots, m.groups = [g] ∧ m.word = calWord x.seq valid terms) ∧
          (t.dev.calAt c).seq = (x.seq + 1) % 256 ∧ (t.dev.calAt c).unsteady = false ∧ s.leavesAt t lineRange numbered [.frm]) ∧
      (s.dev.on (Reg.hubEnable c) = true ∨ s.dev.get (Reg.lineRxState c) ≠ 3 ∨ s.dev.txReportGroup c = none →
        ∃ t, exec (.calReportSend c terms) s = .next t ∧ s.leaves t [] [])) ∧
    (∀ (q : Req) (v : Val), s.fresh.writes q 1 (Reg.calTxEnable c).ref = true → v.len = 1 → v.raw ≤ 1 →
      (calTxEnableCheck c v.raw s.dev = none →
        ∃ t, exec (.calTxEnable q c v) s = .next t ∧ t.dev.get (Reg.calTxEnable c) = v.raw ∧ t.answers (respOf q 2 stSuccess (beBytes 4 0)) ∧
          (v.raw = 0 → x.run = 2 → s.counts t (Reg.calRuns c)) ∧
          s.leaves t ((Reg.calTxEnable c).ref :: written (Reg.calTxEnable c).ref) [.store]) ∧
      ∀ e, calTxEnableCheck c v.raw s.dev = some e →
        ∃ t, exec (.calTxEnable q c v) s = .next t ∧ t.answers (respOf q 2 e.status (errBytes e)) ∧ s.leaves t numbered []) ∧
    ∀ (q : Req) (crc : BitVec 32) (y : Transfer), s.endsBlock q 2 Reg.calSet.ref crc y →
      ∃ t, exec (.calSet q crc) s = .next t ∧
        (Config.calSetGood y.data = true →
          t.dev.dom Reg.calSet.ref = y.data ∧ t.dev.get Reg.calSetState = 1 ∧ t.dev.get Reg.calSetGen = (s.dev.get Reg.calSetGen + 1) % 2 ^ 32 ∧
            t.dev.mon.unusable = [] ∧ t.answers (respOf q 5 stSuccess [])) ∧
        (Config.calSetGood y.data = false → t.answers (respOf q 5 stInvalidValue (errBytes (err stInvalidValue))) ∧ s.leaves t numbered []) ∧
        s.leaves t ([Reg.calSetState.ref, Reg.calSetGen.ref] ++ numbered) [.stored]

/-! ### Telemetry (chapter 19) -/

/-- Counters, snapshot groups, the ring, sweeps and bandwidth windows (R448 to R460): a counter is configured or zeroed, a group takes its members and latches them in a
record, HBM takes the oldest record waiting, a sweep reads its set item by item between a start and an end record, a window's bytes become rates. -/
def Obligations.TelemetryRecords : Prop :=
  ∀ s : State,
    (∀ (q : Req) (b : Fin 16) (k : Fin 8) (v : Val), s.fresh.writes q 1 (Reg.telCntCtrl b k).ref = true → v.len = 4 → v.raw < 2 ^ 32 →
      (ctrlValid b v.raw = true →
        ∃ t, exec (.telCntCtrl q b k v) s = .next t ∧ t.dev.get (Reg.telCntCtrl b k) = v.raw &&& 0x8FFFFFFF ∧
          8 * b.val + k.val ∈ t.dev.tel.ctrlWaits ∧ t.answers (respOf q 2 stSuccess (beBytes 4 0)) ∧
          s.leaves t ((Reg.telCntCtrl b k).ref :: written (Reg.telCntCtrl b k).ref) [.store]) ∧
      (ctrlValid b v.raw = false →
        ∃ t, exec (.telCntCtrl q b k v) s = .next t ∧ t.answers (respOf q 2 stInvalidValue (errBytes (err stInvalidValue))) ∧ s.leaves t numbered [])) ∧
    (∀ (q : Req) (b : Fin 16) (k : Fin 8) (v : Val), s.fresh.writes q 1 (Reg.telCnt b k).ref = true → v.len = 8 → v.raw < 2 ^ 64 →
      ∃ t, exec (.telCnt q b k v) s = .next t ∧ t.dev.get (Reg.telCnt b k) = 0 ∧ bitAt (t.dev.get (Reg.telCntCtrl b k)) 30 = false ∧
        t.answers (respOf q 2 stSuccess (beBytes 4 0)) ∧ s.leaves t [Reg.schedLastSeq.ref, (Reg.telCnt b k).ref, (Reg.telCntCtrl b k).ref] []) ∧
    (∀ (q : Req) (g : Fin 32) (crc : BitVec 32) (x : Transfer), s.endsBlock q 1 (Reg.telGrpMembers g).ref crc x →
      let l := recordsOf 4 x.data
      let wrong := x.data.length % 4 ≠ 0 ∨ 1024 < x.data.length ∨ l.all memberValid = false
      (¬ wrong → l.length ≤ 168 ∨ s.dev.get (Reg.telGrpDest g) = 0 →
        ∃ t, exec (.telGrpMembers q g crc) s = .next t ∧ t.dev.dom (Reg.telGrpMembers g).ref = x.data ∧ t.answers (respOf q 5 stSuccess []) ∧
          s.leaves t numbered [.stored]) ∧
      (¬ wrong → 168 < l.length → s.dev.get (Reg.telGrpDest g) ≠ 0 →
        ∃ t, exec (.telGrpMembers q g crc) s = .next t ∧ t.answers (respOf q 5 stInvalidCombination (errBytes (err stInvalidCombination))) ∧
          s.leaves t numbered []) ∧
      (wrong →
        ∃ t, exec (.telGrpMembers q g crc) s = .next t ∧ t.answers (respOf q 5 stInvalidValue (errBytes (err stInvalidValue))) ∧ s.leaves t numbered [])) ∧
    (∀ (h : BitVec 32) (a : Action) (g : Fin 32) (poisoned : List Nat), s.dev.dead = false → s.dev.fires h.toNat a 5 → a.args = [g.val] →
      let ms := s.dev.members g
      let lost := fun m : Nat => poisoned.contains m
      let skips := s.dev.tel.waiting.any (fun r => r.typ == 1 && r.id == g.val) || !s.dev.telRoom (ceilTo 64 (64 + 8 * ms.length))
      let r : RingRec := ⟨1, g, ms.length, fuToTime96 s.dev.now, a.armSeq, tblGetD s.dev.tel.skipped g 0, s.dev.tel.stepped.contains g,
        (poisoned.filter (fun m => decide (m < ms.length))).foldl (fun x m => withBit x m true) 0,
        ms.zipIdx.flatMap (fun e => beBytes 8 (if lost e.2 then 0 else (s.firing a h.toNat).memberValue (memberRef e.1)))⟩
      let repeats := fun t : State => a.origin = .device → ∀ p : Nat, s.dev.get (Reg.telGrpPeriod g) = p → p ≠ 0 →
        ∃ b ∈ t.dev.sched.actions ++ t.dev.sched.waiting, b.cls = 5 ∧ b.origin = .device ∧ b.args = [g.val] ∧
          b.bake = fuToTime96 (nextMultiple (p * fuMs) s.dev.now)
      let more := Reg.schedDeviceWaits.ref :: fired
      (skips = true →
        ∃ t, exec (.counterGroupDump h poisoned false) s = .next t ∧ s.counts t (Reg.telGrpSkips g) ∧ t.dev.tel.waiting = s.dev.tel.waiting ∧
          tblGet t.dev.tel.skipped g = some (tblGetD s.dev.tel.skipped g 0 + 1) ∧ repeats t ∧ s.leaves t ((Reg.telGrpSkips g).ref :: more) [.schedule]) ∧
      (skips = false →
        ∃ t, exec (.counterGroupDump h poisoned false) s = .next t ∧ t.dev.dom (Reg.telGrpRecord g).ref = recBytes false r ∧ repeats t ∧
          (s.dev.get (Reg.telGrpDest g) = 0 ∨ s.dev.get (Reg.telGrpDest g) = 2 → s.records t r) ∧
          (s.dev.get (Reg.telGrpDest g) = 1 → t.dev.tel.waiting = s.dev.tel.waiting) ∧
          (∀ (b : Fin 16) (k : Fin 8) (i w : Nat), ms[i]? = some w → lost i = false → memberClear w = true → memberRef w = (Reg.telCnt b k).ref →
            (poisonRefs 11 0x9FF0 ++ noticed Reg.schedList.ref ++ noticed (Reg.telGrpRecord g).ref).contains (Reg.telCnt b k).ref = false →
            t.dev.get (Reg.telCnt b k) = 0) ∧
          (ms ≠ [] → poisoned = [0] → (ms.map memberRef).contains (Reg.memPoisonConsumed 10).ref = false → s.counts t (Reg.memPoisonConsumed 10)) ∧
          s.leaves t (ms.map memberRef ++ (Reg.telGrpDumps g).ref :: more ++ noticed (Reg.telGrpRecord g).ref ++ poisonRefs 11 0x9FF0)
            [.schedule, .stored, .fab, .pkt])) ∧
    ((s.dev.tel.waiting = [] → ∃ t, exec .ringRecordWrite s = .next t ∧ s.leaves t [] []) ∧
     ∀ r rest, s.dev.tel.waiting = r :: rest →
      (s.dev.ringHeld (s.dev.get Reg.telRingWrite + recSize r) = false →
        ∃ t, exec .ringRecordWrite s = .next t ∧ t.dev.tel.waiting = rest ∧
          t.dev.get Reg.telRingWrite = (s.dev.get Reg.telRingWrite + recSize r) % 2 ^ Reg.telRingWrite.width ∧
          (recSize r ≤ ringBytes → (s.dev.get Reg.telRingWrite, recBytes s.dev.tel.lost r) ∈ t.dev.tel.ring) ∧
          s.leaves t [Reg.telRingWrite.ref, Reg.telRingOldest.ref] []) ∧
      (s.dev.ringHeld (s.dev.get Reg.telRingWrite + recSize r) = true →
        ∃ t, exec .ringRecordWrite s = .next t ∧ t.dev.tel.waiting = rest ∧ t.dev.tel.ring = s.dev.tel.ring ∧ t.dev.tel.lost = true ∧
          s.counts t Reg.telRingDrops ∧ s.leaves t [Reg.telRingDrops.ref] [])) ∧
    (∀ (q : Req) (v : Val), s.fresh.writes q 1 Reg.telRingFrom.ref = true → valueCheck Reg.telRingFrom (rangeOf Reg.telRingFrom.ref) v = none →
      (s.dev.get Reg.telRingOldest ≤ v.raw → v.raw < s.dev.get Reg.telRingWrite →
        ∃ t, exec (.telRingFrom q v) s = .next t ∧ t.dev.get Reg.telRingFrom = v.raw ∧ t.answers (respOf q 2 stSuccess (beBytes 4 0)) ∧
          s.leaves t (Reg.telRingFrom.ref :: written Reg.telRingFrom.ref) [.store]) ∧
      (v.raw < s.dev.get Reg.telRingOldest ∨ s.dev.get Reg.telRingWrite ≤ v.raw →
        ∃ t, exec (.telRingFrom q v) s = .next t ∧ t.answers (respOf q 2 stInvalidValue (errBytes (err stInvalidValue))) ∧ s.leaves t numbered [])) ∧
    (s.dev.dead = false →
      (∀ set : Fin 3,
        let period := s.dev.get (Reg.telSweepPeriod set)
        let left := if set.val = 0 then (s.dev.pkt.flows.filter (·.2.valid)).map (·.1) else []
        let began := fun (t : State) (seq : Nat) =>
          t.dev.sweep? set = some ⟨s.dev.now, [], 0, left, s.dev.now⟩ ∧ t.dev.get (Reg.telSweepState set) = 2 ∧
            s.records t ⟨2, set + 1, 0, fuToTime96 s.dev.now, seq, 0, s.dev.tel.stepped.contains (33 + set.val), 0, []⟩ ∧
            t.dev.get (Reg.telSweepLastStart set) = fuToTime96 s.dev.now % 2 ^ (Reg.telSweepLastStart set).width ∧
            (period ≠ 0 → ∃ b ∈ t.dev.sched.actions ++ t.dev.sched.waiting, b.cls = 8 ∧ b.origin = .device ∧ b.target = (Reg.telSweepStart set).ref ∧ b.value = 1 ∧
              b.bake = fuToTime96 (s.dev.now + period * fuSec))
        (∀ (h : BitVec 32) (a : Action), s.dev.fires h.toNat a 8 → a.target = (Reg.telSweepStart set).ref → a.value = 1 →
          let i := if a.origin = .device then Instr.sweepPeriodDue set h false else .sweepStart set h false
          (a.origin = .device ∨ h ≠ 0) →
          (a.origin = .device → period = 0 → ∃ t, exec i s = .next t ∧ t.dev.tel = s.dev.tel ∧ s.leaves t fired [.schedule]) ∧
          (a.origin ≠ .device ∨ period ≠ 0 →
            (s.dev.sweep? set = none →
              ∃ t, exec i s = .next t ∧ began t a.armSeq ∧ s.leaves t ((Reg.telSweepLastStart set).ref :: Reg.schedDeviceWaits.ref :: fired) [.schedule]) ∧
            (s.dev.sweep? set ≠ none →
              ∃ t, exec i s = .next t ∧ s.counts t (Reg.telSweepLate set) ∧ set.val ∈ t.dev.tel.due ∧ t.dev.get (Reg.telSweepState set) = 3 ∧
                t.dev.sweep? set = s.dev.sweep? set ∧ s.leaves t ((Reg.telSweepLate set).ref :: fired) [.schedule]))) ∧
        (∀ (h : BitVec 32) (poison : Bool), s.dev.action? h.toNat = none →
          (h ≠ 0 → ∃ t, exec (.sweepStart set h poison) s = .next t ∧ s.leaves t [] []) ∧
          ∃ t, exec (.sweepPeriodDue set h poison) s = .next t ∧ s.leaves t [] []) ∧
        ∀ poison : Bool,
          (set.val ∈ s.dev.tel.due → s.dev.sweep? set = none →
            ∃ t seq, exec (.sweepStart set 0 poison) s = .next t ∧ began t seq ∧
              s.leaves t ((Reg.telSweepLastStart set).ref :: Reg.schedDeviceWaits.ref :: numbered) [.schedule]) ∧
          (set.val ∉ s.dev.tel.due ∨ s.dev.sweep? set ≠ none → ∃ t, exec (.sweepStart set 0 poison) s = .next t ∧ s.leaves t [] [])) ∧
      (∀ (set : Fin 3) (w : Sweep), s.dev.sweep? set = some w → s.dev.telRoom 128 = true → s.dev.comes w.nextAt = true →
        let c := s.dev.sweepCycle w
        let read := fun (t : State) (i : Nat) (body : List Nat) =>
          s.records t ⟨4, set + 1, 0, 0, 0, 0, false, 0, body⟩ ∧
            t.dev.sweep? set = some ⟨w.startAt, w.done ++ [i], w.items + 1, w.left.filter (· != i),
              max w.nextAt s.dev.now + ceilDiv fuSec (s.dev.get (Reg.telSweepRate set))⟩
        let ended := fun t : State =>
          t.dev.sweep? set = none ∧ t.dev.get (Reg.telSweepLastEnd set) = fuToTime96 s.dev.now % 2 ^ (Reg.telSweepLastEnd set).width ∧
            (w.items < 65536 → ∃ seq, s.records t ⟨3, set + 1, w.items, fuToTime96 s.dev.now, seq, 0, s.dev.tel.stepped.contains (33 + set.val), 0, []⟩) ∧
            (set.val ∈ s.dev.tel.due → t.dev.get (Reg.telSweepState set) = 3) ∧ s.leaves t ((Reg.telSweepLastEnd set).ref :: numbered) []
        (set.val = 0 →
          (∀ (k : BitVec 320) (pos : BitVec 32),
            (∀ f : Flow, tblGet s.dev.pkt.flows k.toNat = some f → f.valid = true → w.done.contains k.toNat = false →
              ∃ t, exec (.sweepItemRead set (some (k, pos))) s = .next t ∧ read t k.toNat (flowItem c k.toNat pos.toNat f) ∧
                tblGet t.dev.pkt.flows k.toNat = some (if s.dev.on (Reg.telSweepClear 0) then
                  { foldFlow f with recPkts := 0, recBytes := 0, recPoliced := 0, recRefused := 0 } else foldFlow f) ∧
                s.leaves t numbered [.pkt]) ∧
            ((tblGet s.dev.pkt.flows k.toNat).any (·.valid) = false ∨ w.done.contains k.toNat = true →
              ∃ t, exec (.sweepItemRead set (some (k, pos))) s = .next t ∧ s.leaves t numbered [])) ∧
          (w.left.any (fun k => (tblGet s.dev.pkt.flows k).any (·.valid)) = false → ∃ t, exec (.sweepItemRead set none) s = .next t ∧ ended t) ∧
          (w.left.any (fun k => (tblGet s.dev.pkt.flows k).any (·.valid)) = true → ∃ t, exec (.sweepItemRead set none) s = .next t ∧ s.leaves t numbered [])) ∧
        (∀ f, set.val = 1 →
          let next := nextOf w.done ((s.dev.pkt.queues.filter (fun e => qcEnable e.2.cfg)).map (·.1))
          (∀ i, next = some i →
            let x := s.dev.queue i
            ∃ t, exec (.sweepItemRead set f) s = .next t ∧ read t i (queueItem c i x) ∧
              (s.dev.on (Reg.telSweepClear 1) = true → t.dev.queue i = { x with accepted := 0, refused := 0, policed := 0, rewound := 0, peak := 0 }) ∧
              (s.dev.on (Reg.telSweepClear 1) = false → t.dev.pkt = s.dev.pkt) ∧ s.leaves t numbered [.pkt]) ∧
          (next = none → ∃ t, exec (.sweepItemRead set f) s = .next t ∧ ended t)) ∧
        ∀ f, set.val = 2 →
          (∀ g, nextOf w.done s.dev.fab.active.groupList = some g →
            ∃ t, exec (.sweepItemRead set f) s = .next t ∧ read t g (s.dev.groupItem c g) ∧
              (s.dev.on (Reg.telSweepClear 2) = true → t.dev.grp g = { s.dev.grp g with hdrErrors := 0, switches := 0, realigns := 0 }) ∧
              (s.dev.on (Reg.telSweepClear 2) = false → t.dev.fab = s.dev.fab) ∧ s.leaves t numbered [.fab]) ∧
          (nextOf w.done s.dev.fab.active.groupList = none → ∃ t, exec (.sweepItemRead set f) s = .next t ∧ ended t)) ∧
      (∀ (set : Fin 3) f, s.dev.sweep? set = none ∨ s.dev.telRoom 128 = false ∨ (∃ w, s.dev.sweep? set = some w ∧ s.dev.comes w.nextAt = false) →
        ∃ t, exec (.sweepItemRead set f) s = .next t ∧ t.dev.tel = s.dev.tel ∧ s.leaves t [] []) ∧
      (s.dev.bwEnds = true →
        ∃ t, exec .bwWindowEnd s = .next t ∧
          (∀ p : Fin 66,
            let rate := fun key : Nat => bwRate (tblGetD s.dev.tel.bwBytes key 0).toNat s.dev.tel.bwCycles
            let i := rate p
            let o := rate (0x80 + p)
            t.dev.get (Reg.telBwIn p) = i % 2 ^ (Reg.telBwIn p).width ∧ t.dev.get (Reg.telBwOut p) = o % 2 ^ (Reg.telBwOut p).width ∧
              t.dev.get (Reg.telBwPeakIn p) = (if s.dev.get (Reg.telBwPeakIn p) < i then i % 2 ^ (Reg.telBwPeakIn p).width else s.dev.get (Reg.telBwPeakIn p)) ∧
              t.dev.get (Reg.telBwPeakOut p) =
                (if s.dev.get (Reg.telBwPeakOut p) < o then o % 2 ^ (Reg.telBwPeakOut p).width else s.dev.get (Reg.telBwPeakOut p))) ∧
          t.dev.get Reg.telBwEnd = fuToTime96 s.dev.now % 2 ^ Reg.telBwEnd.width ∧ t.dev.get Reg.telBwFlags = b2n s.dev.tel.bwStep ∧
          t.dev.tel.bwCycles = 0 ∧ t.dev.tel.bwBytes = [] ∧ t.dev.tel.bwStep = false ∧
          s.leavesAt t [(0x9401, 0x9404)] (Reg.telBwEnd.ref :: Reg.telBwFlags.ref :: numbered) []) ∧
      (s.dev.bwEnds = false → ∃ t, exec .bwWindowEnd s = .next t ∧ t.dev.tel = s.dev.tel ∧ s.leaves t [] []))

/-! ### Power-up, images and power states (chapter 20) -/

/-- Reset and boot (R463 to R469, R493): a reset input, a supply or a brown-out puts every object back to its Default but what MRAM keeps; after 1 ms of clock the end of reset
starts device time at 0, counts the boot, samples UNIT_SEL and boots a slot; a failed attempt and an image that has become durable go on from there. -/
def Obligations.ResetAndBootAct : Prop :=
  ∀ s : State,
    let wiped := fun (t : State) (cause : Nat) (clock : Bool) (slots : Pair ImgSlot) =>
      t.dev.phase = .reset ∧ t.dev.pwr.cause = cause ∧ t.dev.pwr.clock = clock ∧ t.dev.pwr.slots = slots ∧
        (∀ o : Obj, [Reg.calSetState.ref, Reg.calSetGen.ref, Reg.schedBootCount.ref].contains o.ref = false → followsByItself o.ref = false → t.dev.get o = o.dflt) ∧
        t.dev.get Reg.calSetState = s.dev.get Reg.calSetState ∧ t.dev.get Reg.calSetGen = s.dev.get Reg.calSetGen ∧
        t.dev.get Reg.schedBootCount = s.dev.get Reg.schedBootCount ∧ t.dev.dom Reg.calSet.ref = s.dev.dom Reg.calSet.ref ∧
        t.dev.mem.mram = s.dev.mem.mram ∧ t.dev.mem.hbm = [] ∧ t.dev.store = keptStore s.dev.store ∧
        t.dev.pwr.prefer = s.dev.pwr.prefer ∧ t.dev.pwr.rollback = s.dev.pwr.rollback ∧ t.dev.pwr.boots = s.dev.pwr.boots ∧
        t.dev.sec.wrapped.map (·.1) = s.dev.sec.wrapped.map (·.1) ∧ t.dev.sec.pairs = [] ∧ t.dev.sec.erasePending = s.dev.sec.erasePending ∧
        t.dev.tim.ho = keptStarter s.dev.tim.ho ∧ t.dev.sched.actions = [] ∧ t.dev.eop.sessions = [] ∧
        t.dev.sched.bundles = s.dev.sched.bundles.filter (fun b => b.preDurable && !b.values.isEmpty) ∧
        t.dev.eop.nonces = s.dev.eop.nonces ∧ t.dev.eop.bases = s.dev.eop.bases ∧ t.pending = s.pending ∧
        ∀ p : Part, [Part.stored, .schedule, .store, .mem, .tim, .sec, .pwr].contains p = false → samePart Device.initial t.dev p
    let boot := imageRefs ++ [Reg.pwrImgFallbacks.ref, Reg.schedBootCount.ref, Reg.twinUnit.ref, Reg.pwrResetCause.ref, Reg.monRefState.ref]
    (∃ t, exec (.resetAssert true) s = .next t ∧ wiped t 0 false s.dev.pwr.slots) ∧
    (s.dev.phase ≠ .reset →
      (∃ t, exec (.resetAssert false) s = .next t ∧ wiped t 1 s.dev.pwr.clock s.dev.pwr.slots) ∧
        ∃ t, exec .brownout s = .next t ∧ wiped t 2 false s.dev.pwr.slots) ∧
    (s.dev.phase = .reset →
      (∃ t, exec (.resetAssert false) s = .next t ∧ s.leaves t [] []) ∧ ∃ t, exec .brownout s = .next t ∧ s.leaves t [] []) ∧
    (∃ t, exec .ocxoClkRunning s = .next t ∧ t.dev.pwr = { s.dev.pwr with clock := true } ∧ s.leaves t [] [.pwr]) ∧
    (∀ (u : Fin 2) (good : Bool × Bool),
      (s.dev.phase = .reset → s.dev.pwr.clock = true →
        ∃ t, exec (.resetEnd u good) s = .next t ∧ t.dev.now = 0 ∧ t.dev.pwr.boots = s.dev.pwr.boots + 1 ∧
          t.dev.get Reg.schedBootCount = (s.dev.pwr.boots + 1) % 2 ^ Reg.schedBootCount.width ∧ t.dev.get Reg.twinUnit = u ∧
          t.dev.get Reg.pwrResetCause = s.dev.pwr.cause % 2 ^ Reg.pwrResetCause.width ∧ t.dev.get Reg.monRefState = 1 ∧
          t.dev.lane = { s.dev.lane with mateOn := s.dev.stored Reg.twinEnable } ∧
          s.booted t s.dev.pwr.slots s.dev.pwr.prefer good ∧ s.leaves t boot [.now, .phase, .pwr, .lane]) ∧
      (s.dev.phase ≠ .reset ∨ s.dev.pwr.clock = false →
        ∃ t, exec (.resetEnd u good) s = .next t ∧ s.leaves t [] [])) ∧
    (∀ good : Bool × Bool,
      (s.dev.phase = .boot ∨ s.dev.phase = .loading →
        let x := s.dev.pwr.slots.at s.dev.pwr.active
        let slots := s.dev.pwr.slots.put s.dev.pwr.active { x with fails := x.fails + 1 }
        ∃ t, exec (.bootFailureTimeout good) s = .next t ∧ t.dev.pwr.slots = slots ∧ s.booted t slots s.dev.pwr.prefer good ∧
          s.leaves t boot [.phase, .pwr, .store]) ∧
      (s.dev.phase ≠ .boot → s.dev.phase ≠ .loading →
        ∃ t, exec (.bootFailureTimeout good) s = .next t ∧ s.leaves t [] [])) ∧
    (∀ k h, s.dev.pwr.writing = some (k, h) →
      let slots := s.dev.pwr.slots.put k ⟨1, h, 0⟩
      (s.dev.phase ≠ .recovery →
        ∃ t, exec .imageWriteDurable s = .next t ∧ t.dev.pwr = { s.dev.pwr with slots := slots, writing := none } ∧
          (∀ j : Fin 2, k = j.val → s.dev.pwr.active ≠ k → t.dev.get (Reg.pwrImgState j) = 1) ∧ s.leaves t imageRefs [.pwr]) ∧
      (s.dev.phase = .recovery → ∃ t, exec .imageWriteDurable s = .next t ∧ wiped t 3 true slots)) ∧
    (s.dev.pwr.writing = none → ∃ t, exec .imageWriteDurable s = .next t ∧ s.leaves t [] [])

/-- Firmware images and control restarts (R419, R469, R470): an image goes to the idle slot or is refused; a switch restarts control in the other slot, on trial; a
confirm ends the trial and raises the rollback level, an expired trial falls back; the restart's end serves again. -/
def Obligations.ImagesSwitchAndRestart : Prop :=
  ∀ s : State,
    let restarts := fun (t : State) (refs : List Nat) (parts : List Part) =>
      t.dev.phase = .restarting ∧ s.counts t Reg.twinCtrlRestarts ∧ t.dev.eop.sessions = [] ∧ t.dev.eop.transfers = [] ∧ t.dev.deferred = [] ∧
        s.leaves t (Reg.twinCtrlRestarts.ref :: refs) ([.phase, .pwr, .deferred] ++ parts)
    (∀ (q : Req) (crc : BitVec 32) (x : Transfer), s.endsBlock q 2 Reg.pwrImgData.ref crc x →
      let h := ofBytes (x.data.take 256)
      ∃ t, exec (.pwrImgData q crc) s = .next t ∧
        (imageValid s.dev.pwr.rollback x.data = true →
          t.dev.pwr.slots = s.dev.pwr.slots.put s.dev.idleSlot ⟨2, h, 0⟩ ∧ t.dev.pwr.writing = some (s.dev.idleSlot, h) ∧
            t.answers (respOf q 5 stSuccess [])) ∧
        (imageValid s.dev.pwr.rollback x.data = false →
          t.answers (respOf q 5 stInvalidValue (errBytes (err stInvalidValue))) ∧ s.leaves t numbered []) ∧
        s.leaves t (imageRefs ++ numbered) [.pwr]) ∧
    (∀ (h : BitVec 32) (a : Action), s.dev.phase = .running → s.dev.fires h.toNat a 6 →
      ((s.dev.pwr.slots.at a.value).state = 1 →
        ∃ t, exec (.firmwareImageSwitch h false) s = .next t ∧ t.dev.pwr = { s.dev.pwr with active := a.value, trial := true } ∧
          (∀ k : Fin 2, a.value = k.val → t.dev.get (Reg.pwrImgState k) = 4) ∧ restarts t (Reg.pwrImgSwitch.ref :: imageRefs ++ fired) [.schedule]) ∧
      ((s.dev.pwr.slots.at a.value).state ≠ 1 →
        ∃ t, exec (.firmwareImageSwitch h false) s = .next t ∧ s.counts t Reg.schedFailedCount ∧
          s.leaves t (Reg.schedFailedCount.ref :: noticed Reg.schedList.ref) [.schedule])) ∧
    (∀ q : Req, s.fresh.writes q 2 Reg.pwrImgConfirm.ref = true →
      (s.dev.pwr.trial = true →
        ∃ t, exec (.pwrImgConfirm q ⟨1, 1⟩) s = .next t ∧
          t.dev.pwr = { s.dev.pwr with trial := false, prefer := s.dev.pwr.active,
                                       rollback := max s.dev.pwr.rollback (imRollback (s.dev.pwr.slots.at s.dev.pwr.active).header) } ∧
          t.answers (respOf q 2 stSuccess (beBytes 4 0)) ∧ s.leaves t (imageRefs ++ numbered) [.pwr]) ∧
      ∀ b : Bool, s.dev.pwr.trial = false ∨ b = false →
        ∃ t, exec (.pwrImgConfirm q ⟨1, b2n b⟩) s = .next t ∧ t.answers (respOf q 2 stSuccess (beBytes 4 0)) ∧ s.leaves t numbered []) ∧
    (s.dev.dead = false →
      (s.dev.pwr.trial = true → s.dev.phase ≠ .loading →
        ∃ t, exec .imageTrialExpiry s = .next t ∧ t.dev.pwr = { s.dev.pwr with active := 1 - s.dev.pwr.active, trial := false } ∧
          s.counts t Reg.pwrImgFallbacks ∧ restarts t (Reg.pwrImgFallbacks.ref :: imageRefs ++ numbered) []) ∧
      (s.dev.pwr.trial = false →
        ∃ t, exec .imageTrialExpiry s = .next t ∧ s.counts t Reg.schedStaleCount ∧ s.leaves t (counted Reg.schedStaleCount) [])) ∧
    (s.dev.phase = .restarting → s.dev.sched.bundles.all (fun b => b.values.isEmpty) = true →
      let phase := if 2 ≤ s.dev.pwr.active then Phase.recovery else .running
      (s.dev.fellDue = [] →
        ∃ t, exec .controlRestartEnd s = .next t ∧ t.dev.phase = phase ∧ s.raises t Reg.twinCtrlRestarts ∧
          s.leaves t (numbered ++ noticed Reg.twinCtrlRestarts.ref) [.phase]) ∧
      ∀ a, s.dev.fellDue = [a] → a.cls ≠ 9 → swaps a = false →
        (a.late1 = true ∨ a.bake = 0 →
          ∃ t, exec .controlRestartEnd s = .next t ∧ t.dev.phase = phase ∧
            t.dev.action? a.handle = some { a with armed := none, notBefore := s.dev.now, preimages := [], prepFail := none } ∧
            s.leaves t (numbered ++ noticed Reg.twinCtrlRestarts.ref) [.phase, .schedule]) ∧
        (a.late1 = false → a.bake ≠ 0 →
          ∃ t, exec .controlRestartEnd s = .next t ∧ t.dev.phase = phase ∧ s.counts t Reg.schedFailedCount ∧ t.dev.action? a.handle = none ∧
            s.leaves t (Reg.schedFailedCount.ref :: numbered ++ noticed Reg.twinCtrlRestarts.ref ++ noticed Reg.schedList.ref) [.phase, .schedule])) ∧
    (s.dev.phase ≠ .restarting → ∃ t, exec .controlRestartEnd s = .next t ∧ s.leaves t [] [])

/-- Power states (R475 to R479): an entry puts a resource to sleep, a wake starts it, and it is awake again when ready, when the writes that waited for it alone take effect;
PWR_FEC_ACTIVE sets the decoder pool unless the load is above it. -/
def Obligations.ResourcesSleepAndWake : Prop :=
  ∀ s : State,
    let stackRefs := (List.range 4).map (fun k => (Reg.memStackState k).ref)
    let lane := fun r : Nat => [(Reg.laneRxState ((r - 768) / 2)).ref, (Reg.laneTxState ((r - 768) / 2)).ref]
    (s.dev.dead = false →
      (∀ (h : BitVec 32) (a : Action) (r : Nat), s.dev.fires h.toNat a 7 → r < 848 →
        ∀ i ∈ [Instr.powerStateEntry h false, .powerStateWake h false],
        (∀ p, a.args = [0, r, p] →
          (256 ≤ r → r < 768 →
            ∃ t, exec i s = .next t ∧ (p ≠ 0 → t.dev.resource r = ⟨p, false, 0, a.hostPlace⟩) ∧ s.counts t Reg.pwrEntries ∧
              (∀ k, k ≠ r → t.dev.resource k = s.dev.resource k) ∧ s.leaves t (Reg.pwrEntries.ref :: fired) [.resources, .schedule]) ∧
          (r = resHbm →
            ∃ t, exec i s = .next t ∧ (p ≠ 0 → t.dev.resource r = ⟨p, false, 0, a.hostPlace⟩) ∧ s.counts t Reg.pwrEntries ∧
              (∀ k : Fin 4, t.dev.get (Reg.memStackState k) = if s.dev.get (Reg.memStackState k) = 1 then 2 else s.dev.get (Reg.memStackState k)) ∧
              (p = 3 → t.dev.mem = { s.dev.mem with hbm := [] } ∧ t.dev.tel.ring = []) ∧ (p ≠ 3 → t.dev.mem = s.dev.mem) ∧
              s.leaves t (Reg.pwrEntries.ref :: stackRefs ++ fired) [.resources, .schedule, .mem]) ∧
          (768 ≤ r →
            ∃ t, exec i s = .next t ∧ (p ≠ 0 → t.dev.resource r = ⟨p, false, 0, a.hostPlace⟩) ∧ s.counts t Reg.pwrEntries ∧
              (p ≠ 0 → r < 832 → t.dev.get (if r % 2 = 0 then Reg.laneRxState ((r - 768) / 2) else Reg.laneTxState ((r - 768) / 2)) = 1) ∧
              s.leaves t (Reg.pwrEntries.ref :: lane r ++ fired) [.resources, .schedule])) ∧
        (a.args = [1, r] →
          ∃ t, exec i s = .next t ∧
            ((s.dev.resource r).state ≠ 0 → (s.dev.resource r).waking = false →
              t.dev.resource r = { s.dev.resource r with waking := true, readyAt := s.dev.now + wakeTime (s.dev.resource r).state }) ∧
            ((s.dev.resource r).state = 0 ∨ (s.dev.resource r).waking = true → t.dev.resources = s.dev.resources) ∧
            s.leaves t fired [.resources, .schedule])) ∧
      ∀ r : Fin 848,
        ((s.dev.resource r).waking = false → ∃ t, exec (.resourceReady r) s = .next t ∧ s.leaves t [] []) ∧
        ((s.dev.resource r).waking = true →
          let woken := fun t : State => t.dev.resource r = ⟨0, false, 0, false⟩ ∧ ∀ k, k ≠ r.val → t.dev.resource k = s.dev.resource k
          (s.dev.deferred.all (fun x => x.needs.any (· != r.val)) = true →
            (256 ≤ r.val → r.val < 768 →
              ∃ t, exec (.resourceReady r) s = .next t ∧ woken t ∧
                t.dev.deferred = s.dev.deferred.map (fun x => { x with needs := x.needs.filter (· != r.val) }) ∧ s.leaves t numbered [.resources, .deferred]) ∧
            (r.val = resHbm →
              ∃ t, exec (.resourceReady r) s = .next t ∧ woken t ∧
                (∀ k : Fin 4, t.dev.get (Reg.memStackState k) = if s.dev.get (Reg.memStackState k) = 2 then 1 else s.dev.get (Reg.memStackState k)) ∧
                ((s.dev.resource r).state = 3 → t.dev.get Reg.telRingOldest = s.dev.get Reg.telRingWrite) ∧
                s.leaves t (Reg.telRingOldest.ref :: stackRefs ++ numbered) [.resources, .deferred]) ∧
            (768 ≤ r.val →
              ∃ t, exec (.resourceReady r) s = .next t ∧ woken t ∧ s.leaves t (lane r ++ numbered) [.resources, .deferred])) ∧
          ∀ (x : Deferred) (row : ObjRow) (y : Device), s.dev.deferred = [x] → x.needs = [r.val] → x.svc = 2 → rowOf x.ref = some row → s.dev.journals = false →
            256 ≤ r.val → r.val < 768 → plainEffect row x.ref x.value ({ s.fresh.takeSeq.awake r with deferred := [] } : Device) = .ok y →
            ∃ t, exec (.resourceReady r) s = .next t ∧ t.dev.deferred = y.deferred ∧ t.answers (respOf x.req 2 stSuccess (beBytes 4 0)) ∧
              ∀ o : Obj, followsByItself o.ref = false → t.dev.get o = y.get o)) ∧
    ∀ (q : Req) (v : Val), s.fresh.writes q 1 Reg.pwrFecActive.ref = true → valueCheck Reg.pwrFecActive (rangeOf Reg.pwrFecActive.ref) v = none →
      (fecActiveCheck v.raw s.dev = none →
        ∃ t, exec (.pwrFecActive q v) s = .next t ∧ t.dev.get Reg.pwrFecActive = v.raw ∧
          t.dev.get Reg.fecPoolSlots = 4 * v.raw % 2 ^ Reg.fecPoolSlots.width ∧ t.answers (respOf q 2 stSuccess (beBytes 4 0)) ∧
          s.leaves t (Reg.pwrFecActive.ref :: Reg.fecPoolSlots.ref :: written Reg.pwrFecActive.ref) [.store]) ∧
      ∀ e, fecActiveCheck v.raw s.dev = some e →
        ∃ t, exec (.pwrFecActive q v) s = .next t ∧ t.answers (respOf q 2 e.status (errBytes e)) ∧ s.leaves t numbered []

/-! ### The dictionary store (chapter 18) -/

/-- Saving, restoring, importing and rewriting (R438, R442 to R444): a save takes the values in force, its end makes it the saved image; a request for the next power-up is held; an
imported image replaces the saved one whole or nothing; the end of a slot's rewrite. -/
def Obligations.ImagesAreSavedAndRequested : Prop :=
  ∀ s : State,
    let shown := [Reg.dictSavedGen.ref, Reg.dictSavedTime.ref, Reg.dictStoreState.ref]
    let shows := fun (t : State) (im : SavedImage) =>
      t.dev.get Reg.dictSavedGen = im.gen % 2 ^ Reg.dictSavedGen.width ∧ bitAt (t.dev.get Reg.dictStoreState) 3 = !im.valid ∧
        t.dev.get Reg.dictSavedTime = (if im.valid then fuToTime96 im.time else 0) % 2 ^ Reg.dictSavedTime.width
    (∀ q : Req, s.fresh.writes q 1 Reg.dictSave.ref = true →
      (s.dev.storeBusy = none →
        (∃ t, exec (.dictSave q ⟨1, 1⟩) s = .next t ∧
          t.dev.store = { s.dev.store with
            saving := some ⟨true, (s.dev.store.saved.gen + 1) % 2 ^ 32, s.fresh.afterGap.now, s.dev.store.live.map (fun e => (e.1, e.2.gen, e.2.value)),
              slotContents s.dev.store.liveDoms⟩,
            saved := { s.dev.store.saved with valid := false } } ∧
          (∀ b ∈ blockIndices, t.dev.get (blkChanged b) = 0) ∧ t.answers (respOf q 2 stSuccess (beBytes 4 0)) ∧
          s.leaves t (blockIndices.map (fun b => (blkChanged b).ref) ++ numbered) [.store]) ∧
        ∃ t, exec (.dictSave q ⟨1, 0⟩) s = .next t ∧ t.answers (respOf q 2 stSuccess (beBytes 4 0)) ∧ s.leaves t numbered []) ∧
      ∀ e, s.dev.storeBusy = some e → ∀ b : Bool,
        ∃ t, exec (.dictSave q ⟨1, b2n b⟩) s = .next t ∧ t.answers (respOf q 2 e.status (errBytes e)) ∧ s.leaves t numbered []) ∧
    (∀ im, s.dev.store.saving = some im → s.dev.dead = false →
      ∃ t, exec .dictSaveComplete s = .next t ∧ t.dev.store = { s.dev.store with saving := none, saved := im } ∧ shows t im ∧
        s.leaves t (shown ++ numbered ++ noticed Reg.dictSave.ref) [.store]) ∧
    (s.dev.store.saving = none → ∃ t, exec .dictSaveComplete s = .next t ∧ s.leaves t [] []) ∧
    (∀ (q : Req) (v : Fin 4),
      let cmd : Instr := if v.val = 0 then .dictRestoreCancel q else if v.val = 1 then .dictRestoreSaved q else if v.val = 2 then .dictRestoreDefaults q else .dictRestoreKeepComm q
      let refused := fun e : Err => ∃ t, exec cmd s = .next t ∧ t.answers (respOf q 2 e.status (errBytes e)) ∧ s.leaves t numbered []
      s.fresh.writes q (if v.val ≤ 1 then 1 else 2) Reg.dictRestore.ref = true →
      (s.dev.storeBusy = none → (v.val = 1 → s.dev.store.saved.valid = true) →
        ∃ t, exec cmd s = .next t ∧ t.dev.get Reg.dictRestore = v ∧ t.dev.store = { s.dev.store with request := v } ∧
          bitAt (t.dev.get Reg.dictStoreState) 4 = decide (v.val ≠ 0) ∧ t.answers (respOf q 2 stSuccess (beBytes 4 0)) ∧
          s.leaves t ([Reg.dictRestore.ref, Reg.dictStoreState.ref] ++ numbered) [.store]) ∧
      (s.dev.storeBusy = none → v.val = 1 → s.dev.store.saved.valid = false → refused (err stNotPermitted)) ∧
      ∀ e, s.dev.storeBusy = some e → refused e) ∧
    (∀ (q : Req) (crc : BitVec 32) (x : Transfer), s.endsBlock q 2 Reg.dictImport.ref crc x →
      ∃ t, exec (.dictImport q crc) s = .next t ∧
        (∀ im, s.dev.storeBusy = none → readImage x.data = some im →
          t.dev.store = { s.dev.store with saved := im } ∧ shows t im ∧ t.answers (respOf q 5 stSuccess [])) ∧
        (s.dev.storeBusy = none → readImage x.data = none → t.answers (respOf q 5 stInvalidValue (errBytes (err stInvalidValue))) ∧ s.leaves t numbered []) ∧
        (∀ e, s.dev.storeBusy = some e → t.answers (respOf q 5 e.status (errBytes e)) ∧ s.leaves t numbered []) ∧
        s.leaves t (shown ++ numbered) [.store]) ∧
    ∀ r : BitVec 24,
      (∀ x : DomSlot, tblGet s.dev.store.liveDoms r.toNat = some x → x.rewriting = true → s.dev.phase ≠ .reset →
        ∃ t, exec (.domainSlotRewrite r) s = .next t ∧
          (x.next = none → tblGet t.dev.store.liveDoms r.toNat = some { x with rewriting := false, before := none }) ∧
          (∀ bs, x.next = some bs → tblGet t.dev.store.liveDoms r.toNat = some ⟨(x.gen + 1) % 2 ^ 32, slotValue r.toNat bs, x.value, true, none⟩) ∧
          bitAt (t.dev.get Reg.dictStoreState) 1 = t.dev.store.liveDoms.any (fun e => e.2.value.isNone) ∧
          s.leaves t [Reg.dictStoreState.ref] [.store]) ∧
      (s.dev.phase = .reset ∨ (tblGet s.dev.store.liveDoms r.toNat).any (·.rewriting) = false →
        ∃ t, exec (.domainSlotRewrite r) s = .next t ∧ s.leaves t [] [])

/-- The load at power-up (R419, R436, R439, R440, R443): the image that the request names, values under the checks of a host write, damage and refusals logged with
Defaults in force; behind the restored swap the device is ready and the enables follow. -/
def Obligations.DictionaryIsLoaded : Prop :=
  ∀ s : State,
    (s.dev.phase = .boot → s.dev.sched.bundles = [] → ∀ m : LoadFaults,
      let ready := fun t : State =>
        t.dev.phase = .loading ∧ t.dev.store.loading = true ∧ t.dev.twin.enabled = s.dev.on Reg.twinEnable ∧ (∀ k : Fin 4, t.dev.get (Reg.memStackState k) = 1) ∧
          t.dev.get Reg.fecPoolSlots = 4 * s.dev.get Reg.pwrFecActive % 2 ^ Reg.fecPoolSlots.width ∧ t.pending = s.pending
      (s.dev.store.request = 0 → s.dev.store.liveDoms = [] →
        (s.dev.store.live = [] →
          ∃ t, exec (.powerUpLoad m) s = .next t ∧ ready t ∧ t.dev.get Reg.dictBootSource = 0 ∧ t.dev.store.log = [] ∧ t.dev.store.loadDoms = []) ∧
        (∀ (ref : BitVec 24) (r : StoreRec), s.dev.store.live = [(ref.toNat, r)] → r.value ≠ storedDefault ref.toNat → m.damaged = [ref] →
          ∃ t, exec (.powerUpLoad m) s = .next t ∧ ready t ∧ t.dev.get Reg.dictBootSource = 1 ∧ t.dev.store.log = [ref.toNat * 256 + stUncorrectable] ∧
            t.dev.store.live = [] ∧ bitAt (t.dev.get Reg.dictStoreState) 2 = true) ∧
        (∀ r : StoreRec, s.dev.store.live = [(Reg.telBwWindow.ref, r)] → r.value ≠ Reg.telBwWindow.dflt → m.damaged = [] →
          (valueCheck Reg.telBwWindow (rangeOf Reg.telBwWindow.ref) ⟨4, r.value⟩ = none →
            ∃ t, exec (.powerUpLoad m) s = .next t ∧ ready t ∧ t.dev.get Reg.dictBootSource = 1 ∧ t.dev.get Reg.telBwWindow = r.value ∧ t.dev.store.log = []) ∧
          ∀ e, valueCheck Reg.telBwWindow (rangeOf Reg.telBwWindow.ref) ⟨4, r.value⟩ = some e →
            ∃ t, exec (.powerUpLoad m) s = .next t ∧ ready t ∧ t.dev.get Reg.telBwWindow = s.dev.get Reg.telBwWindow ∧
              t.dev.store.log = [Reg.telBwWindow.ref * 256 + e.status] ∧ t.dev.store.live = [])) ∧
      (s.dev.store.request = 1 → s.dev.store.saved.valid = true → s.dev.store.saved.scalars = [] → s.dev.store.saved.domains = [] →
        ∃ t, exec (.powerUpLoad m) s = .next t ∧ ready t ∧ t.dev.get Reg.dictBootSource = 2 ∧ t.dev.store.live = [] ∧ t.dev.store.liveDoms = []) ∧
      (∀ gen v : Nat, s.dev.store.request = 1 → s.dev.store.saved.valid = true → s.dev.store.saved.scalars = [(Reg.telBwWindow.ref, gen, v)] →
        s.dev.store.saved.domains = [] → valueCheck Reg.telBwWindow (rangeOf Reg.telBwWindow.ref) ⟨4, v⟩ = none → m.damaged = [] →
        ∃ t, exec (.powerUpLoad m) s = .next t ∧ ready t ∧ t.dev.get Reg.dictBootSource = 2 ∧ t.dev.get Reg.telBwWindow = v ∧ t.dev.store.log = [] ∧
          (v ≠ Reg.telBwWindow.dflt → (tblGet t.dev.store.live Reg.telBwWindow.ref).map (·.value) = some v)) ∧
      (s.dev.store.request = 2 →
        ∃ t, exec (.powerUpLoad m) s = .next t ∧ ready t ∧ t.dev.get Reg.dictBootSource = 3 ∧ t.dev.store.live = [] ∧ t.dev.store.liveDoms = [] ∧
          t.dev.store.log = [] ∧ t.dev.store.loadDoms = []) ∧
      (s.dev.store.request = 3 → (∀ e ∈ s.dev.store.live, e.1 / 256 < 0x1100 ∨ 0x1108 < e.1 / 256) →
        ∃ t, exec (.powerUpLoad m) s = .next t ∧ ready t ∧ t.dev.get Reg.dictBootSource = 4 ∧ t.dev.store.live = [] ∧ t.dev.store.loadDoms = [])) ∧
    (s.dev.phase ≠ .boot → ∀ m, ∃ t, exec (.powerUpLoad m) s = .next t ∧ s.leaves t [] []) ∧
    (s.dev.phase = .loading →
      let loaded := fun t : State =>
        t.dev.phase = .running ∧ t.dev.get Reg.idDictReady = 1 ∧ t.dev.get Reg.dictRestore = 0 ∧ t.dev.store.request = 0 ∧ t.dev.store.loading = false ∧
          t.dev.twin.won = (!s.dev.twin.enabled) ∧ (t.dev.pwr.slots.at s.dev.pwr.active).fails = 0
      let refs := [Reg.idDictReady.ref, Reg.dictRestore.ref, Reg.dictStoreState.ref, Reg.dictRecords.ref, Reg.dictSavedGen.ref, Reg.dictSavedTime.ref] ++ numbered
      (s.dev.store.loadSwap = none →
        (s.dev.store.loadDoms = [] → s.dev.store.live.all (fun e => !enableRef e.1) = true →
          ∃ t, exec .domainPassResume s = .next t ∧ loaded t ∧ s.leaves t (refs ++ noticed Reg.dictRestoreLog.ref) [.phase, .pwr, .store, .twin]) ∧
        (∀ ref bs, s.dev.store.loadDoms = [(ref, bs)] → s.dev.keepsWhole ref bs = true → s.dev.store.live.all (fun e => !enableRef e.1) = true →
          ∃ t, exec .domainPassResume s = .next t ∧ loaded t ∧ t.dev.dom ref = bs) ∧
        (s.dev.store.loadDoms = [] →
          ∀ (p : PortNo) (r : StoreRec), s.dev.store.live = [((Reg.lanePortEnable p).ref, r)] → s.dev.deviceUsed < 256 →
            ∃ t a, exec .domainPassResume s = .next t ∧ loaded t ∧ a ∈ t.dev.sched.actions ∧ a.cls = 8 ∧ a.origin = .device ∧
              a.target = (Reg.lanePortEnable p).ref ∧ a.value = r.value)) ∧
      (∀ h bs, s.dev.store.loadSwap = some h → s.dev.action? h = none → s.dev.store.loadDoms = [(Reg.fabMapActive.ref, bs)] →
        s.dev.store.live.all (fun e => !enableRef e.1) = true →
        (s.dev.get Reg.fabMapGen ≠ ofBytes (bs.take 2) → s.dev.store.log.length < 256 →
          ∃ t, exec .domainPassResume s = .next t ∧ loaded t ∧ Reg.fabMapActive.ref * 256 + stInvalidCombination ∈ t.dev.store.log) ∧
        (s.dev.get Reg.fabMapGen = ofBytes (bs.take 2) →
          ∃ t, exec .domainPassResume s = .next t ∧ loaded t ∧ t.dev.store.log = s.dev.store.log ∧
            s.leaves t (refs ++ noticed Reg.dictRestoreLog.ref) [.phase, .pwr, .store, .twin])) ∧
      ∀ h a, s.dev.store.loadSwap = some h → s.dev.action? h = some a → ∃ t, exec .domainPassResume s = .next t ∧ s.leaves t [] []) ∧
    (s.dev.phase ≠ .loading → ∃ t, exec .domainPassResume s = .next t ∧ s.leaves t [] [])

/-! ### Rules of the whole block -/

/-- R17: a calendar cycle begins exactly where the nanosecond count is a multiple of 12 800 and the fraction 0; the model's next calendar boundary is the first such instant at or after
a given one; a second holds 78 125 cycles; a PPS boundary is a calendar boundary. -/
def Obligations.CalendarCyclesBegin : Prop :=
  let begins := fun t : Nat => bits (fuToTime96 t) 47 16 % 12800 = 0 ∧ bits (fuToTime96 t) 15 0 = 0
  (∀ (d : Device) (t : Nat), t ≤ d.boundaryAt .calendar t ∧ begins (d.boundaryAt .calendar t) ∧ ∀ u, t ≤ u → begins u → d.boundaryAt .calendar t ≤ u) ∧
  (∀ t, begins t ↔ ∃ j < 78125, t = t / fuSec * fuSec + j * fuCycle) ∧
  ∀ (d : Device) (t : Nat), begins (d.boundaryAt .pps t)

/-- R129: HCRC is the remainder by x^16 + x^12 + x^5 + 1 of bits [127:16], read from bit 127 downwards with the register preset to 0xFFFF, neither reflected nor inverted;
one value of bits [15:0] passes, and the all-zero header fails. -/
def Obligations.HeadersCarryTheirCrc : Prop :=
  (∀ w : BitVec 128, hcrcOk w.toNat = true ↔
    ∃ q < 2 ^ 112, polyTimes 112 q 0x11021 ^^^ w.toNat % 2 ^ 16 = (w.toNat / 2 ^ 16 ^^^ 0xFFFF * 2 ^ 96) * 2 ^ 16) ∧
  (∀ p < 2 ^ 112, ∃ c < 2 ^ 16, hcrcOk (p * 2 ^ 16 + c) = true ∧ ∀ c' < 2 ^ 16, hcrcOk (p * 2 ^ 16 + c') = true → c' = c) ∧
  hcrcOk 0 = false

/-- After reset the device shows what it is, its memories are in canonical form, and no command waits. -/
def Obligations.ResetAgrees : Prop := State.reset.dev.agrees ∧ State.reset.dev.memWf ∧ State.reset.pending = []

/-- R471 and the status objects as an invariant: from every state in which the device shows what it is, any step that answers a next state leaves it so; and a step that takes a
command makes it so from any state. -/
def Obligations.EveryStepKeepsAgreement : Prop :=
  ∀ s t : State, step s = .next t → (s.dev.agrees → t.dev.agrees) ∧ (s.pending ≠ [] → t.dev.agrees)
end

