-- ==== Sys2Proof/Laws/State.lean ====
section
/-! SUPPORT. What each update of the device leaves as it was: one lemma per field and update, true by unfolding (plain updates) or by cases (updates that
choose). -/

namespace Sys2Proof.Machine

variable (d : Device)

@[simp] theorem Device.set_doms (o : Obj) (v : Nat) : (d.set o v).doms = d.doms := rfl
@[simp] theorem Device.set_now (o : Obj) (v : Nat) : (d.set o v).now = d.now := rfl
@[simp] theorem Device.set_free (o : Obj) (v : Nat) : (d.set o v).free = d.free := rfl
@[simp] theorem Device.set_out (o : Obj) (v : Nat) : (d.set o v).out = d.out := rfl
@[simp] theorem Device.set_phase (o : Obj) (v : Nat) : (d.set o v).phase = d.phase := rfl
@[simp] theorem Device.set_resources (o : Obj) (v : Nat) : (d.set o v).resources = d.resources := rfl
@[simp] theorem Device.set_deferred (o : Obj) (v : Nat) : (d.set o v).deferred = d.deferred := rfl
@[simp] theorem Device.set_eop (o : Obj) (v : Nat) : (d.set o v).eop = d.eop := rfl
@[simp] theorem Device.set_sched (o : Obj) (v : Nat) : (d.set o v).sched = d.sched := rfl
@[simp] theorem Device.set_fab (o : Obj) (v : Nat) : (d.set o v).fab = d.fab := rfl
@[simp] theorem Device.set_frm (o : Obj) (v : Nat) : (d.set o v).frm = d.frm := rfl
@[simp] theorem Device.set_rx (o : Obj) (v : Nat) : (d.set o v).rx = d.rx := rfl
@[simp] theorem Device.set_tx (o : Obj) (v : Nat) : (d.set o v).tx = d.tx := rfl
@[simp] theorem Device.set_fec (o : Obj) (v : Nat) : (d.set o v).fec = d.fec := rfl
@[simp] theorem Device.set_hub (o : Obj) (v : Nat) : (d.set o v).hub = d.hub := rfl
@[simp] theorem Device.set_pkt (o : Obj) (v : Nat) : (d.set o v).pkt = d.pkt := rfl
@[simp] theorem Device.set_itla (o : Obj) (v : Nat) : (d.set o v).itla = d.itla := rfl
@[simp] theorem Device.set_aspi (o : Obj) (v : Nat) : (d.set o v).aspi = d.aspi := rfl
@[simp] theorem Device.set_bias (o : Obj) (v : Nat) : (d.set o v).bias = d.bias := rfl
@[simp] theorem Device.set_store (o : Obj) (v : Nat) : (d.set o v).store = d.store := rfl
@[simp] theorem Device.set_twin (o : Obj) (v : Nat) : (d.set o v).twin = d.twin := rfl
@[simp] theorem Device.set_mem (o : Obj) (v : Nat) : (d.set o v).mem = d.mem := rfl
@[simp] theorem Device.set_tim (o : Obj) (v : Nat) : (d.set o v).tim = d.tim := rfl
@[simp] theorem Device.set_sec (o : Obj) (v : Nat) : (d.set o v).sec = d.sec := rfl
@[simp] theorem Device.set_lane (o : Obj) (v : Nat) : (d.set o v).lane = d.lane := rfl
@[simp] theorem Device.set_mon (o : Obj) (v : Nat) : (d.set o v).mon = d.mon := rfl
@[simp] theorem Device.set_cal (o : Obj) (v : Nat) : (d.set o v).cal = d.cal := rfl
@[simp] theorem Device.set_tel (o : Obj) (v : Nat) : (d.set o v).tel = d.tel := rfl
@[simp] theorem Device.set_pwr (o : Obj) (v : Nat) : (d.set o v).pwr = d.pwr := rfl
@[simp] theorem Device.set_jtag (o : Obj) (v : Nat) : (d.set o v).jtag = d.jtag := rfl

@[simp] theorem Device.setI_doms (o : Obj) (v : Int) : (d.setI o v).doms = d.doms := rfl
@[simp] theorem Device.setI_now (o : Obj) (v : Int) : (d.setI o v).now = d.now := rfl
@[simp] theorem Device.setI_free (o : Obj) (v : Int) : (d.setI o v).free = d.free := rfl
@[simp] theorem Device.setI_out (o : Obj) (v : Int) : (d.setI o v).out = d.out := rfl
@[simp] theorem Device.setI_phase (o : Obj) (v : Int) : (d.setI o v).phase = d.phase := rfl
@[simp] theorem Device.setI_resources (o : Obj) (v : Int) : (d.setI o v).resources = d.resources := rfl
@[simp] theorem Device.setI_deferred (o : Obj) (v : Int) : (d.setI o v).deferred = d.deferred := rfl
@[simp] theorem Device.setI_eop (o : Obj) (v : Int) : (d.setI o v).eop = d.eop := rfl
@[simp] theorem Device.setI_sched (o : Obj) (v : Int) : (d.setI o v).sched = d.sched := rfl
@[simp] theorem Device.setI_fab (o : Obj) (v : Int) : (d.setI o v).fab = d.fab := rfl
@[simp] theorem Device.setI_frm (o : Obj) (v : Int) : (d.setI o v).frm = d.frm := rfl
@[simp] theorem Device.setI_rx (o : Obj) (v : Int) : (d.setI o v).rx = d.rx := rfl
@[simp] theorem Device.setI_tx (o : Obj) (v : Int) : (d.setI o v).tx = d.tx := rfl
@[simp] theorem Device.setI_fec (o : Obj) (v : Int) : (d.setI o v).fec = d.fec := rfl
@[simp] theorem Device.setI_hub (o : Obj) (v : Int) : (d.setI o v).hub = d.hub := rfl
@[simp] theorem Device.setI_pkt (o : Obj) (v : Int) : (d.setI o v).pkt = d.pkt := rfl
@[simp] theorem Device.setI_itla (o : Obj) (v : Int) : (d.setI o v).itla = d.itla := rfl
@[simp] theorem Device.setI_aspi (o : Obj) (v : Int) : (d.setI o v).aspi = d.aspi := rfl
@[simp] theorem Device.setI_bias (o : Obj) (v : Int) : (d.setI o v).bias = d.bias := rfl
@[simp] theorem Device.setI_store (o : Obj) (v : Int) : (d.setI o v).store = d.store := rfl
@[simp] theorem Device.setI_twin (o : Obj) (v : Int) : (d.setI o v).twin = d.twin := rfl
@[simp] theorem Device.setI_mem (o : Obj) (v : Int) : (d.setI o v).mem = d.mem := rfl
@[simp] theorem Device.setI_tim (o : Obj) (v : Int) : (d.setI o v).tim = d.tim := rfl
@[simp] theorem Device.setI_sec (o : Obj) (v : Int) : (d.setI o v).sec = d.sec := rfl
@[simp] theorem Device.setI_lane (o : Obj) (v : Int) : (d.setI o v).lane = d.lane := rfl
@[simp] theorem Device.setI_mon (o : Obj) (v : Int) : (d.setI o v).mon = d.mon := rfl
@[simp] theorem Device.setI_cal (o : Obj) (v : Int) : (d.setI o v).cal = d.cal := rfl
@[simp] theorem Device.setI_tel (o : Obj) (v : Int) : (d.setI o v).tel = d.tel := rfl
@[simp] theorem Device.setI_pwr (o : Obj) (v : Int) : (d.setI o v).pwr = d.pwr := rfl
@[simp] theorem Device.setI_jtag (o : Obj) (v : Int) : (d.setI o v).jtag = d.jtag := rfl

@[simp] theorem Device.setBit_doms (o : Obj) (k : Nat) (b : Bool) : (d.setBit o k b).doms = d.doms := rfl
@[simp] theorem Device.setBit_now (o : Obj) (k : Nat) (b : Bool) : (d.setBit o k b).now = d.now := rfl
@[simp] theorem Device.setBit_free (o : Obj) (k : Nat) (b : Bool) : (d.setBit o k b).free = d.free := rfl
@[simp] theorem Device.setBit_out (o : Obj) (k : Nat) (b : Bool) : (d.setBit o k b).out = d.out := rfl
@[simp] theorem Device.setBit_phase (o : Obj) (k : Nat) (b : Bool) : (d.setBit o k b).phase = d.phase := rfl
@[simp] theorem Device.setBit_resources (o : Obj) (k : Nat) (b : Bool) : (d.setBit o k b).resources = d.resources := rfl
@[simp] theorem Device.setBit_deferred (o : Obj) (k : Nat) (b : Bool) : (d.setBit o k b).deferred = d.deferred := rfl
@[simp] theorem Device.setBit_eop (o : Obj) (k : Nat) (b : Bool) : (d.setBit o k b).eop = d.eop := rfl
@[simp] theorem Device.setBit_sched (o : Obj) (k : Nat) (b : Bool) : (d.setBit o k b).sched = d.sched := rfl
@[simp] theorem Device.setBit_fab (o : Obj) (k : Nat) (b : Bool) : (d.setBit o k b).fab = d.fab := rfl
@[simp] theorem Device.setBit_frm (o : Obj) (k : Nat) (b : Bool) : (d.setBit o k b).frm = d.frm := rfl
@[simp] theorem Device.setBit_rx (o : Obj) (k : Nat) (b : Bool) : (d.setBit o k b).rx = d.rx := rfl
@[simp] theorem Device.setBit_tx (o : Obj) (k : Nat) (b : Bool) : (d.setBit o k b).tx = d.tx := rfl
@[simp] theorem Device.setBit_fec (o : Obj) (k : Nat) (b : Bool) : (d.setBit o k b).fec = d.fec := rfl
@[simp] theorem Device.setBit_hub (o : Obj) (k : Nat) (b : Bool) : (d.setBit o k b).hub = d.hub := rfl
@[simp] theorem Device.setBit_pkt (o : Obj) (k : Nat) (b : Bool) : (d.setBit o k b).pkt = d.pkt := rfl
@[simp] theorem Device.setBit_itla (o : Obj) (k : Nat) (b : Bool) : (d.setBit o k b).itla = d.itla := rfl
@[simp] theorem Device.setBit_aspi (o : Obj) (k : Nat) (b : Bool) : (d.setBit o k b).aspi = d.aspi := rfl
@[simp] theorem Device.setBit_bias (o : Obj) (k : Nat) (b : Bool) : (d.setBit o k b).bias = d.bias := rfl
@[simp] theorem Device.setBit_store (o : Obj) (k : Nat) (b : Bool) : (d.setBit o k b).store = d.store := rfl
@[simp] theorem Device.setBit_twin (o : Obj) (k : Nat) (b : Bool) : (d.setBit o k b).twin = d.twin := rfl
@[simp] theorem Device.setBit_mem (o : Obj) (k : Nat) (b : Bool) : (d.setBit o k b).mem = d.mem := rfl
@[simp] theorem Device.setBit_tim (o : Obj) (k : Nat) (b : Bool) : (d.setBit o k b).tim = d.tim := rfl
@[simp] theorem Device.setBit_sec (o : Obj) (k : Nat) (b : Bool) : (d.setBit o k b).sec = d.sec := rfl
@[simp] theorem Device.setBit_lane (o : Obj) (k : Nat) (b : Bool) : (d.setBit o k b).lane = d.lane := rfl
@[simp] theorem Device.setBit_mon (o : Obj) (k : Nat) (b : Bool) : (d.setBit o k b).mon = d.mon := rfl
@[simp] theorem Device.setBit_cal (o : Obj) (k : Nat) (b : Bool) : (d.setBit o k b).cal = d.cal := rfl
@[simp] theorem Device.setBit_tel (o : Obj) (k : Nat) (b : Bool) : (d.setBit o k b).tel = d.tel := rfl
@[simp] theorem Device.setBit_pwr (o : Obj) (k : Nat) (b : Bool) : (d.setBit o k b).pwr = d.pwr := rfl
@[simp] theorem Device.setBit_jtag (o : Obj) (k : Nat) (b : Bool) : (d.setBit o k b).jtag = d.jtag := rfl

@[simp] theorem Device.setDom_dict (r : Nat) (bs : List Nat) : (d.setDom r bs).dict = d.dict := rfl
@[simp] theorem Device.setDom_now (r : Nat) (bs : List Nat) : (d.setDom r bs).now = d.now := rfl
@[simp] theorem Device.setDom_free (r : Nat) (bs : List Nat) : (d.setDom r bs).free = d.free := rfl
@[simp] theorem Device.setDom_out (r : Nat) (bs : List Nat) : (d.setDom r bs).out = d.out := rfl
@[simp] theorem Device.setDom_phase (r : Nat) (bs : List Nat) : (d.setDom r bs).phase = d.phase := rfl
@[simp] theorem Device.setDom_resources (r : Nat) (bs : List Nat) : (d.setDom r bs).resources = d.resources := rfl
@[simp] theorem Device.setDom_deferred (r : Nat) (bs : List Nat) : (d.setDom r bs).deferred = d.deferred := rfl
@[simp] theorem Device.setDom_eop (r : Nat) (bs : List Nat) : (d.setDom r bs).eop = d.eop := rfl
@[simp] theorem Device.setDom_sched (r : Nat) (bs : List Nat) : (d.setDom r bs).sched = d.sched := rfl
@[simp] theorem Device.setDom_fab (r : Nat) (bs : List Nat) : (d.setDom r bs).fab = d.fab := rfl
@[simp] theorem Device.setDom_frm (r : Nat) (bs : List Nat) : (d.setDom r bs).frm = d.frm := rfl
@[simp] theorem Device.setDom_rx (r : Nat) (bs : List Nat) : (d.setDom r bs).rx = d.rx := rfl
@[simp] theorem Device.setDom_tx (r : Nat) (bs : List Nat) : (d.setDom r bs).tx = d.tx := rfl
@[simp] theorem Device.setDom_fec (r : Nat) (bs : List Nat) : (d.setDom r bs).fec = d.fec := rfl
@[simp] theorem Device.setDom_hub (r : Nat) (bs : List Nat) : (d.setDom r bs).hub = d.hub := rfl
@[simp] theorem Device.setDom_pkt (r : Nat) (bs : List Nat) : (d.setDom r bs).pkt = d.pkt := rfl
@[simp] theorem Device.setDom_itla (r : Nat) (bs : List Nat) : (d.setDom r bs).itla = d.itla := rfl
@[simp] theorem Device.setDom_aspi (r : Nat) (bs : List Nat) : (d.setDom r bs).aspi = d.aspi := rfl
@[simp] theorem Device.setDom_bias (r : Nat) (bs : List Nat) : (d.setDom r bs).bias = d.bias := rfl
@[simp] theorem Device.setDom_store (r : Nat) (bs : List Nat) : (d.setDom r bs).store = d.store := rfl
@[simp] theorem Device.setDom_twin (r : Nat) (bs : List Nat) : (d.setDom r bs).twin = d.twin := rfl
@[simp] theorem Device.setDom_mem (r : Nat) (bs : List Nat) : (d.setDom r bs).mem = d.mem := rfl
@[simp] theorem Device.setDom_tim (r : Nat) (bs : List Nat) : (d.setDom r bs).tim = d.tim := rfl
@[simp] theorem Device.setDom_sec (r : Nat) (bs : List Nat) : (d.setDom r bs).sec = d.sec := rfl
@[simp] theorem Device.setDom_lane (r : Nat) (bs : List Nat) : (d.setDom r bs).lane = d.lane := rfl
@[simp] theorem Device.setDom_mon (r : Nat) (bs : List Nat) : (d.setDom r bs).mon = d.mon := rfl
@[simp] theorem Device.setDom_cal (r : Nat) (bs : List Nat) : (d.setDom r bs).cal = d.cal := rfl
@[simp] theorem Device.setDom_tel (r : Nat) (bs : List Nat) : (d.setDom r bs).tel = d.tel := rfl
@[simp] theorem Device.setDom_pwr (r : Nat) (bs : List Nat) : (d.setDom r bs).pwr = d.pwr := rfl
@[simp] theorem Device.setDom_jtag (r : Nat) (bs : List Nat) : (d.setDom r bs).jtag = d.jtag := rfl

@[simp] theorem Device.send_dict (o : Out) : (d.send o).dict = d.dict := rfl
@[simp] theorem Device.send_doms (o : Out) : (d.send o).doms = d.doms := rfl
@[simp] theorem Device.send_now (o : Out) : (d.send o).now = d.now := rfl
@[simp] theorem Device.send_free (o : Out) : (d.send o).free = d.free := rfl
@[simp] theorem Device.send_phase (o : Out) : (d.send o).phase = d.phase := rfl
@[simp] theorem Device.send_resources (o : Out) : (d.send o).resources = d.resources := rfl
@[simp] theorem Device.send_deferred (o : Out) : (d.send o).deferred = d.deferred := rfl
@[simp] theorem Device.send_eop (o : Out) : (d.send o).eop = d.eop := rfl
@[simp] theorem Device.send_sched (o : Out) : (d.send o).sched = d.sched := rfl
@[simp] theorem Device.send_fab (o : Out) : (d.send o).fab = d.fab := rfl
@[simp] theorem Device.send_frm (o : Out) : (d.send o).frm = d.frm := rfl
@[simp] theorem Device.send_rx (o : Out) : (d.send o).rx = d.rx := rfl
@[simp] theorem Device.send_tx (o : Out) : (d.send o).tx = d.tx := rfl
@[simp] theorem Device.send_fec (o : Out) : (d.send o).fec = d.fec := rfl
@[simp] theorem Device.send_hub (o : Out) : (d.send o).hub = d.hub := rfl
@[simp] theorem Device.send_pkt (o : Out) : (d.send o).pkt = d.pkt := rfl
@[simp] theorem Device.send_itla (o : Out) : (d.send o).itla = d.itla := rfl
@[simp] theorem Device.send_aspi (o : Out) : (d.send o).aspi = d.aspi := rfl
@[simp] theorem Device.send_bias (o : Out) : (d.send o).bias = d.bias := rfl
@[simp] theorem Device.send_store (o : Out) : (d.send o).store = d.store := rfl
@[simp] theorem Device.send_twin (o : Out) : (d.send o).twin = d.twin := rfl
@[simp] theorem Device.send_mem (o : Out) : (d.send o).mem = d.mem := rfl
@[simp] theorem Device.send_tim (o : Out) : (d.send o).tim = d.tim := rfl
@[simp] theorem Device.send_sec (o : Out) : (d.send o).sec = d.sec := rfl
@[simp] theorem Device.send_lane (o : Out) : (d.send o).lane = d.lane := rfl
@[simp] theorem Device.send_mon (o : Out) : (d.send o).mon = d.mon := rfl
@[simp] theorem Device.send_cal (o : Out) : (d.send o).cal = d.cal := rfl
@[simp] theorem Device.send_tel (o : Out) : (d.send o).tel = d.tel := rfl
@[simp] theorem Device.send_pwr (o : Out) : (d.send o).pwr = d.pwr := rfl
@[simp] theorem Device.send_jtag (o : Out) : (d.send o).jtag = d.jtag := rfl

@[simp] theorem Device.onSched_dict (f : Sched → Sched) : (d.onSched f).dict = d.dict := rfl
@[simp] theorem Device.onSched_doms (f : Sched → Sched) : (d.onSched f).doms = d.doms := rfl
@[simp] theorem Device.onSched_now (f : Sched → Sched) : (d.onSched f).now = d.now := rfl
@[simp] theorem Device.onSched_free (f : Sched → Sched) : (d.onSched f).free = d.free := rfl
@[simp] theorem Device.onSched_out (f : Sched → Sched) : (d.onSched f).out = d.out := rfl
@[simp] theorem Device.onSched_phase (f : Sched → Sched) : (d.onSched f).phase = d.phase := rfl
@[simp] theorem Device.onSched_resources (f : Sched → Sched) : (d.onSched f).resources = d.resources := rfl
@[simp] theorem Device.onSched_deferred (f : Sched → Sched) : (d.onSched f).deferred = d.deferred := rfl
@[simp] theorem Device.onSched_eop (f : Sched → Sched) : (d.onSched f).eop = d.eop := rfl
@[simp] theorem Device.onSched_fab (f : Sched → Sched) : (d.onSched f).fab = d.fab := rfl
@[simp] theorem Device.onSched_frm (f : Sched → Sched) : (d.onSched f).frm = d.frm := rfl
@[simp] theorem Device.onSched_rx (f : Sched → Sched) : (d.onSched f).rx = d.rx := rfl
@[simp] theorem Device.onSched_tx (f : Sched → Sched) : (d.onSched f).tx = d.tx := rfl
@[simp] theorem Device.onSched_fec (f : Sched → Sched) : (d.onSched f).fec = d.fec := rfl
@[simp] theorem Device.onSched_hub (f : Sched → Sched) : (d.onSched f).hub = d.hub := rfl
@[simp] theorem Device.onSched_pkt (f : Sched → Sched) : (d.onSched f).pkt = d.pkt := rfl
@[simp] theorem Device.onSched_itla (f : Sched → Sched) : (d.onSched f).itla = d.itla := rfl
@[simp] theorem Device.onSched_aspi (f : Sched → Sched) : (d.onSched f).aspi = d.aspi := rfl
@[simp] theorem Device.onSched_bias (f : Sched → Sched) : (d.onSched f).bias = d.bias := rfl
@[simp] theorem Device.onSched_store (f : Sched → Sched) : (d.onSched f).store = d.store := rfl
@[simp] theorem Device.onSched_twin (f : Sched → Sched) : (d.onSched f).twin = d.twin := rfl
@[simp] theorem Device.onSched_mem (f : Sched → Sched) : (d.onSched f).mem = d.mem := rfl
@[simp] theorem Device.onSched_tim (f : Sched → Sched) : (d.onSched f).tim = d.tim := rfl
@[simp] theorem Device.onSched_sec (f : Sched → Sched) : (d.onSched f).sec = d.sec := rfl
@[simp] theorem Device.onSched_lane (f : Sched → Sched) : (d.onSched f).lane = d.lane := rfl
@[simp] theorem Device.onSched_mon (f : Sched → Sched) : (d.onSched f).mon = d.mon := rfl
@[simp] theorem Device.onSched_cal (f : Sched → Sched) : (d.onSched f).cal = d.cal := rfl
@[simp] theorem Device.onSched_tel (f : Sched → Sched) : (d.onSched f).tel = d.tel := rfl
@[simp] theorem Device.onSched_pwr (f : Sched → Sched) : (d.onSched f).pwr = d.pwr := rfl
@[simp] theorem Device.onSched_jtag (f : Sched → Sched) : (d.onSched f).jtag = d.jtag := rfl

@[simp] theorem Device.onTwin_dict (f : Twin → Twin) : (d.onTwin f).dict = d.dict := rfl
@[simp] theorem Device.onTwin_doms (f : Twin → Twin) : (d.onTwin f).doms = d.doms := rfl
@[simp] theorem Device.onTwin_now (f : Twin → Twin) : (d.onTwin f).now = d.now := rfl
@[simp] theorem Device.onTwin_free (f : Twin → Twin) : (d.onTwin f).free = d.free := rfl
@[simp] theorem Device.onTwin_out (f : Twin → Twin) : (d.onTwin f).out = d.out := rfl
@[simp] theorem Device.onTwin_phase (f : Twin → Twin) : (d.onTwin f).phase = d.phase := rfl
@[simp] theorem Device.onTwin_resources (f : Twin → Twin) : (d.onTwin f).resources = d.resources := rfl
@[simp] theorem Device.onTwin_deferred (f : Twin → Twin) : (d.onTwin f).deferred = d.deferred := rfl
@[simp] theorem Device.onTwin_eop (f : Twin → Twin) : (d.onTwin f).eop = d.eop := rfl
@[simp] theorem Device.onTwin_sched (f : Twin → Twin) : (d.onTwin f).sched = d.sched := rfl
@[simp] theorem Device.onTwin_fab (f : Twin → Twin) : (d.onTwin f).fab = d.fab := rfl
@[simp] theorem Device.onTwin_frm (f : Twin → Twin) : (d.onTwin f).frm = d.frm := rfl
@[simp] theorem Device.onTwin_rx (f : Twin → Twin) : (d.onTwin f).rx = d.rx := rfl
@[simp] theorem Device.onTwin_tx (f : Twin → Twin) : (d.onTwin f).tx = d.tx := rfl
@[simp] theorem Device.onTwin_fec (f : Twin → Twin) : (d.onTwin f).fec = d.fec := rfl
@[simp] theorem Device.onTwin_hub (f : Twin → Twin) : (d.onTwin f).hub = d.hub := rfl
@[simp] theorem Device.onTwin_pkt (f : Twin → Twin) : (d.onTwin f).pkt = d.pkt := rfl
@[simp] theorem Device.onTwin_itla (f : Twin → Twin) : (d.onTwin f).itla = d.itla := rfl
@[simp] theorem Device.onTwin_aspi (f : Twin → Twin) : (d.onTwin f).aspi = d.aspi := rfl
@[simp] theorem Device.onTwin_bias (f : Twin → Twin) : (d.onTwin f).bias = d.bias := rfl
@[simp] theorem Device.onTwin_store (f : Twin → Twin) : (d.onTwin f).store = d.store := rfl
@[simp] theorem Device.onTwin_mem (f : Twin → Twin) : (d.onTwin f).mem = d.mem := rfl
@[simp] theorem Device.onTwin_tim (f : Twin → Twin) : (d.onTwin f).tim = d.tim := rfl
@[simp] theorem Device.onTwin_sec (f : Twin → Twin) : (d.onTwin f).sec = d.sec := rfl
@[simp] theorem Device.onTwin_lane (f : Twin → Twin) : (d.onTwin f).lane = d.lane := rfl
@[simp] theorem Device.onTwin_mon (f : Twin → Twin) : (d.onTwin f).mon = d.mon := rfl
@[simp] theorem Device.onTwin_cal (f : Twin → Twin) : (d.onTwin f).cal = d.cal := rfl
@[simp] theorem Device.onTwin_tel (f : Twin → Twin) : (d.onTwin f).tel = d.tel := rfl
@[simp] theorem Device.onTwin_pwr (f : Twin → Twin) : (d.onTwin f).pwr = d.pwr := rfl
@[simp] theorem Device.onTwin_jtag (f : Twin → Twin) : (d.onTwin f).jtag = d.jtag := rfl

@[simp] theorem Device.onSec_dict (f : Sec → Sec) : (d.onSec f).dict = d.dict := rfl
@[simp] theorem Device.onSec_doms (f : Sec → Sec) : (d.onSec f).doms = d.doms := rfl
@[simp] theorem Device.onSec_now (f : Sec → Sec) : (d.onSec f).now = d.now := rfl
@[simp] theorem Device.onSec_free (f : Sec → Sec) : (d.onSec f).free = d.free := rfl
@[simp] theorem Device.onSec_out (f : Sec → Sec) : (d.onSec f).out = d.out := rfl
@[simp] theorem Device.onSec_phase (f : Sec → Sec) : (d.onSec f).phase = d.phase := rfl
@[simp] theorem Device.onSec_resources (f : Sec → Sec) : (d.onSec f).resources = d.resources := rfl
@[simp] theorem Device.onSec_deferred (f : Sec → Sec) : (d.onSec f).deferred = d.deferred := rfl
@[simp] theorem Device.onSec_eop (f : Sec → Sec) : (d.onSec f).eop = d.eop := rfl
@[simp] theorem Device.onSec_sched (f : Sec → Sec) : (d.onSec f).sched = d.sched := rfl
@[simp] theorem Device.onSec_fab (f : Sec → Sec) : (d.onSec f).fab = d.fab := rfl
@[simp] theorem Device.onSec_frm (f : Sec → Sec) : (d.onSec f).frm = d.frm := rfl
@[simp] theorem Device.onSec_rx (f : Sec → Sec) : (d.onSec f).rx = d.rx := rfl
@[simp] theorem Device.onSec_tx (f : Sec → Sec) : (d.onSec f).tx = d.tx := rfl
@[simp] theorem Device.onSec_fec (f : Sec → Sec) : (d.onSec f).fec = d.fec := rfl
@[simp] theorem Device.onSec_hub (f : Sec → Sec) : (d.onSec f).hub = d.hub := rfl
@[simp] theorem Device.onSec_pkt (f : Sec → Sec) : (d.onSec f).pkt = d.pkt := rfl
@[simp] theorem Device.onSec_itla (f : Sec → Sec) : (d.onSec f).itla = d.itla := rfl
@[simp] theorem Device.onSec_aspi (f : Sec → Sec) : (d.onSec f).aspi = d.aspi := rfl
@[simp] theorem Device.onSec_bias (f : Sec → Sec) : (d.onSec f).bias = d.bias := rfl
@[simp] theorem Device.onSec_store (f : Sec → Sec) : (d.onSec f).store = d.store := rfl
@[simp] theorem Device.onSec_twin (f : Sec → Sec) : (d.onSec f).twin = d.twin := rfl
@[simp] theorem Device.onSec_mem (f : Sec → Sec) : (d.onSec f).mem = d.mem := rfl
@[simp] theorem Device.onSec_tim (f : Sec → Sec) : (d.onSec f).tim = d.tim := rfl
@[simp] theorem Device.onSec_lane (f : Sec → Sec) : (d.onSec f).lane = d.lane := rfl
@[simp] theorem Device.onSec_mon (f : Sec → Sec) : (d.onSec f).mon = d.mon := rfl
@[simp] theorem Device.onSec_cal (f : Sec → Sec) : (d.onSec f).cal = d.cal := rfl
@[simp] theorem Device.onSec_tel (f : Sec → Sec) : (d.onSec f).tel = d.tel := rfl
@[simp] theorem Device.onSec_pwr (f : Sec → Sec) : (d.onSec f).pwr = d.pwr := rfl
@[simp] theorem Device.onSec_jtag (f : Sec → Sec) : (d.onSec f).jtag = d.jtag := rfl

@[simp] theorem Device.onStore_dict (f : Store → Store) : (d.onStore f).dict = d.dict := rfl
@[simp] theorem Device.onStore_doms (f : Store → Store) : (d.onStore f).doms = d.doms := rfl
@[simp] theorem Device.onStore_now (f : Store → Store) : (d.onStore f).now = d.now := rfl
@[simp] theorem Device.onStore_free (f : Store → Store) : (d.onStore f).free = d.free := rfl
@[simp] theorem Device.onStore_out (f : Store → Store) : (d.onStore f).out = d.out := rfl
@[simp] theorem Device.onStore_phase (f : Store → Store) : (d.onStore f).phase = d.phase := rfl
@[simp] theorem Device.onStore_resources (f : Store → Store) : (d.onStore f).resources = d.resources := rfl
@[simp] theorem Device.onStore_deferred (f : Store → Store) : (d.onStore f).deferred = d.deferred := rfl
@[simp] theorem Device.onStore_eop (f : Store → Store) : (d.onStore f).eop = d.eop := rfl
@[simp] theorem Device.onStore_sched (f : Store → Store) : (d.onStore f).sched = d.sched := rfl
@[simp] theorem Device.onStore_fab (f : Store → Store) : (d.onStore f).fab = d.fab := rfl
@[simp] theorem Device.onStore_frm (f : Store → Store) : (d.onStore f).frm = d.frm := rfl
@[simp] theorem Device.onStore_rx (f : Store → Store) : (d.onStore f).rx = d.rx := rfl
@[simp] theorem Device.onStore_tx (f : Store → Store) : (d.onStore f).tx = d.tx := rfl
@[simp] theorem Device.onStore_fec (f : Store → Store) : (d.onStore f).fec = d.fec := rfl
@[simp] theorem Device.onStore_hub (f : Store → Store) : (d.onStore f).hub = d.hub := rfl
@[simp] theorem Device.onStore_pkt (f : Store → Store) : (d.onStore f).pkt = d.pkt := rfl
@[simp] theorem Device.onStore_itla (f : Store → Store) : (d.onStore f).itla = d.itla := rfl
@[simp] theorem Device.onStore_aspi (f : Store → Store) : (d.onStore f).aspi = d.aspi := rfl
@[simp] theorem Device.onStore_bias (f : Store → Store) : (d.onStore f).bias = d.bias := rfl
@[simp] theorem Device.onStore_twin (f : Store → Store) : (d.onStore f).twin = d.twin := rfl
@[simp] theorem Device.onStore_mem (f : Store → Store) : (d.onStore f).mem = d.mem := rfl
@[simp] theorem Device.onStore_tim (f : Store → Store) : (d.onStore f).tim = d.tim := rfl
@[simp] theorem Device.onStore_sec (f : Store → Store) : (d.onStore f).sec = d.sec := rfl
@[simp] theorem Device.onStore_lane (f : Store → Store) : (d.onStore f).lane = d.lane := rfl
@[simp] theorem Device.onStore_mon (f : Store → Store) : (d.onStore f).mon = d.mon := rfl
@[simp] theorem Device.onStore_cal (f : Store → Store) : (d.onStore f).cal = d.cal := rfl
@[simp] theorem Device.onStore_tel (f : Store → Store) : (d.onStore f).tel = d.tel := rfl
@[simp] theorem Device.onStore_pwr (f : Store → Store) : (d.onStore f).pwr = d.pwr := rfl
@[simp] theorem Device.onStore_jtag (f : Store → Store) : (d.onStore f).jtag = d.jtag := rfl

@[simp] theorem Device.onTim_dict (f : Tim → Tim) : (d.onTim f).dict = d.dict := rfl
@[simp] theorem Device.onTim_doms (f : Tim → Tim) : (d.onTim f).doms = d.doms := rfl
@[simp] theorem Device.onTim_now (f : Tim → Tim) : (d.onTim f).now = d.now := rfl
@[simp] theorem Device.onTim_free (f : Tim → Tim) : (d.onTim f).free = d.free := rfl
@[simp] theorem Device.onTim_out (f : Tim → Tim) : (d.onTim f).out = d.out := rfl
@[simp] theorem Device.onTim_phase (f : Tim → Tim) : (d.onTim f).phase = d.phase := rfl
@[simp] theorem Device.onTim_resources (f : Tim → Tim) : (d.onTim f).resources = d.resources := rfl
@[simp] theorem Device.onTim_deferred (f : Tim → Tim) : (d.onTim f).deferred = d.deferred := rfl
@[simp] theorem Device.onTim_eop (f : Tim → Tim) : (d.onTim f).eop = d.eop := rfl
@[simp] theorem Device.onTim_sched (f : Tim → Tim) : (d.onTim f).sched = d.sched := rfl
@[simp] theorem Device.onTim_fab (f : Tim → Tim) : (d.onTim f).fab = d.fab := rfl
@[simp] theorem Device.onTim_frm (f : Tim → Tim) : (d.onTim f).frm = d.frm := rfl
@[simp] theorem Device.onTim_rx (f : Tim → Tim) : (d.onTim f).rx = d.rx := rfl
@[simp] theorem Device.onTim_tx (f : Tim → Tim) : (d.onTim f).tx = d.tx := rfl
@[simp] theorem Device.onTim_fec (f : Tim → Tim) : (d.onTim f).fec = d.fec := rfl
@[simp] theorem Device.onTim_hub (f : Tim → Tim) : (d.onTim f).hub = d.hub := rfl
@[simp] theorem Device.onTim_pkt (f : Tim → Tim) : (d.onTim f).pkt = d.pkt := rfl
@[simp] theorem Device.onTim_itla (f : Tim → Tim) : (d.onTim f).itla = d.itla := rfl
@[simp] theorem Device.onTim_aspi (f : Tim → Tim) : (d.onTim f).aspi = d.aspi := rfl
@[simp] theorem Device.onTim_bias (f : Tim → Tim) : (d.onTim f).bias = d.bias := rfl
@[simp] theorem Device.onTim_store (f : Tim → Tim) : (d.onTim f).store = d.store := rfl
@[simp] theorem Device.onTim_twin (f : Tim → Tim) : (d.onTim f).twin = d.twin := rfl
@[simp] theorem Device.onTim_mem (f : Tim → Tim) : (d.onTim f).mem = d.mem := rfl
@[simp] theorem Device.onTim_sec (f : Tim → Tim) : (d.onTim f).sec = d.sec := rfl
@[simp] theorem Device.onTim_lane (f : Tim → Tim) : (d.onTim f).lane = d.lane := rfl
@[simp] theorem Device.onTim_mon (f : Tim → Tim) : (d.onTim f).mon = d.mon := rfl
@[simp] theorem Device.onTim_cal (f : Tim → Tim) : (d.onTim f).cal = d.cal := rfl
@[simp] theorem Device.onTim_tel (f : Tim → Tim) : (d.onTim f).tel = d.tel := rfl
@[simp] theorem Device.onTim_pwr (f : Tim → Tim) : (d.onTim f).pwr = d.pwr := rfl
@[simp] theorem Device.onTim_jtag (f : Tim → Tim) : (d.onTim f).jtag = d.jtag := rfl

@[simp] theorem Device.onPwr_dict (f : Pwr → Pwr) : (d.onPwr f).dict = d.dict := rfl
@[simp] theorem Device.onPwr_doms (f : Pwr → Pwr) : (d.onPwr f).doms = d.doms := rfl
@[simp] theorem Device.onPwr_now (f : Pwr → Pwr) : (d.onPwr f).now = d.now := rfl
@[simp] theorem Device.onPwr_free (f : Pwr → Pwr) : (d.onPwr f).free = d.free := rfl
@[simp] theorem Device.onPwr_out (f : Pwr → Pwr) : (d.onPwr f).out = d.out := rfl
@[simp] theorem Device.onPwr_phase (f : Pwr → Pwr) : (d.onPwr f).phase = d.phase := rfl
@[simp] theorem Device.onPwr_resources (f : Pwr → Pwr) : (d.onPwr f).resources = d.resources := rfl
@[simp] theorem Device.onPwr_deferred (f : Pwr → Pwr) : (d.onPwr f).deferred = d.deferred := rfl
@[simp] theorem Device.onPwr_eop (f : Pwr → Pwr) : (d.onPwr f).eop = d.eop := rfl
@[simp] theorem Device.onPwr_sched (f : Pwr → Pwr) : (d.onPwr f).sched = d.sched := rfl
@[simp] theorem Device.onPwr_fab (f : Pwr → Pwr) : (d.onPwr f).fab = d.fab := rfl
@[simp] theorem Device.onPwr_frm (f : Pwr → Pwr) : (d.onPwr f).frm = d.frm := rfl
@[simp] theorem Device.onPwr_rx (f : Pwr → Pwr) : (d.onPwr f).rx = d.rx := rfl
@[simp] theorem Device.onPwr_tx (f : Pwr → Pwr) : (d.onPwr f).tx = d.tx := rfl
@[simp] theorem Device.onPwr_fec (f : Pwr → Pwr) : (d.onPwr f).fec = d.fec := rfl
@[simp] theorem Device.onPwr_hub (f : Pwr → Pwr) : (d.onPwr f).hub = d.hub := rfl
@[simp] theorem Device.onPwr_pkt (f : Pwr → Pwr) : (d.onPwr f).pkt = d.pkt := rfl
@[simp] theorem Device.onPwr_itla (f : Pwr → Pwr) : (d.onPwr f).itla = d.itla := rfl
@[simp] theorem Device.onPwr_aspi (f : Pwr → Pwr) : (d.onPwr f).aspi = d.aspi := rfl
@[simp] theorem Device.onPwr_bias (f : Pwr → Pwr) : (d.onPwr f).bias = d.bias := rfl
@[simp] theorem Device.onPwr_store (f : Pwr → Pwr) : (d.onPwr f).store = d.store := rfl
@[simp] theorem Device.onPwr_twin (f : Pwr → Pwr) : (d.onPwr f).twin = d.twin := rfl
@[simp] theorem Device.onPwr_mem (f : Pwr → Pwr) : (d.onPwr f).mem = d.mem := rfl
@[simp] theorem Device.onPwr_tim (f : Pwr → Pwr) : (d.onPwr f).tim = d.tim := rfl
@[simp] theorem Device.onPwr_sec (f : Pwr → Pwr) : (d.onPwr f).sec = d.sec := rfl
@[simp] theorem Device.onPwr_lane (f : Pwr → Pwr) : (d.onPwr f).lane = d.lane := rfl
@[simp] theorem Device.onPwr_mon (f : Pwr → Pwr) : (d.onPwr f).mon = d.mon := rfl
@[simp] theorem Device.onPwr_cal (f : Pwr → Pwr) : (d.onPwr f).cal = d.cal := rfl
@[simp] theorem Device.onPwr_tel (f : Pwr → Pwr) : (d.onPwr f).tel = d.tel := rfl
@[simp] theorem Device.onPwr_jtag (f : Pwr → Pwr) : (d.onPwr f).jtag = d.jtag := rfl

@[simp] theorem Device.onLane_dict (f : Lane → Lane) : (d.onLane f).dict = d.dict := rfl
@[simp] theorem Device.onLane_doms (f : Lane → Lane) : (d.onLane f).doms = d.doms := rfl
@[simp] theorem Device.onLane_now (f : Lane → Lane) : (d.onLane f).now = d.now := rfl
@[simp] theorem Device.onLane_free (f : Lane → Lane) : (d.onLane f).free = d.free := rfl
@[simp] theorem Device.onLane_out (f : Lane → Lane) : (d.onLane f).out = d.out := rfl
@[simp] theorem Device.onLane_phase (f : Lane → Lane) : (d.onLane f).phase = d.phase := rfl
@[simp] theorem Device.onLane_resources (f : Lane → Lane) : (d.onLane f).resources = d.resources := rfl
@[simp] theorem Device.onLane_deferred (f : Lane → Lane) : (d.onLane f).deferred = d.deferred := rfl
@[simp] theorem Device.onLane_eop (f : Lane → Lane) : (d.onLane f).eop = d.eop := rfl
@[simp] theorem Device.onLane_sched (f : Lane → Lane) : (d.onLane f).sched = d.sched := rfl
@[simp] theorem Device.onLane_fab (f : Lane → Lane) : (d.onLane f).fab = d.fab := rfl
@[simp] theorem Device.onLane_frm (f : Lane → Lane) : (d.onLane f).frm = d.frm := rfl
@[simp] theorem Device.onLane_rx (f : Lane → Lane) : (d.onLane f).rx = d.rx := rfl
@[simp] theorem Device.onLane_tx (f : Lane → Lane) : (d.onLane f).tx = d.tx := rfl
@[simp] theorem Device.onLane_fec (f : Lane → Lane) : (d.onLane f).fec = d.fec := rfl
@[simp] theorem Device.onLane_hub (f : Lane → Lane) : (d.onLane f).hub = d.hub := rfl
@[simp] theorem Device.onLane_pkt (f : Lane → Lane) : (d.onLane f).pkt = d.pkt := rfl
@[simp] theorem Device.onLane_itla (f : Lane → Lane) : (d.onLane f).itla = d.itla := rfl
@[simp] theorem Device.onLane_aspi (f : Lane → Lane) : (d.onLane f).aspi = d.aspi := rfl
@[simp] theorem Device.onLane_bias (f : Lane → Lane) : (d.onLane f).bias = d.bias := rfl
@[simp] theorem Device.onLane_store (f : Lane → Lane) : (d.onLane f).store = d.store := rfl
@[simp] theorem Device.onLane_twin (f : Lane → Lane) : (d.onLane f).twin = d.twin := rfl
@[simp] theorem Device.onLane_mem (f : Lane → Lane) : (d.onLane f).mem = d.mem := rfl
@[simp] theorem Device.onLane_tim (f : Lane → Lane) : (d.onLane f).tim = d.tim := rfl
@[simp] theorem Device.onLane_sec (f : Lane → Lane) : (d.onLane f).sec = d.sec := rfl
@[simp] theorem Device.onLane_mon (f : Lane → Lane) : (d.onLane f).mon = d.mon := rfl
@[simp] theorem Device.onLane_cal (f : Lane → Lane) : (d.onLane f).cal = d.cal := rfl
@[simp] theorem Device.onLane_tel (f : Lane → Lane) : (d.onLane f).tel = d.tel := rfl
@[simp] theorem Device.onLane_pwr (f : Lane → Lane) : (d.onLane f).pwr = d.pwr := rfl
@[simp] theorem Device.onLane_jtag (f : Lane → Lane) : (d.onLane f).jtag = d.jtag := rfl

@[simp] theorem Device.onTel_dict (f : Tel → Tel) : (d.onTel f).dict = d.dict := rfl
@[simp] theorem Device.onTel_doms (f : Tel → Tel) : (d.onTel f).doms = d.doms := rfl
@[simp] theorem Device.onTel_now (f : Tel → Tel) : (d.onTel f).now = d.now := rfl
@[simp] theorem Device.onTel_free (f : Tel → Tel) : (d.onTel f).free = d.free := rfl
@[simp] theorem Device.onTel_out (f : Tel → Tel) : (d.onTel f).out = d.out := rfl
@[simp] theorem Device.onTel_phase (f : Tel → Tel) : (d.onTel f).phase = d.phase := rfl
@[simp] theorem Device.onTel_resources (f : Tel → Tel) : (d.onTel f).resources = d.resources := rfl
@[simp] theorem Device.onTel_deferred (f : Tel → Tel) : (d.onTel f).deferred = d.deferred := rfl
@[simp] theorem Device.onTel_eop (f : Tel → Tel) : (d.onTel f).eop = d.eop := rfl
@[simp] theorem Device.onTel_sched (f : Tel → Tel) : (d.onTel f).sched = d.sched := rfl
@[simp] theorem Device.onTel_fab (f : Tel → Tel) : (d.onTel f).fab = d.fab := rfl
@[simp] theorem Device.onTel_frm (f : Tel → Tel) : (d.onTel f).frm = d.frm := rfl
@[simp] theorem Device.onTel_rx (f : Tel → Tel) : (d.onTel f).rx = d.rx := rfl
@[simp] theorem Device.onTel_tx (f : Tel → Tel) : (d.onTel f).tx = d.tx := rfl
@[simp] theorem Device.onTel_fec (f : Tel → Tel) : (d.onTel f).fec = d.fec := rfl
@[simp] theorem Device.onTel_hub (f : Tel → Tel) : (d.onTel f).hub = d.hub := rfl
@[simp] theorem Device.onTel_pkt (f : Tel → Tel) : (d.onTel f).pkt = d.pkt := rfl
@[simp] theorem Device.onTel_itla (f : Tel → Tel) : (d.onTel f).itla = d.itla := rfl
@[simp] theorem Device.onTel_aspi (f : Tel → Tel) : (d.onTel f).aspi = d.aspi := rfl
@[simp] theorem Device.onTel_bias (f : Tel → Tel) : (d.onTel f).bias = d.bias := rfl
@[simp] theorem Device.onTel_store (f : Tel → Tel) : (d.onTel f).store = d.store := rfl
@[simp] theorem Device.onTel_twin (f : Tel → Tel) : (d.onTel f).twin = d.twin := rfl
@[simp] theorem Device.onTel_mem (f : Tel → Tel) : (d.onTel f).mem = d.mem := rfl
@[simp] theorem Device.onTel_tim (f : Tel → Tel) : (d.onTel f).tim = d.tim := rfl
@[simp] theorem Device.onTel_sec (f : Tel → Tel) : (d.onTel f).sec = d.sec := rfl
@[simp] theorem Device.onTel_lane (f : Tel → Tel) : (d.onTel f).lane = d.lane := rfl
@[simp] theorem Device.onTel_mon (f : Tel → Tel) : (d.onTel f).mon = d.mon := rfl
@[simp] theorem Device.onTel_cal (f : Tel → Tel) : (d.onTel f).cal = d.cal := rfl
@[simp] theorem Device.onTel_pwr (f : Tel → Tel) : (d.onTel f).pwr = d.pwr := rfl
@[simp] theorem Device.onTel_jtag (f : Tel → Tel) : (d.onTel f).jtag = d.jtag := rfl

@[simp] theorem Device.onSched_self (f : Sched → Sched) : (d.onSched f).sched = f d.sched := rfl
@[simp] theorem Device.onTwin_self (f : Twin → Twin) : (d.onTwin f).twin = f d.twin := rfl
@[simp] theorem Device.onSec_self (f : Sec → Sec) : (d.onSec f).sec = f d.sec := rfl
@[simp] theorem Device.onStore_self (f : Store → Store) : (d.onStore f).store = f d.store := rfl
@[simp] theorem Device.onTim_self (f : Tim → Tim) : (d.onTim f).tim = f d.tim := rfl
@[simp] theorem Device.onPwr_self (f : Pwr → Pwr) : (d.onPwr f).pwr = f d.pwr := rfl
@[simp] theorem Device.onLane_self (f : Lane → Lane) : (d.onLane f).lane = f d.lane := rfl
@[simp] theorem Device.onTel_self (f : Tel → Tel) : (d.onTel f).tel = f d.tel := rfl
@[simp] theorem Device.send_out (o : Out) : (d.send o).out = d.out ++ [o] := rfl

end Sys2Proof.Machine
end

