-- ==== Sys2Proof/Laws/Table.lean ====
section
/-! SUPPORT. Association lists: reading what was written, leaving every other key alone, keeping the keys in order. -/

namespace Sys2Proof.Machine

variable {α : Type}

@[simp] theorem tblGet_nil (k : Nat) : tblGet ([] : List (Nat × α)) k = none := rfl

@[simp] theorem tblGet_cons (p : Nat × α) (r : List (Nat × α)) (k : Nat) : tblGet (p :: r) k = if k = p.1 then some p.2 else tblGet r k := by
  obtain ⟨a, b⟩ := p; rfl

theorem tblGet_put_same (t : List (Nat × α)) (k : Nat) (v : α) : tblGet (tblPut t k v) k = some v := by
  induction t with
  | nil => simp [tblPut]
  | cons p r ih =>
    obtain ⟨a, b⟩ := p
    simp only [tblPut]
    split
    · simp
    · split
      · simp
      · rename_i h; simp [h, ih]

theorem tblGet_put_ne (t : List (Nat × α)) {k j : Nat} (v : α) (h : j ≠ k) : tblGet (tblPut t k v) j = tblGet t j := by
  induction t with
  | nil => simp [tblPut, h]
  | cons p r ih =>
    obtain ⟨a, b⟩ := p
    simp only [tblPut]
    split
    · simp [h]
    · split
      · rename_i e; subst e; simp [h]
      · simp [ih]

theorem tblGet_del_same (t : List (Nat × α)) (k : Nat) : tblGet (tblDel t k) k = none := by
  induction t with
  | nil => rfl
  | cons p r ih =>
    obtain ⟨a, b⟩ := p
    simp only [tblDel]
    split
    · exact ih
    · rename_i h; simp [h, ih]

theorem tblGet_del_ne (t : List (Nat × α)) {k j : Nat} (h : j ≠ k) : tblGet (tblDel t k) j = tblGet t j := by
  induction t with
  | nil => rfl
  | cons p r ih =>
    obtain ⟨a, b⟩ := p
    simp only [tblDel]
    split
    · rename_i e; subst e; simp [h, ih]
    · simp [ih]

theorem tblGetD_set_same [DecidableEq α] (t : List (Nat × α)) (k : Nat) (v z : α) : tblGetD (tblSet t k v z) k z = v := by
  unfold tblGetD tblSet
  split
  · rename_i h; simp [tblGet_del_same, h]
  · simp [tblGet_put_same]

theorem tblGet_set_ne [DecidableEq α] (t : List (Nat × α)) {k j : Nat} (v z : α) (h : j ≠ k) : tblGet (tblSet t k v z) j = tblGet t j := by
  unfold tblSet
  split
  · exact tblGet_del_ne t h
  · exact tblGet_put_ne t v h

theorem tblGetD_set_ne [DecidableEq α] (t : List (Nat × α)) {k j : Nat} (v z y : α) (h : j ≠ k) : tblGetD (tblSet t k v z) j y = tblGetD t j y := by
  unfold tblGetD; rw [tblGet_set_ne t v z h]

end Sys2Proof.Machine
end

