-- ==== Sys2Proof/Laws/Ops.lean ====
section
/-! SUPPORT. What the shared operations leave as it was: notices and replies, counters, the objects that follow after every command. Each lemma says that
an operation changes nothing once the parts it may touch are blanked; the field lemmas at the end are what a proof about a command cites. -/

namespace Sys2Proof.Machine

/-- The device without what notices and replies touch: the EOP service and its segments, the ring's open transfer, what leaves. -/
def Device.unsaid (d : Device) : Device := { d with eop := Eop.initial, tel := Device.initial.tel, out := [], frm := d.framers }

/-- The device without what notices of blocks touch too: object values and the count of free values. -/
def Device.unnoted (d : Device) : Device := { d.unsaid with dict := [], free := 0 }

/-- The device without what settling touches: also the converter's work, the bias visits, the line-path runs, and when crypt groups ceased to send ciphertext. -/
def Device.unsettled (d : Device) : Device :=
  { d.unnoted with bias := Device.initial.bias, mon := Device.initial.mon, cal := Device.initial.cal, sec := { d.sec with ended := [] } }

variable (d : Device)

/-- What every application of f leaves alone, all of them leave alone. -/
theorem Device.each_keeps {α β : Type} (l : List α) (f : α → Device → Device) (g : Device → β) (h : ∀ a x, g (f a x) = g x) (d : Device) :
    g (d.each l f) = g d := by
  induction l generalizing d with
  | nil => rfl
  | cons a r ih => exact (ih (f a d)).trans (h a d)

/-! ### Notices and replies -/

theorem Device.keepTransfers_unsaid (p : Transfer → Bool) : (d.keepTransfers p).unsaid = d.unsaid := rfl

theorem Device.keepSessions_unsaid (p : Session → Bool) : (d.keepSessions p).unsaid = d.unsaid := by
  unfold Device.keepSessions; dsimp only; split <;> rfl

theorem Device.countOut_unsaid (n : Nat) : (d.countOut n).unsaid = d.unsaid := by
  unfold Device.countOut; rw [Device.keepSessions_unsaid]; rfl

theorem Device.post_unsaid (c : Nat) (m : SlotMsg) (h : m.cls = 3) : (d.post c m).unsaid = d.unsaid := by
  unfold Device.post Device.unsaid Device.framers Pair.put Pair.at
  split <;> simp [Framer.noSegs, h]

theorem Device.sendLine_unsaid (c leaf : Nat) (bs : List Nat) : (d.sendLine c leaf bs).unsaid = d.unsaid := by
  unfold Device.sendLine; dsimp only
  repeat' split
  all_goals first
    | rfl
    | exact (Device.each_keeps _ _ Device.unsaid (fun _ x => Device.post_unsaid x _ _ rfl) _).trans rfl

theorem Device.dispatch_unsaid (t a : Nat) (m : Msg) (bs : List Nat) : (d.dispatch t a m bs).unsaid = d.unsaid := by
  unfold Device.dispatch; dsimp only; split
  · rfl
  · split
    · rw [Device.sendLine_unsaid]; rfl
    · rfl

theorem Device.noticeTo_unsaid (s : Subscription) (r : Nat) (b : NoticeBody) : (d.noticeTo s r b).unsaid = d.unsaid := by
  unfold Device.noticeTo; dsimp only
  split
  · rfl
  · rw [Device.dispatch_unsaid, Device.countOut_unsaid]; rfl

theorem Device.keepResp_unsaid (r : Resp) : (d.keepResp r).unsaid = d.unsaid := by
  unfold Device.keepResp; rw [Device.countOut_unsaid]; rfl

theorem Device.emit_unsaid (r : Resp) : (d.emit r).unsaid = d.unsaid := by
  exact Device.dispatch_unsaid _ _ _ _ _

theorem Device.reply_unsaid (q : Req) (svc : Nat) (r : Reply) : (d.reply q svc r).unsaid = d.unsaid := by
  unfold Device.reply; split
  · rw [Device.emit_unsaid, Device.keepResp_unsaid]
  · rw [Device.emit_unsaid, Device.keepResp_unsaid]
  · rfl

theorem Device.changeTo_unsaid (s : Subscription) (r v : Nat) : (d.changeTo s r v).unsaid = d.unsaid := by
  unfold Device.changeTo; split
  · split <;> rfl
  · rw [Device.noticeTo_unsaid]; rfl

/-- Value-change notices touch nothing but the EOP service and what leaves. -/
theorem Device.changes_unsaid (b : Device) : (d.changes b).unsaid = d.unsaid := by
  unfold Device.changes Device.tell; split
  · rfl
  · exact Device.each_keeps _ _ Device.unsaid (fun _ x => Device.each_keeps _ _ Device.unsaid (fun _ y => Device.changeTo_unsaid y _ _ _) x) d

theorem Device.endLimited_unsaid : d.endLimited.unsaid = d.unsaid := by
  unfold Device.endLimited; split
  · exact Device.keepSessions_unsaid _ _
  · rfl

/-- An event takes its number: the scheduler's numbering and SCHED_LAST_SEQ, nothing else. -/
theorem Device.takeSeq_eq : ∃ n c, d.takeSeq = { d with dict := c, sched := n } := by
  unfold Device.takeSeq; split
  · exact ⟨_, _, rfl⟩
  · exact ⟨_, _, rfl⟩

/-- What is said does not touch what numbers, counters and notices of blocks do not touch either. -/
theorem Device.unnoted_of_unsaid {d e : Device} (h : d.unsaid = e.unsaid) : d.unnoted = e.unnoted := congrArg (fun x => { x with dict := [], free := 0 }) h

theorem Device.unsettled_of_unnoted {d e : Device} (h : d.unnoted = e.unnoted) : d.unsettled = e.unsettled :=
  congrArg (fun x => { x with bias := Device.initial.bias, mon := Device.initial.mon, cal := Device.initial.cal, sec := { x.sec with ended := [] } }) h

theorem Device.count_unnoted (o : Obj) (n : Nat) : (d.count o n).unnoted = d.unnoted := by
  unfold Device.count; split <;> rfl

theorem Device.bump_unnoted (o : Obj) : (d.bump o).unnoted = d.unnoted := Device.count_unnoted _ _ _

theorem Device.addCnt_unnoted (b k n : Nat) : (d.addCnt b k n).unnoted = d.unnoted := by
  unfold Device.addCnt; dsimp only; split <;> rfl

theorem Device.countEvent_unnoted (b ev i : Nat) : (d.countEvent b ev i).unnoted = d.unnoted := by
  unfold Device.countEvent; split
  · rfl
  · refine Device.each_keeps _ _ Device.unnoted (fun k x => ?_) d
    split
    · exact Device.addCnt_unnoted _ _ _ _
    · rfl

theorem Device.blockNoticed_unnoted (r : Nat) : (d.blockNoticed r).unnoted = d.unnoted := by
  unfold Device.blockNoticed; dsimp only; split
  · rfl
  · refine (Device.bump_unnoted _ _).trans ?_
    split
    · rfl
    · exact Device.countEvent_unnoted _ _ _ _

theorem Device.notice_unnoted (o : Obj) (l : List Nat) : (d.notice o l).unnoted = d.unnoted := by
  unfold Device.notice
  rw [Device.each_keeps _ _ Device.unnoted (fun _ x => Device.unnoted_of_unsaid (Device.noticeTo_unsaid x _ _ _)), Device.blockNoticed_unnoted]

theorem Device.noticeEither_unnoted (r : Nat) (l : List Nat) : (d.noticeEither r l).unnoted = d.unnoted := by
  unfold Device.noticeEither; dsimp only
  rw [Device.each_keeps _ _ Device.unnoted (fun _ x => Device.unnoted_of_unsaid (Device.noticeTo_unsaid x _ _ _)), Device.blockNoticed_unnoted]

/-! ### Settling -/

theorem Device.set_unsettled (o : Obj) (v : Nat) : (d.set o v).unsettled = d.unsettled := rfl
theorem Device.setI_unsettled (o : Obj) (v : Int) : (d.setI o v).unsettled = d.unsettled := rfl

theorem Device.bump_unsettled (o : Obj) : (d.bump o).unsettled = d.unsettled := Device.unsettled_of_unnoted (Device.bump_unnoted d o)

theorem Device.convertSeq_unsettled (k : Nat) : (d.convertSeq k).unsettled = d.unsettled := by
  unfold Device.convertSeq; dsimp only; split <;> rfl

theorem Device.startSelfCal_unsettled (w : Conv) : (d.startSelfCal w).unsettled = d.unsettled := by
  unfold Device.startSelfCal; dsimp only; split <;> rfl

theorem Device.chooseWork_unsettled : d.chooseWork.unsettled = d.unsettled := by
  unfold Device.chooseWork; dsimp only
  repeat' split
  all_goals first
    | rfl
    | exact Device.convertSeq_unsettled _ _

theorem Device.choose_unsettled (w : Conv) : (d.choose w).unsettled = d.unsettled := by
  unfold Device.choose
  repeat' split
  all_goals first
    | rfl
    | exact Device.startSelfCal_unsettled _ _
    | exact Device.convertSeq_unsettled _ _
    | exact Device.chooseWork_unsettled _

theorem Device.workWaits_unsettled : d.workWaits.unsettled = d.unsettled := by
  unfold Device.workWaits; split
  · exact Device.choose_unsettled _ _
  · rfl

theorem Device.driveBias_unsettled (b : Device) (l : List Nat) : (d.driveBias b l).unsettled = d.unsettled := by
  unfold Device.driveBias
  refine Device.each_keeps _ _ Device.unsettled (fun n x => ?_) d
  split <;> rfl

theorem Device.biasFollow_unsettled : d.biasFollow.unsettled = d.unsettled := by
  unfold Device.biasFollow; dsimp only
  repeat' split
  all_goals first
    | rfl
    | exact (Device.driveBias_unsettled _ _ _).trans (Device.choose_unsettled _ _)
    | exact Device.driveBias_unsettled _ _ _
    | exact (Device.driveBias_unsettled _ _ _).trans (Device.workWaits_unsettled _)

theorem Device.startRun_unsettled (c k : Nat) : (d.startRun c k).unsettled = d.unsettled := by
  unfold Device.startRun; split <;> rfl

theorem Device.nextRun_unsettled (c : Nat) : (d.nextRun c).unsettled = d.unsettled := by
  unfold Device.nextRun; dsimp only; split
  · exact Device.startRun_unsettled _ _ _
  · split
    · exact Device.startRun_unsettled _ _ _
    · rfl

theorem Device.endRun_unsettled (c : Nat) : (d.endRun c).unsettled = d.unsettled := by
  unfold Device.endRun; dsimp only
  rw [Device.nextRun_unsettled, Device.set_unsettled, Device.bump_unsettled]; rfl

theorem Device.endTxRun_unsettled (c : Nat) : (d.endTxRun c).unsettled = d.unsettled := by
  unfold Device.endTxRun; dsimp only; split
  · rw [Device.endRun_unsettled]; rfl
  · rfl

theorem Device.requestRun_unsettled (c k : Nat) : (d.requestRun c k).unsettled = d.unsettled := by
  unfold Device.requestRun; dsimp only; split
  · exact Device.nextRun_unsettled _ _
  · rfl

theorem Device.calFollow_unsettled (c : Nat) : (d.calFollow c).unsettled = d.unsettled := by
  unfold Device.calFollow; dsimp only
  repeat' split
  all_goals first
    | rfl
    | (rw [Device.endTxRun_unsettled]; done)
    | (rw [Device.endTxRun_unsettled]; rfl)
    | (rw [Device.requestRun_unsettled]; rfl)

theorem Device.sweepFollow_unsettled (k : Nat) : (d.sweepFollow k).unsettled = d.unsettled := by
  unfold Device.sweepFollow; split <;> rfl

theorem Device.stageTimes_unsettled : d.stageTimes.unsettled = d.unsettled := by
  unfold Device.stageTimes
  refine Device.each_keeps _ _ Device.unsettled (fun a x => ?_) d
  split
  · exact Device.set_unsettled _ _ _
  · rfl

theorem Device.follow_unsettled : d.follow.unsettled = d.unsettled := by
  unfold Device.follow
  rw [Device.each_keeps _ _ Device.unsettled (fun _ x => Device.sweepFollow_unsettled x _)]
  rw [Device.calFollow_unsettled, Device.calFollow_unsettled, Device.biasFollow_unsettled]
  exact Device.unsettled_of_unnoted (Device.unnoted_of_unsaid (Device.endLimited_unsaid _))

theorem Device.status_unsettled : d.status.unsettled = d.unsettled := by
  unfold Device.status; dsimp only
  simp only [Device.set_unsettled, Device.setI_unsettled, Device.stageTimes_unsettled]

theorem Device.setCgState_unsettled (n st : Nat) : (d.setCgState n st).unsettled = d.unsettled := by
  unfold Device.setCgState; dsimp only
  repeat' split
  all_goals rfl

theorem Device.followCg_unsettled : d.followCg.unsettled = d.unsettled := by
  unfold Device.followCg; split
  · rfl
  · unfold Device.refreshCg; dsimp only
    rw [Device.set_unsettled]
    exact Device.each_keeps _ _ Device.unsettled (fun a x => Device.setCgState_unsettled _ _ _) d

/-- Settling touches object values, the EOP service, the converter's work, the bias visits, the line-path runs and the times of crypt groups; nothing else. -/
theorem Device.settle_unsettled : d.settle.unsettled = d.unsettled :=
  (Device.followCg_unsettled _).trans ((Device.status_unsettled _).trans (Device.follow_unsettled _))

end Sys2Proof.Machine
end

