-- ==== Sys2Proof/Laws/After.lean ====
section
/-! SUPPORT. What a command's end (settling, value-change notices) leaves as the effect made it: every field it does not touch, and every object that
does not follow by itself. -/

namespace Sys2Proof.Machine

/-! ### Objects -/

@[simp] theorem Device.get_set_same (d : Device) (o : Obj) (v : Nat) : (d.set o v).get o = v % 2 ^ o.width := tblGetD_set_same _ _ _ _

theorem Device.get_set_ne (d : Device) {o p : Obj} (v : Nat) (h : p.ref ≠ o.ref) : (d.set o v).get p = d.get p := tblGetD_set_ne _ _ _ _ h

theorem Device.get_setI_ne (d : Device) {o p : Obj} (v : Int) (h : p.ref ≠ o.ref) : (d.setI o v).get p = d.get p := tblGetD_set_ne _ _ _ _ h

theorem Device.get_setBit_ne (d : Device) {o p : Obj} (k : Nat) (b : Bool) (h : p.ref ≠ o.ref) : (d.setBit o k b).get p = d.get p :=
  Device.get_set_ne d _ h

/-- Equal dictionaries read alike. -/
theorem Device.get_of_dict {d e : Device} (h : d.dict = e.dict) (o : Obj) : d.get o = e.get o := by unfold Device.get; rw [h]

theorem Device.get_count_ne (d : Device) {o p : Obj} (n : Nat) (h : p.ref ≠ o.ref) : (d.count o n).get p = d.get p := by
  unfold Device.count; split
  · exact Device.get_set_ne d _ h
  · exact (Device.get_of_dict rfl p).trans (Device.get_set_ne d (Config.counterPastTop d.free) h)

theorem Device.get_bump_ne (d : Device) {o p : Obj} (h : p.ref ≠ o.ref) : (d.bump o).get p = d.get p := Device.get_count_ne d 1 h

/-- A counter below its top counts. -/
theorem Device.get_count_same (d : Device) (o : Obj) (n : Nat) (h : d.get o + n < 2 ^ o.width) : (d.count o n).get o = d.get o + n := by
  unfold Device.count; rw [if_pos h, Device.get_set_same, Nat.mod_eq_of_lt h]

theorem Device.get_takeSeq_ne (d : Device) {p : Obj} (h : p.ref ≠ Reg.schedLastSeq.ref) : d.takeSeq.get p = d.get p := by
  unfold Device.takeSeq; split
  · rfl
  · exact Device.get_set_ne _ _ h

/-! ### What is said leaves object values alone -/

theorem Device.keepSessions_dict (d : Device) (p : Session → Bool) : (d.keepSessions p).dict = d.dict := by
  unfold Device.keepSessions; dsimp only; split <;> rfl

theorem Device.countOut_dict (d : Device) (n : Nat) : (d.countOut n).dict = d.dict := Device.keepSessions_dict _ _

theorem Device.sendLine_dict (d : Device) (c leaf : Nat) (bs : List Nat) : (d.sendLine c leaf bs).dict = d.dict := by
  unfold Device.sendLine; dsimp only
  repeat' split
  all_goals first
    | rfl
    | (refine (Device.each_keeps _ _ Device.dict ?_ _).trans rfl; intros; rfl)

theorem Device.dispatch_dict (d : Device) (t a : Nat) (m : Msg) (bs : List Nat) : (d.dispatch t a m bs).dict = d.dict := by
  unfold Device.dispatch; dsimp only; split
  · rfl
  · split
    · rw [Device.sendLine_dict]; rfl
    · rfl

theorem Device.noticeTo_dict (d : Device) (s : Subscription) (r : Nat) (b : NoticeBody) : (d.noticeTo s r b).dict = d.dict := by
  unfold Device.noticeTo; dsimp only
  split
  · rfl
  · rw [Device.dispatch_dict, Device.countOut_dict]

theorem Device.keepResp_dict (d : Device) (r : Resp) : (d.keepResp r).dict = d.dict := Device.countOut_dict _ _

theorem Device.emit_dict (d : Device) (r : Resp) : (d.emit r).dict = d.dict := Device.dispatch_dict _ _ _ _ _

theorem Device.reply_dict (d : Device) (q : Req) (svc : Nat) (r : Reply) : (d.reply q svc r).dict = d.dict := by
  unfold Device.reply; split
  · rw [Device.emit_dict, Device.keepResp_dict]
  · rw [Device.emit_dict, Device.keepResp_dict]
  · rfl

theorem Device.changeTo_dict (d : Device) (s : Subscription) (r v : Nat) : (d.changeTo s r v).dict = d.dict := by
  unfold Device.changeTo; split
  · split <;> rfl
  · rw [Device.noticeTo_dict]; rfl

@[simp] theorem Device.changes_dict (d : Device) (b : Device) : (d.changes b).dict = d.dict := by
  unfold Device.changes Device.tell; split
  · rfl
  · exact Device.each_keeps _ _ Device.dict (fun _ x => Device.each_keeps _ _ Device.dict (fun _ y => Device.changeTo_dict y _ _ _) x) d

@[simp] theorem Device.changes_get (d : Device) (b : Device) (o : Obj) : (d.changes b).get o = d.get o := Device.get_of_dict (Device.changes_dict d b) o


/-! ### Settling leaves every object that does not follow by itself -/

theorem followsByItself_listed {ref r : Nat} (h : followsByItself ref = false) (hr : followsByItself r = true) : ref ≠ r := by
  rintro rfl; rw [h] at hr; cases hr

theorem followsByItself_seq {ref : Nat} (h : followsByItself ref = false) (k : Nat) : ref ≠ (Reg.monSeqState k).ref := by
  refine followsByItself_listed h ?_
  have e : (Reg.monSeqState k).ref % 256 = (Reg.monSeqState 0).ref % 256 := by simp only [Reg.monSeqState]; omega
  have g : (Reg.monSeqState 0).ref ≤ (Reg.monSeqState k).ref := by simp only [Reg.monSeqState]; omega
  unfold followsByItself
  simp only [e, g, beq_self_eq_true, decide_true, Bool.and_self, Bool.or_true]

theorem followsByItself_cg {ref : Nat} (h : followsByItself ref = false) {n : Nat} (hn : n < 128) : ref ≠ (Reg.secCgState n).ref := by
  refine followsByItself_listed h ?_
  have e : ((Reg.secCgState n).ref / 256 == (Reg.secCgState 0).ref / 256) = true := by
    rw [beq_iff_eq]; simp only [Reg.secCgState]; omega
  unfold followsByItself
  rw [e, Bool.or_true, Bool.true_or]

variable {o : Obj}

theorem Device.convertSeq_get (h : followsByItself o.ref = false) (d : Device) (k : Nat) : (d.convertSeq k).get o = d.get o := by
  unfold Device.convertSeq; dsimp only; split
  · exact Device.get_set_ne _ _ (followsByItself_seq h k)
  · rfl

theorem Device.startSelfCal_get (h : followsByItself o.ref = false) (d : Device) (w : Conv) : (d.startSelfCal w).get o = d.get o := by
  have hc : o.ref ≠ Reg.monCalState.ref := followsByItself_listed h (by decide)
  unfold Device.startSelfCal; dsimp only; split
  · rename_i k
    exact (Device.get_set_ne _ _ (followsByItself_seq h k)).trans (Device.get_set_ne _ _ hc)
  · exact Device.get_set_ne _ _ hc

theorem Device.chooseWork_get (h : followsByItself o.ref = false) (d : Device) : d.chooseWork.get o = d.get o := by
  unfold Device.chooseWork; dsimp only
  repeat' split
  all_goals first
    | rfl
    | exact Device.convertSeq_get h _ _

theorem Device.choose_get (h : followsByItself o.ref = false) (d : Device) (w : Conv) : (d.choose w).get o = d.get o := by
  unfold Device.choose
  repeat' split
  all_goals first
    | rfl
    | exact Device.startSelfCal_get h _ _
    | exact Device.convertSeq_get h _ _
    | exact Device.chooseWork_get h _

theorem Device.workWaits_get (h : followsByItself o.ref = false) (d : Device) : d.workWaits.get o = d.get o := by
  unfold Device.workWaits; split
  · exact Device.choose_get h _ _
  · rfl

theorem Device.driveBias_get (d b : Device) (l : List Nat) (o : Obj) : (d.driveBias b l).get o = d.get o := by
  unfold Device.driveBias
  refine Device.each_keeps _ _ (fun x => x.get o) (fun n x => ?_) d
  split <;> rfl

theorem Device.biasFollow_get (h : followsByItself o.ref = false) (d : Device) : d.biasFollow.get o = d.get o := by
  unfold Device.biasFollow; dsimp only
  repeat' split
  all_goals first
    | rfl
    | exact (Device.driveBias_get _ _ _ _).trans (Device.choose_get h _ _)
    | exact Device.driveBias_get _ _ _ _
    | exact (Device.driveBias_get _ _ _ _).trans (Device.workWaits_get h _)

/-- Objects of the line-path runs of either carrier. -/
theorem calRefs (h : followsByItself o.ref = false) (c : Nat) (hc : c < 2) :
    o.ref ≠ (Reg.calState c).ref ∧ o.ref ≠ (Reg.calRuns c).ref ∧ o.ref ≠ (Reg.calLast c).ref ∧ o.ref ≠ (Reg.calTempLast c).ref := by
  have : c = 0 ∨ c = 1 := by omega
  rcases this with rfl | rfl <;>
    exact ⟨followsByItself_listed h (by decide), followsByItself_listed h (by decide), followsByItself_listed h (by decide), followsByItself_listed h (by decide)⟩

theorem Device.startRun_get (h : followsByItself o.ref = false) {c : Nat} (hc : c < 2) (d : Device) (k : Nat) : (d.startRun c k).get o = d.get o := by
  obtain ⟨h1, -, -, h4⟩ := calRefs h c hc
  unfold Device.startRun; split
  · rfl
  · exact (Device.get_set_ne _ _ h1).trans (Device.get_set_ne _ _ h4)

theorem Device.nextRun_get (h : followsByItself o.ref = false) {c : Nat} (hc : c < 2) (d : Device) : (d.nextRun c).get o = d.get o := by
  unfold Device.nextRun; dsimp only; split
  · exact Device.startRun_get h hc _ _
  · split
    · exact Device.startRun_get h hc _ _
    · rfl

theorem Device.endRun_get (h : followsByItself o.ref = false) {c : Nat} (hc : c < 2) (d : Device) : (d.endRun c).get o = d.get o := by
  obtain ⟨h1, h2, h3, -⟩ := calRefs h c hc
  unfold Device.endRun; dsimp only
  rw [Device.nextRun_get h hc, Device.get_set_ne _ _ h3, Device.get_bump_ne _ h2, Device.get_set_ne _ _ h1]; rfl

theorem Device.endTxRun_get (h : followsByItself o.ref = false) {c : Nat} (hc : c < 2) (d : Device) : (d.endTxRun c).get o = d.get o := by
  unfold Device.endTxRun; dsimp only; split
  · rw [Device.endRun_get h hc]; rfl
  · rfl

theorem Device.requestRun_get (h : followsByItself o.ref = false) {c : Nat} (hc : c < 2) (d : Device) (k : Nat) : (d.requestRun c k).get o = d.get o := by
  unfold Device.requestRun; dsimp only; split
  · exact Device.nextRun_get h hc _
  · rfl

theorem Device.calFollow_get (h : followsByItself o.ref = false) {c : Nat} (hc : c < 2) (d : Device) : (d.calFollow c).get o = d.get o := by
  have h1 := (calRefs h c hc).1
  have key : ∀ x : Device, x.get o = d.get o →
      (if x.get (Reg.lineTxState c) = 3 then
        if (d.calAt c).activeSeen = true then x
        else
          if (x.putCal c { d.calAt c with activeSeen := true }).on (Reg.calTxEnable c) = true then
            (x.putCal c { d.calAt c with activeSeen := true }).requestRun c 2
          else x.putCal c { d.calAt c with activeSeen := true }
      else x.endTxRun c).get o = d.get o := by
    intro x hx
    split
    · split
      · exact hx
      · split
        · rw [Device.requestRun_get h hc]; exact hx
        · exact hx
    · rw [Device.endTxRun_get h hc]; exact hx
  unfold Device.calFollow; dsimp only
  refine key _ ?_
  have h5 : o.ref ≠ (Reg.lineRxAdcState c).ref := by
    have : c = 0 ∨ c = 1 := by omega
    rcases this with rfl | rfl <;> exact followsByItself_listed h (by decide)
  have adc : ∀ x : Device, x.get o = d.get o → ∀ v, (if x.get (Reg.lineRxState c) = 3 then x.set (Reg.lineRxAdcState c) v else x).get o = d.get o := by
    intro x hx v
    split
    · exact (Device.get_set_ne _ _ h5).trans hx
    · exact hx
  split
  · exact adc _ (Device.get_set_ne _ _ h1) _
  · rfl

theorem Device.sweepFollow_get (h : followsByItself o.ref = false) {k : Nat} (hk : k < 3) (d : Device) : (d.sweepFollow k).get o = d.get o := by
  have : o.ref ≠ (Reg.telSweepState k).ref := by
    have : k = 0 ∨ k = 1 ∨ k = 2 := by omega
    rcases this with rfl | rfl | rfl <;> exact followsByItself_listed h (by decide)
  unfold Device.sweepFollow; split
  · exact Device.get_set_ne _ _ this
  · rfl

theorem Device.stageTimes_get (h : followsByItself o.ref = false) (d : Device) : d.stageTimes.get o = d.get o := by
  have hk : ∀ k, k < 5 → o.ref ≠ (Reg.pwrStageTime k).ref := by
    intro k hk
    have : k = 0 ∨ k = 1 ∨ k = 2 ∨ k = 3 ∨ k = 4 := by omega
    rcases this with rfl | rfl | rfl | rfl | rfl <;> exact followsByItself_listed h (by decide)
  have one : ∀ (k : Nat), k < 5 → ∀ x : Device,
      (if bitAt (x.get Reg.pwrBringup) k = true ∧ x.get (Reg.pwrStageTime k) = 0 then x.set (Reg.pwrStageTime k) (fuToTime96 x.now) else x).get o = x.get o := by
    intro k hk' x; split
    · exact Device.get_set_ne _ _ (hk k hk')
    · rfl
  have all : ∀ (l : List Nat), (∀ k ∈ l, k < 5) → ∀ x : Device,
      (x.each l (fun k x => if bitAt (x.get Reg.pwrBringup) k ∧ x.get (Reg.pwrStageTime k) = 0 then x.set (Reg.pwrStageTime k) (fuToTime96 x.now) else x)).get o = x.get o := by
    intro l
    induction l with
    | nil => intros; rfl
    | cons a r ih =>
      intro hl x
      exact (ih (fun k hk => hl k (List.mem_cons_of_mem _ hk)) _).trans (one a (hl a List.mem_cons_self) x)
  exact all _ (fun k hk => List.mem_range.mp hk) d

theorem Device.endLimited_get (d : Device) (o : Obj) : d.endLimited.get o = d.get o := by
  unfold Device.endLimited; split
  · exact Device.get_of_dict (Device.keepSessions_dict _ _) o
  · rfl

theorem Device.follow_get (h : followsByItself o.ref = false) (d : Device) : d.follow.get o = d.get o := by
  unfold Device.follow
  have e : ∀ x : Device, (x.each [0, 1, 2] (fun k x => x.sweepFollow k)) = ((x.sweepFollow 0).sweepFollow 1).sweepFollow 2 := fun _ => rfl
  rw [e, Device.sweepFollow_get h (by omega), Device.sweepFollow_get h (by omega), Device.sweepFollow_get h (by omega),
    Device.calFollow_get h (by omega), Device.calFollow_get h (by omega), Device.biasFollow_get h, Device.endLimited_get]

theorem Device.status_get (h : followsByItself o.ref = false) (d : Device) : d.status.get o = d.get o := by
  have h1 : o.ref ≠ Reg.pwrBringup.ref := followsByItself_listed h (by decide)
  have h2 : o.ref ≠ Reg.fecPoolLoad.ref := followsByItself_listed h (by decide)
  have h3 : o.ref ≠ Reg.schedPending.ref := followsByItself_listed h (by decide)
  have h4 : o.ref ≠ Reg.eopSessions.ref := followsByItself_listed h (by decide)
  have h5 : o.ref ≠ Reg.timePullLeft.ref := followsByItself_listed h (by decide)
  have h6 : o.ref ≠ Reg.timeOutDriving.ref := followsByItself_listed h (by decide)
  unfold Device.status; dsimp only
  rw [Device.get_set_ne _ _ h1, Device.get_set_ne _ _ h6, Device.get_setI_ne _ _ h5, Device.get_set_ne _ _ h4, Device.get_set_ne _ _ h3,
    Device.get_set_ne _ _ h2, Device.stageTimes_get h, Device.get_set_ne _ _ h1]

theorem Device.setCgState_get {n : Nat} (h : o.ref ≠ (Reg.secCgState n).ref) (d : Device) (st : Nat) : (d.setCgState n st).get o = d.get o := by
  unfold Device.setCgState; dsimp only
  repeat' split
  all_goals exact Device.get_set_ne d st h

theorem Device.refreshCg_get (h : followsByItself o.ref = false) (d : Device) : d.refreshCg.get o = d.get o := by
  have h1 : o.ref ≠ Reg.secOverSlots.ref := followsByItself_listed h (by decide)
  have all : ∀ (f : Nat → Nat) (l : List Nat), (∀ k ∈ l, k < 128) → ∀ x : Device,
      (x.each l (fun n x => x.setCgState n (f n))).get o = x.get o := by
    intro f l
    induction l with
    | nil => intros; rfl
    | cons a r ih =>
      intro hl x
      exact (ih (fun k hk => hl k (List.mem_cons_of_mem _ hk)) _).trans (Device.setCgState_get (followsByItself_cg h (hl a List.mem_cons_self)) _ _)
  unfold Device.refreshCg; dsimp only
  rw [Device.get_set_ne _ _ h1]
  exact all _ _ (fun k hk => List.mem_range.mp hk) d

theorem Device.followCg_get (h : followsByItself o.ref = false) (d : Device) : d.followCg.get o = d.get o := by
  unfold Device.followCg; split
  · rfl
  · exact Device.refreshCg_get h d

/-- Settling leaves every object that does not follow by itself. -/
theorem Device.settle_get (h : followsByItself o.ref = false) (d : Device) : d.settle.get o = d.get o :=
  (Device.followCg_get h _).trans ((Device.status_get h _).trans (Device.follow_get h _))

/-! ### After a command -/

/-- Every meaning answers the state after its effect. -/
theorem onDev_eq (s : State) (f : Device → Device) : onDev s f = .next (s.after (f s.fresh)) := rfl

@[simp] theorem State.after_pending (s : State) (d : Device) : (s.after d).pending = s.pending := rfl

/-- An object that does not follow by itself reads after a command as its effect left it. -/
theorem State.after_get (s : State) (d : Device) (h : followsByItself o.ref = false) : (s.after d).dev.get o = d.get o := by
  show (d.settle.changes s.dev).get o = d.get o
  rw [Device.changes_get, Device.settle_get h]

/-- What neither settling nor notices touch is after a command as its effect left it. -/
theorem State.after_unsettled (s : State) (d : Device) : (s.after d).dev.unsettled = d.unsettled :=
  (Device.unsettled_of_unnoted (Device.unnoted_of_unsaid (Device.changes_unsaid d.settle s.dev))).trans (Device.settle_unsettled d)

@[simp] theorem State.after_doms (s : State) (d : Device) : (s.after d).dev.doms = d.doms := by
  have h := congrArg Device.doms (State.after_unsettled s d); exact h
@[simp] theorem State.after_now (s : State) (d : Device) : (s.after d).dev.now = d.now := by
  have h := congrArg Device.now (State.after_unsettled s d); exact h
@[simp] theorem State.after_phase (s : State) (d : Device) : (s.after d).dev.phase = d.phase := by
  have h := congrArg Device.phase (State.after_unsettled s d); exact h
@[simp] theorem State.after_resources (s : State) (d : Device) : (s.after d).dev.resources = d.resources := by
  have h := congrArg Device.resources (State.after_unsettled s d); exact h
@[simp] theorem State.after_deferred (s : State) (d : Device) : (s.after d).dev.deferred = d.deferred := by
  have h := congrArg Device.deferred (State.after_unsettled s d); exact h
@[simp] theorem State.after_sched (s : State) (d : Device) : (s.after d).dev.sched = d.sched := by
  have h := congrArg Device.sched (State.after_unsettled s d); exact h
@[simp] theorem State.after_fab (s : State) (d : Device) : (s.after d).dev.fab = d.fab := by
  have h := congrArg Device.fab (State.after_unsettled s d); exact h
@[simp] theorem State.after_framers (s : State) (d : Device) : (s.after d).dev.framers = d.framers := by
  have h := congrArg Device.frm (State.after_unsettled s d); exact h
@[simp] theorem State.after_rx (s : State) (d : Device) : (s.after d).dev.rx = d.rx := by
  have h := congrArg Device.rx (State.after_unsettled s d); exact h
@[simp] theorem State.after_tx (s : State) (d : Device) : (s.after d).dev.tx = d.tx := by
  have h := congrArg Device.tx (State.after_unsettled s d); exact h
@[simp] theorem State.after_fec (s : State) (d : Device) : (s.after d).dev.fec = d.fec := by
  have h := congrArg Device.fec (State.after_unsettled s d); exact h
@[simp] theorem State.after_hub (s : State) (d : Device) : (s.after d).dev.hub = d.hub := by
  have h := congrArg Device.hub (State.after_unsettled s d); exact h
@[simp] theorem State.after_pkt (s : State) (d : Device) : (s.after d).dev.pkt = d.pkt := by
  have h := congrArg Device.pkt (State.after_unsettled s d); exact h
@[simp] theorem State.after_itla (s : State) (d : Device) : (s.after d).dev.itla = d.itla := by
  have h := congrArg Device.itla (State.after_unsettled s d); exact h
@[simp] theorem State.after_aspi (s : State) (d : Device) : (s.after d).dev.aspi = d.aspi := by
  have h := congrArg Device.aspi (State.after_unsettled s d); exact h
@[simp] theorem State.after_store (s : State) (d : Device) : (s.after d).dev.store = d.store := by
  have h := congrArg Device.store (State.after_unsettled s d); exact h
@[simp] theorem State.after_twin (s : State) (d : Device) : (s.after d).dev.twin = d.twin := by
  have h := congrArg Device.twin (State.after_unsettled s d); exact h
@[simp] theorem State.after_mem (s : State) (d : Device) : (s.after d).dev.mem = d.mem := by
  have h := congrArg Device.mem (State.after_unsettled s d); exact h
@[simp] theorem State.after_tim (s : State) (d : Device) : (s.after d).dev.tim = d.tim := by
  have h := congrArg Device.tim (State.after_unsettled s d); exact h
theorem State.after_sec (s : State) (d : Device) : { (s.after d).dev.sec with ended := [] } = { d.sec with ended := [] } := by
  have h := congrArg Device.sec (State.after_unsettled s d); exact h
@[simp] theorem State.after_lane (s : State) (d : Device) : (s.after d).dev.lane = d.lane := by
  have h := congrArg Device.lane (State.after_unsettled s d); exact h
@[simp] theorem State.after_pwr (s : State) (d : Device) : (s.after d).dev.pwr = d.pwr := by
  have h := congrArg Device.pwr (State.after_unsettled s d); exact h

end Sys2Proof.Machine
end

