-- ==== Sys2Proof/Laws/Keeps.lean ====
section
/-! SUPPORT. Frames of the shared operations: which objects and which parts of the device each of them may change. A command's frame is the chain of
its operations' frames. -/

namespace Sys2Proof.Machine

theorem samePart_refl (d : Device) (p : Part) : samePart d d p := by
  cases p <;> simp [samePart]

theorem samePart_trans {a b c : Device} {p : Part} (h : samePart a b p) (k : samePart b c p) : samePart a c p := by
  cases p <;> simp only [samePart] at * <;> (try exact k.trans h)
  · refine ⟨k.1.trans h.1, ?_⟩
    have g := h.1
    rcases h.2 with h | h <;> rcases k.2 with k | k <;> omega
  · obtain ⟨h1, h2, h3, h4, h5, h6⟩ := h
    obtain ⟨k1, k2, k3, k4, k5, k6⟩ := k
    exact ⟨k1.trans h1, k2.trans h2, k3.trans h3, k4.trans h4, k5.trans h5, k6.trans h6⟩

namespace Device

variable {d e f : Device} {refs : List Nat} {parts : List Part}

theorem keeps_refl (d : Device) (refs : List Nat) (parts : List Part) : d.keeps d refs parts := ⟨fun _ _ => rfl, fun _ _ => samePart_refl _ _⟩

theorem keeps_trans (h : d.keeps e refs parts) (k : e.keeps f refs parts) : d.keeps f refs parts :=
  ⟨fun o ho => (k.1 o ho).trans (h.1 o ho), fun p hp => samePart_trans (h.2 p hp) (k.2 p hp)⟩

/-- What an operation may change more narrowly. -/
theorem keeps_mono {r' : List Nat} {p' : List Part} (h : d.keeps e refs parts) (hr : ∀ x ∈ refs, x ∈ r') (hp : ∀ x ∈ parts, x ∈ p') : d.keeps e r' p' := by
  refine ⟨fun o ho => h.1 o ?_, fun p hq => h.2 p ?_⟩
  · simp only [List.contains_eq_mem, decide_eq_false_iff_not] at *; exact fun x => ho (hr _ x)
  · simp only [List.contains_eq_mem, decide_eq_false_iff_not] at *; exact fun x => hq (hp _ x)

/-- The same dictionary and the same parts but those named. -/
theorem keeps_of_dict (hd : e.dict = d.dict) (hp : ∀ p : Part, parts.contains p = false → samePart d e p) : d.keeps e refs parts :=
  ⟨fun o _ => get_of_dict hd o, hp⟩

/-- Values that the parts do not hold may change freely. -/
theorem samePart_of_unnoted (h : e.unnoted = d.unnoted) (p : Part) : samePart d e p := by
  have k : ∀ {β : Type} (g : Device → β), g e.unnoted = g d.unnoted := fun g => congrArg g h
  cases p <;> simp only [samePart]
  · exact k Device.doms
  · exact ⟨k (·.twin.gapEnd), .inl (k Device.now)⟩
  · exact k Device.phase
  · exact k Device.resources
  · exact k Device.deferred
  · exact ⟨k (·.sched.actions), k (·.sched.waiting), k (·.sched.bundles), k (·.sched.step), k (·.sched.nextHandle), k (·.sched.nextBundle)⟩
  · exact k Device.fab
  · exact k Device.frm
  · exact k Device.rx
  · exact k Device.tx
  · exact k Device.fec
  · exact k Device.hub
  · exact k Device.pkt
  · exact k Device.itla
  · exact k Device.aspi
  · exact k Device.store
  · exact k (fun x => { x.twin with journal := [] })
  · exact k (·.twin.journal)
  · exact k Device.mem
  · exact k Device.tim
  · exact k (fun x => { x.sec with ended := [] })
  · exact k Device.lane
  · exact k Device.pwr

/-! ### Objects -/

theorem set_keeps (d : Device) (o : Obj) (v : Nat) (h : o.ref ∈ refs) : d.keeps (d.set o v) refs parts := by
  refine ⟨fun p hp => get_set_ne _ _ ?_, fun p _ => samePart_of_unnoted rfl p⟩
  simp only [List.contains_eq_mem, decide_eq_false_iff_not] at hp; exact fun x => hp (x ▸ h)

theorem setI_keeps (d : Device) (o : Obj) (v : Int) (h : o.ref ∈ refs) : d.keeps (d.setI o v) refs parts := set_keeps d o _ h

theorem setBit_keeps (d : Device) (o : Obj) (k : Nat) (b : Bool) (h : o.ref ∈ refs) : d.keeps (d.setBit o k b) refs parts := set_keeps d o _ h

theorem count_keeps (d : Device) (o : Obj) (n : Nat) (h : o.ref ∈ refs) : d.keeps (d.count o n) refs parts := by
  refine ⟨fun p hp => get_count_ne _ _ ?_, fun p _ => samePart_of_unnoted (count_unnoted d o n) p⟩
  simp only [List.contains_eq_mem, decide_eq_false_iff_not] at hp; exact fun x => hp (x ▸ h)

theorem bump_keeps (d : Device) (o : Obj) (h : o.ref ∈ refs) : d.keeps (d.bump o) refs parts := count_keeps d o 1 h

theorem stale_keeps (d : Device) (h : Reg.schedStaleCount.ref ∈ refs) : d.keeps d.stale refs parts := bump_keeps d _ h

theorem send_keeps (d : Device) (o : Out) : d.keeps (d.send o) refs parts := keeps_of_dict rfl (fun p _ => samePart_of_unnoted rfl p)

theorem setDom_keeps (d : Device) (r : Nat) (bs : List Nat) (h : Part.stored ∈ parts) : d.keeps (d.setDom r bs) refs parts := by
  refine keeps_of_dict rfl (fun p hp => ?_)
  cases p <;> first | (simp only [List.contains_eq_mem, decide_eq_false_iff_not] at hp; exact absurd h hp) | simp [samePart, framers, setDom]

/-- An event takes its number. -/
theorem takeSeq_keeps (d : Device) (h : Reg.schedLastSeq.ref ∈ refs) : d.keeps d.takeSeq refs parts := by
  refine ⟨fun p hp => get_takeSeq_ne _ ?_, fun p _ => ?_⟩
  · simp only [List.contains_eq_mem, decide_eq_false_iff_not] at hp; exact fun x => hp (x ▸ h)
  · unfold takeSeq; split <;> cases p <;> simp [samePart, framers, set]

/-- What the control core handles comes after a gap: device time alone may move, to its end. -/
theorem afterGap_keeps (d : Device) : d.keeps d.afterGap refs parts := by
  refine keeps_of_dict rfl (fun p _ => ?_)
  cases p <;> simp [samePart, framers, afterGap, moveTo]

theorem coreSeq_keeps (d : Device) (h : Reg.schedLastSeq.ref ∈ refs) : d.keeps d.coreSeq refs parts := keeps_trans (afterGap_keeps d) (takeSeq_keeps _ h)

theorem each_keeps' {α : Type} (l : List α) (g : α → Device → Device) (h : ∀ a ∈ l, ∀ x : Device, x.keeps (g a x) refs parts) (d : Device) :
    d.keeps (d.each l g) refs parts := by
  induction l generalizing d with
  | nil => exact keeps_refl _ _ _
  | cons a r ih =>
    exact keeps_trans (h a (by simp) d) (ih (fun b hb => h b (by simp [hb])) (g a d))

/-! ### Notices and replies -/

theorem noticeTo_keeps (d : Device) (s : Subscription) (r : Nat) (b : NoticeBody) : d.keeps (d.noticeTo s r b) refs parts :=
  keeps_of_dict (noticeTo_dict d s r b) (fun p _ => samePart_of_unnoted (unnoted_of_unsaid (noticeTo_unsaid d s r b)) p)

theorem addCnt_keeps (d : Device) (b k n : Nat) (h1 : (Reg.telCnt b k).ref ∈ refs) (h2 : (Reg.telCntCtrl b k).ref ∈ refs) :
    d.keeps (d.addCnt b k n) refs parts := by
  unfold addCnt; dsimp only; split
  · exact keeps_trans (set_keeps _ _ _ h1) (setBit_keeps _ _ _ _ h2)
  · exact set_keeps _ _ _ h1

/-- An event of a block changes its counters alone (R448). -/
theorem countEvent_keeps (d : Device) (b ev i : Nat) (h : ∀ x ∈ eventCounters b, x ∈ refs) : d.keeps (d.countEvent b ev i) refs parts := by
  unfold countEvent; split
  · exact keeps_refl _ _ _
  · rename_i n hn
    have hm : ∀ k ∈ List.range 8, (Reg.telCnt n k).ref ∈ refs ∧ (Reg.telCntCtrl n k).ref ∈ refs := fun k hk =>
      ⟨h _ (by unfold eventCounters; rw [hn]; exact List.mem_flatMap.mpr ⟨k, hk, by simp⟩),
       h _ (by unfold eventCounters; rw [hn]; exact List.mem_flatMap.mpr ⟨k, hk, by simp⟩)⟩
    refine each_keeps' _ _ (fun k hk x => ?_) d
    split
    · exact addCnt_keeps _ _ _ _ (hm k hk).1 (hm k hk).2
    · exact keeps_refl _ _ _

theorem blockNoticed_keeps (d : Device) (r : Nat) (h : ∀ x ∈ noticed r, x ∈ refs) : d.keeps (d.blockNoticed r) refs parts := by
  unfold blockNoticed; dsimp only; split
  · exact keeps_refl _ _ _
  · refine keeps_trans (e := if d.get (blkLastSeq (blockOf (r / 256))) = d.sched.cur then d else d.countEvent (blockOf (r / 256)) 2 0) ?_
      (keeps_trans (bump_keeps _ _ (h _ (by simp [noticed]))) (set_keeps _ _ _ (h _ (by simp [noticed]))))
    split
    · exact keeps_refl _ _ _
    · exact countEvent_keeps _ _ _ _ (fun x hx => h x (by simp [noticed, hx]))

theorem notice_keeps (d : Device) (o : Obj) (l : List Nat) (h : ∀ x ∈ noticed o.ref, x ∈ refs) : d.keeps (d.notice o l) refs parts := by
  unfold notice
  exact keeps_trans (blockNoticed_keeps d _ h) (each_keeps' _ _ (fun a _ x => noticeTo_keeps x a _ _) _)

theorem noticeEither_keeps (d : Device) (r : Nat) (l : List Nat) (h : ∀ x ∈ noticed Reg.schedList.ref, x ∈ refs) :
    d.keeps (d.noticeEither r l) refs parts := by
  unfold noticeEither; dsimp only
  exact keeps_trans (blockNoticed_keeps d _ h) (each_keeps' _ _ (fun a _ x => noticeTo_keeps x a _ _) _)

theorem keepSessions_keeps (d : Device) (p : Session → Bool) : d.keeps (d.keepSessions p) refs parts :=
  keeps_of_dict (keepSessions_dict d p) (fun x _ => samePart_of_unnoted (unnoted_of_unsaid (keepSessions_unsaid d p)) x)

theorem keepTransfers_keeps (d : Device) (p : Transfer → Bool) : d.keeps (d.keepTransfers p) refs parts :=
  keeps_of_dict rfl (fun x _ => samePart_of_unnoted rfl x)

theorem emit_keeps (d : Device) (r : Resp) : d.keeps (d.emit r) refs parts :=
  keeps_of_dict (emit_dict d r) (fun p _ => samePart_of_unnoted (unnoted_of_unsaid (emit_unsaid d r)) p)

theorem reply_keeps (d : Device) (q : Req) (svc : Nat) (r : Reply) : d.keeps (d.reply q svc r) refs parts :=
  keeps_of_dict (reply_dict d q svc r) (fun p _ => samePart_of_unnoted (unnoted_of_unsaid (reply_unsaid d q svc r)) p)

/-! ### Accepted writes -/

theorem journalRec_keeps (d : Device) (r : MirrorRec) (h : Part.journal ∈ parts) : d.keeps (d.journalRec r) refs parts := by
  unfold journalRec; split
  · refine keeps_of_dict rfl (fun p hp => ?_)
    cases p <;> first | (simp only [List.contains_eq_mem, decide_eq_false_iff_not] at hp; exact absurd h hp) | simp [samePart, framers]
  · exact keeps_refl _ _ _

theorem journal_keeps (d : Device) (r v : Nat) (h : Part.journal ∈ parts) : d.keeps (d.journal r v) refs parts := by
  unfold journal; split
  · exact journalRec_keeps _ _ h
  · exact keeps_refl _ _ _

theorem store_keeps (d : Device) (x : Store) (h : Part.store ∈ parts) : d.keeps { d with store := x } refs parts := by
  refine keeps_of_dict rfl (fun p hp => ?_)
  cases p <;> first | (simp only [List.contains_eq_mem, decide_eq_false_iff_not] at hp; exact absurd h hp) | simp [samePart, framers]

theorem storeScalar_keeps (d : Device) (r v z : Nat) (h : Part.store ∈ parts)
    (hr : ∀ x ∈ [Reg.dictRecords.ref, Reg.dictUnstored.ref, Reg.dictStoreState.ref], x ∈ refs) : d.keeps (d.storeScalar r v z) refs parts := by
  unfold storeScalar; split
  · exact store_keeps _ _ h
  · split
    · exact keeps_refl _ _ _
    · split
      · exact keeps_trans (store_keeps d _ h) (set_keeps _ _ _ (hr _ (by simp)))
      · exact keeps_trans (bump_keeps d _ (hr _ (by simp))) (setBit_keeps _ _ _ _ (hr _ (by simp)))

/-- An accepted write of an object: the object, what `written` names, the store and the journal. -/
theorem putValue_keeps (d : Device) (o : Obj) (v : Nat) (ho : o.ref ∈ refs) (hr : ∀ x ∈ written o.ref, x ∈ refs) (hs : Part.store ∈ parts)
    (hj : Part.journal ∈ parts) : d.keeps (d.putValue o v) refs parts := by
  unfold putValue; dsimp only
  have h1 : d.keeps ((d.set o (v % 2 ^ o.width)).journal o.ref (v % 2 ^ o.width)) refs parts :=
    keeps_trans (set_keeps d o _ ho) (journal_keeps _ _ _ hj)
  split
  · have h2 := keeps_trans h1 (storeScalar_keeps _ o.ref (v % 2 ^ o.width) o.dflt hs (fun x hx => hr x (by
      simp only [List.mem_cons, List.not_mem_nil, or_false] at hx; rcases hx with h | h | h <;> simp [written, h])))
    split
    · exact h2
    · exact keeps_trans h2 (set_keeps _ _ _ (hr _ (by simp [written])))
  · exact h1

theorem storeScalar_get (d : Device) (r v z : Nat) {o : Obj} (h : [Reg.dictRecords.ref, Reg.dictUnstored.ref, Reg.dictStoreState.ref].contains o.ref = false) :
    (d.storeScalar r v z).get o = d.get o :=
  (storeScalar_keeps (refs := [Reg.dictRecords.ref, Reg.dictUnstored.ref, Reg.dictStoreState.ref]) (parts := [.store]) d r v z (by simp)
    (fun _ hx => hx)).1 o h

/-- The object written reads as the value, cut to its width. -/
theorem putValue_get_same (d : Device) (o : Obj) (v : Nat) (h : (written o.ref).contains o.ref = false) :
    (d.putValue o v).get o = v % 2 ^ o.width := by
  have hj : ((d.set o (v % 2 ^ o.width)).journal o.ref (v % 2 ^ o.width)).get o = v % 2 ^ o.width := by
    rw [(journal_keeps (refs := []) (parts := [.journal]) _ _ _ (by simp)).1 o rfl]
    simp
  simp only [written, List.contains_eq_mem, List.mem_cons, List.not_mem_nil, or_false, not_or, decide_eq_false_iff_not] at h
  have hs : ((((d.set o (v % 2 ^ o.width)).journal o.ref (v % 2 ^ o.width))).storeScalar o.ref (v % 2 ^ o.width) o.dflt).get o = v % 2 ^ o.width := by
    rw [storeScalar_get _ _ _ _ (by simp [h]), hj]
  unfold putValue; dsimp only
  split
  · split
    · exact hs
    · rw [get_set_ne _ _ h.2.2.2.2, hs]
  · exact hj

/-- Every other object that an accepted write does not name reads as before. -/
theorem putValue_get_ne (d : Device) {o p : Obj} (v : Nat) (h : (o.ref :: written o.ref).contains p.ref = false) : (d.putValue o v).get p = d.get p :=
  (putValue_keeps (refs := o.ref :: written o.ref) (parts := [.store, .journal]) d o v (by simp) (fun _ hx => by simp [hx]) (by simp) (by simp)).1 p h

theorem withholdAs_keeps (d : Device) (q : Req) (svc r : Nat) (x : Device × Reply) : x.1.keeps (d.withholdAs q svc r x).1 refs parts := by
  unfold withholdAs; split
  · split
    · exact keeps_of_dict rfl (fun p _ => samePart_of_unnoted rfl p)
    · exact keeps_refl _ _ _
  · exact keeps_refl _ _ _

theorem withhold_keeps (d : Device) (q : Req) (r : Nat) (x : Device × Reply) : x.1.keeps (d.withhold q r x).1 refs parts := withholdAs_keeps d q 2 r x

/-! ### The schedule -/

theorem sched_keeps (d : Device) (x : Sched) (h : Part.schedule ∈ parts) : d.keeps { d with sched := x } refs parts := by
  refine keeps_of_dict rfl (fun p hp => ?_)
  cases p <;> first | (simp only [List.contains_eq_mem, decide_eq_false_iff_not] at hp; exact absurd h hp) | simp [samePart, framers]

/-- A host-created action whose checks pass enters the schedule under the next handle; nothing wakes for it (R24 to R27). -/
theorem schedule_accepts (d : Device) (a : Action) (hv : time96Valid a.bake = true) (hf : bakeFu a ≤ d.now + d.get Reg.schedMaxAhead * fuSec)
    (hp : d.hostPlaceFree a = true) (hn : a.needs = []) (hl : d.isLate { a with acceptAt := d.now, hostPlace := true } = false ∨ a.late1 = true) :
    d.schedule a = ((d.enter { a with acceptAt := d.now, hostPlace := true }).1, .ok (beBytes 4 d.sched.nextHandle)) := by
  have hw : d.wakeFor { a with acceptAt := d.now, hostPlace := true } = (d, { a with acceptAt := d.now, hostPlace := true }) := by
    unfold wakeFor; rw [if_neg]; unfold mustWake; simp [hn]
  have hnl : ¬(d.isLate { a with acceptAt := d.now, hostPlace := true } && !a.late1) = true := by rcases hl with h | h <;> simp [h]
  unfold schedule
  simp only [hv, Bool.not_true, Bool.false_eq_true, if_false, Nat.not_lt.mpr hf, decide_false, hp, hw]
  rw [if_neg hnl, if_neg hnl]; rfl

theorem enter_keeps (d : Device) (a : Action) (h : Part.schedule ∈ parts) : d.keeps (d.enter a).1 refs parts := sched_keeps d _ h

/-- A write that needs no sleeping resource takes effect now (R477). -/
theorem whenReady_nil (d : Device) (q : Req) (svc r v : Nat) (data : List Nat) (f : Device → Device × Reply) : d.whenReady q svc r v data [] f = f d := rfl

/-! ### A request that is executed -/

theorem countVlan_eop (d : Device) (q : Req) : d.countVlan q = { d with eop := { d.eop with vlanCount := (d.countVlan q).eop.vlanCount } } := by
  unfold countVlan; split <;> rfl

theorem countVlan_unsaid (d : Device) (q : Req) : (d.countVlan q).unsaid = d.unsaid := by unfold countVlan; split <;> rfl

theorem countVlan_keeps (d : Device) (q : Req) : d.keeps (d.countVlan q) refs parts := by
  refine keeps_of_dict ?_ (fun p _ => samePart_of_unnoted (unnoted_of_unsaid (countVlan_unsaid d q)) p)
  unfold countVlan; split <;> rfl

theorem found_keeps (d : Device) (q : Req) (h : Reg.schedLastSeq.ref ∈ refs) : d.keeps (d.found q) refs parts := by
  have h1 : d.keeps (d.countVlan q).coreSeq refs parts := keeps_trans (countVlan_keeps d q) (coreSeq_keeps _ h)
  unfold found; dsimp only; split
  · exact h1
  · split
    · exact h1
    · exact keeps_trans h1 (keeps_of_dict rfl (fun p _ => samePart_of_unnoted rfl p))

theorem countVlan_sessionOf (d : Device) (q r : Req) : (d.countVlan q).sessionOf r = d.sessionOf r := by
  unfold countVlan; split <;> rfl

theorem takeSeq_eop (d : Device) : d.takeSeq.eop = d.eop := by
  unfold takeSeq; split <;> rfl

theorem takeSeq_phase (d : Device) : d.takeSeq.phase = d.phase := by unfold takeSeq; split <;> rfl
theorem takeSeq_twin (d : Device) : d.takeSeq.twin = d.twin := by unfold takeSeq; split <;> rfl

theorem takeSeq_sessionOf (d : Device) (q : Req) : d.takeSeq.sessionOf q = d.sessionOf q := by unfold sessionOf; rw [takeSeq_eop]

theorem coreSeq_sessionOf (d : Device) (q : Req) : d.coreSeq.sessionOf q = d.sessionOf q := takeSeq_sessionOf _ _
theorem coreSeq_phase (d : Device) : d.coreSeq.phase = d.phase := takeSeq_phase _

theorem takeSeq_sec (d : Device) : d.takeSeq.sec = d.sec := by unfold takeSeq; split <;> rfl

/-- Whether a tagged message passes does not depend on its number, nor on the instant. -/
theorem coreSeq_tagPasses (d : Device) (s : Session) (q : Req) : d.coreSeq.tagPasses s q = d.tagPasses s q := by
  have hg : ∀ o : Obj, o.ref ≠ Reg.schedLastSeq.ref → d.coreSeq.get o = d.get o := fun o ho => get_takeSeq_ne d.afterGap ho
  have h1 : d.coreSeq.authKey s.level = d.authKey s.level := by
    unfold authKey pair
    rw [hg (Reg.eopAuthPair (if s.level = 3 then 1 else 0)) (by split <;> decide), show d.coreSeq.sec = d.sec from takeSeq_sec _]
  have h2 : d.coreSeq.unitBit = d.unitBit := by
    unfold unitBit; rw [hg Reg.twinUnit (by decide), show d.coreSeq.twin = d.twin from takeSeq_twin _]
  unfold tagPasses tagRight eopTag; dsimp only; rw [h1, h2]

theorem countVlan_tagPasses (d : Device) (s : Session) (q : Req) : (d.countVlan q).tagPasses s q = d.tagPasses s q := by
  unfold countVlan; split <;> rfl

theorem countVlan_phase (d : Device) (q : Req) : (d.countVlan q).phase = d.phase := by unfold countVlan; split <;> rfl

/-- A session's COUNTER moved up leaves which session a request names, and all else about it. -/
theorem sessionOf_moved (l : List Session) (q : Req) (n c : Nat) :
    (l.map (fun x : Session => if x.num = n then { x with lastIn := max x.lastIn c } else x)).find?
        (fun s => s.num == q.session.toNat && s.transport == q.transport.val && s.addr == q.addr) =
      (l.find? (fun s => s.num == q.session.toNat && s.transport == q.transport.val && s.addr == q.addr)).map
        (fun x : Session => if x.num = n then { x with lastIn := max x.lastIn c } else x) := by
  rw [List.find?_map]; congr 2; funext x; simp only [Function.comp]; split <;> rfl

theorem found_sessionOf (d : Device) (q : Req) (s : Session) (hs : d.sessionOf q = some s) (hq : q.session ≠ 0) :
    (d.found q).sessionOf q = some { s with lastIn := max s.lastIn q.counter.toNat } := by
  have h0 : (d.countVlan q).coreSeq.sessionOf q = some s := by rw [coreSeq_sessionOf, countVlan_sessionOf, hs]
  unfold found; dsimp only; rw [if_neg hq, h0]; dsimp only
  have h1 := sessionOf_moved ((d.countVlan q).coreSeq).eop.sessions q s.num q.counter.toNat
  unfold sessionOf at h0 ⊢; dsimp only
  rw [h1, h0]; simp

/-- A request that the device executes: the service runs in the device it finds, at the request's privilege, and its answer leaves. -/
theorem serve_granted {d : Device} {q : Req} {level : Nat} (h : d.grants q level = true) (svc : Nat) (w : Bool) (ref : Nat)
    (f : Nat → Device → Device × Reply) :
    d.serve q svc level w ref f = (f (d.privilege q) (d.found q)).1.reply q svc (f (d.privilege q) (d.found q)).2 := by
  simp only [grants, Bool.and_eq_true, Bool.not_eq_true', decide_eq_true_eq, beq_iff_eq] at h
  obtain ⟨⟨⟨⟨⟨hp, hu⟩, hv⟩, hw⟩, hr⟩, hs⟩ := h
  have hph : ((d.countVlan q).coreSeq).phase = .running := by rw [coreSeq_phase, countVlan_phase, hp]
  unfold serve
  rw [hu, hv]
  simp only [Bool.false_eq_true, if_false]
  rw [if_neg (by omega), if_neg (by rw [hr]; decide)]
  rw [hph]
  simp only [show (Phase.running == Phase.recovery) = false from rfl, Bool.false_and, Bool.false_eq_true, if_false]
  unfold sessionLets at hs
  by_cases hq : q.session = 0
  · rw [if_pos hq] at hs
    have hl : level = 0 := by simpa using hs
    subst hl
    simp [vet, hq, repeated, found, privilege]
  · rw [if_neg hq] at hs
    cases hso : d.sessionOf q with
    | none => rw [hso] at hs; simp at hs
    | some s =>
      rw [hso] at hs
      simp only [Option.any_some, Bool.and_eq_true, Bool.not_eq_true', decide_eq_true_eq] at hs
      obtain ⟨⟨⟨hlim, htag⟩, hlev⟩, hc⟩ := hs
      have h0 : (d.countVlan q).coreSeq.sessionOf q = some s := by rw [coreSeq_sessionOf, countVlan_sessionOf, hso]
      have he : (d.countVlan q).coreSeq.vet q = (d.found q, .ok (s.level, false)) := by
        have ht : (d.countVlan q).coreSeq.tagPasses s q = true := by rw [coreSeq_tagPasses, countVlan_tagPasses, htag]
        unfold vet found; simp only [hq, if_false, h0, ht, if_true, hlim]
      have hrep : (d.found q).repeated q = none := by
        unfold repeated; rw [if_neg hq, found_sessionOf d q s hso hq]; dsimp only
        rw [List.find?_eq_none]; intro r hr; rw [List.all_eq_true] at hc; simpa using hc r hr
      have hpe : (d.found q).phase = .running := by
        have := (found_keeps (refs := [Reg.schedLastSeq.ref]) (parts := []) d q (by simp)).2 .phase rfl
        exact this.trans hp
      have hpr : d.privilege q = s.level := by unfold privilege; rw [if_neg hq, hso]; rfl
      rw [he]; dsimp only; rw [hrep]; dsimp only
      rw [hpr]
      simp [Nat.not_lt.mpr hlev]

/-- A plain write that the device executes takes effect: no check before the owning chapter's stands against it. -/
theorem plainWriteR_granted {d : Device} {q : Req} {level : Nat} {o : Obj} {r : Range} {v : Val} (h : d.writes q level o.ref = true) (hl : level ≠ 0)
    (hv : valueCheck o r v = none) (f : Device → Device × Reply) : (d.found q).plainWriteR o r q v f = f (d.found q) := by
  simp only [writes, Bool.and_eq_true, beq_iff_eq] at h
  obtain ⟨⟨hg, hb⟩, hro⟩ := h
  have hk := found_keeps (refs := [Reg.schedLastSeq.ref]) (parts := []) d q (by simp)
  have hr : (d.found q).roleCheck o.ref = none := by
    have h1 : (d.found q).roleCheck o.ref = d.roleCheck o.ref := by
      have ht : ∀ p : Obj, p.ref ≠ Reg.schedLastSeq.ref → (d.found q).get p = d.get p := fun p hp => hk.1 p (by simpa using hp)
      have hw := hk.2 .twin rfl
      have hd := hk.2 .stored rfl
      simp only [samePart] at hw hd
      have ha : (d.found q).twin.applying = d.twin.applying := congrArg (·.applying) hw
      unfold roleCheck standby mirrored unitLocal dom
      rw [ht Reg.twinRole (by decide), ht Reg.twinUnit (by decide), congrArg (·.enabled) hw, ha, hd]
    rw [h1]; simpa using hro
  have hlc : (d.found q).limitedCheck q o.ref v.raw = none := by
    simp only [grants, Bool.and_eq_true] at hg
    have hs := hg.2
    unfold sessionLets at hs
    unfold limitedCheck; dsimp only
    by_cases hq : q.session = 0
    · rw [if_pos hq] at hs; exact absurd (by simpa using hs) hl
    · rw [if_neg hq] at hs
      cases hso : d.sessionOf q with
      | none => rw [hso] at hs; simp at hs
      | some s =>
        rw [hso] at hs
        simp only [Option.any_some, Bool.and_eq_true, Bool.not_eq_true'] at hs
        rw [found_sessionOf d q s hso hq]; simp [hs.1.1.1]
  unfold plainWriteR writerCheck
  rw [hr]; dsimp only; rw [hlc]; dsimp only
  rw [if_neg (by simpa using hb), hv]

end Device

/-! ### Commands -/

/-- The frame of a command's effect is the frame of the command. -/
theorem State.leaves_of_keeps {s : State} {e : Device} {refs : List Nat} {parts : List Part} (h : s.fresh.keeps e refs parts) :
    s.leaves (s.after e) refs parts := by
  refine ⟨rfl, fun o ho hf => (State.after_get s e hf).trans (h.1 o ho), fun p hp => ?_⟩
  have k := samePart_trans (show samePart s.dev s.fresh p by cases p <;> simp [samePart, Device.framers, State.fresh]) (h.2 p hp)
  cases p <;> simp only [samePart] at *
  case sec => exact (State.after_sec s e).trans k
  all_goals simpa using k

end Sys2Proof.Machine
end

