-- ==== Sys2Proof/Laws/Says.lean ====
section
/-! SUPPORT. What has left the device, or waits to be read over SPI, is not taken back by what follows in the same command. -/

namespace Sys2Proof.Machine.Device

/-- What leaves, and the EOP service without what ending a session touches. -/
def heard (d : Device) : List Out × Eop := (d.out, { d.eop with sessions := [], subs := [], lost := [], transfers := [] })

/-- From d to e, what was said stays said. -/
def speaks (d e : Device) : Prop := (∀ x ∈ d.out, x ∈ e.out) ∧ ∀ x ∈ d.eop.spiOut, x ∈ e.eop.spiOut

variable {d e f : Device}

theorem says_refl (d : Device) : d.speaks d := ⟨fun _ h => h, fun _ h => h⟩
theorem says_trans (h : d.speaks e) (k : e.speaks f) : d.speaks f := ⟨fun x hx => k.1 x (h.1 x hx), fun x hx => k.2 x (h.2 x hx)⟩
theorem says_of_heard (h : e.heard = d.heard) : d.speaks e := by
  have h1 : e.out = d.out := congrArg Prod.fst h
  have h2 : e.eop.spiOut = d.eop.spiOut := congrArg (fun x : List Out × Eop => x.2.spiOut) h
  exact ⟨fun x hx => h1 ▸ hx, fun x hx => h2 ▸ hx⟩

theorem each_says {α : Type} (l : List α) (g : α → Device → Device) (h : ∀ a, ∀ x : Device, x.speaks (g a x)) (d : Device) : d.speaks (d.each l g) := by
  induction l generalizing d with
  | nil => exact says_refl _
  | cons a r ih => exact says_trans (h a d) (ih (g a d))

theorem send_says (d : Device) (o : Out) : d.speaks (d.send o) := ⟨fun x hx => by simp [send, hx], fun _ h => h⟩
theorem keepSessions_heard (d : Device) (p : Session → Bool) : (d.keepSessions p).heard = d.heard := by
  unfold keepSessions; dsimp only; split <;> rfl
theorem countOut_heard (d : Device) (n : Nat) : (d.countOut n).heard = d.heard := by unfold countOut; rw [keepSessions_heard]; rfl
theorem keepResp_heard (d : Device) (r : Resp) : (d.keepResp r).heard = d.heard := by unfold keepResp; rw [countOut_heard]; rfl

theorem sendLine_says (d : Device) (c leaf : Nat) (l : List Nat) : d.speaks (d.sendLine c leaf l) := by
  have h : d.speaks (({ d with eop := { d.eop with nextMsgId := (d.eop.nextMsgId + 1) % 65536 } } : Device).send (.lineEop c leaf d.eop.nextMsgId)) :=
    ⟨fun x hx => by simp [send, hx], fun _ k => k⟩
  unfold sendLine; dsimp only; split
  · split
    · exact says_trans h (each_says _ (fun w x => x.post c ⟨3, _, false, 0, w⟩) (fun _ _ => says_of_heard rfl) _)
    · exact h
  · exact h

theorem dispatch_says (d : Device) (t a : Nat) (m : Msg) (l : List Nat) : d.speaks (d.dispatch t a m l) := by
  unfold dispatch; split
  · exact ⟨fun _ hx => hx, fun x hx => by simp [hx]⟩
  · dsimp only; split
    · exact says_trans (send_says _ _) (sendLine_says _ _ _ _)
    · exact send_says _ _

/-- A message that is dispatched leaves, or waits to be read over SPI (R409, R410). -/
theorem dispatch_leaves (d : Device) (t a : Nat) (m : Msg) (l : List Nat) :
    .message m ∈ (d.dispatch t a m l).out ∨ m ∈ (d.dispatch t a m l).eop.spiOut := by
  unfold dispatch; split
  · right; simp
  · left; dsimp only; split
    · exact (sendLine_says _ _ _ _).1 _ (by simp [send])
    · simp [send]

theorem noticeTo_says (d : Device) (s : Subscription) (r : Nat) (b : NoticeBody) : d.speaks (d.noticeTo s r b) := by
  unfold noticeTo; dsimp only; split
  · exact says_of_heard rfl
  · have h : d.speaks (({ d with eop := { d.eop with lost := (takeLost s d.eop.lost).2 } } : Device).countOut s.session) :=
      says_of_heard (by rw [countOut_heard]; rfl)
    exact says_trans h (dispatch_says _ _ _ _ _)

theorem changeTo_says (d : Device) (s : Subscription) (r v : Nat) : d.speaks (d.changeTo s r v) := by
  unfold changeTo; split
  · split <;> exact says_of_heard rfl
  · exact says_trans (e := d.putSub { s with spaced := s.spaced ++ [r] }) (says_of_heard rfl) (noticeTo_says _ _ _ _)

theorem changes_says (d : Device) (b : Device) : d.speaks (d.changes b) := by
  unfold changes tell; split
  · exact says_refl _
  · exact each_says _ _ (fun _ x => each_says _ _ (fun _ y => changeTo_says y _ _ _) x) d

theorem set_heard (d : Device) (o : Obj) (v : Nat) : (d.set o v).heard = d.heard := rfl
theorem bump_heard (d : Device) (o : Obj) : (d.bump o).heard = d.heard := by unfold bump count; split <;> rfl

theorem convertSeq_heard (d : Device) (k : Nat) : (d.convertSeq k).heard = d.heard := by unfold convertSeq; dsimp only; split <;> rfl
theorem startSelfCal_heard (d : Device) (w : Conv) : (d.startSelfCal w).heard = d.heard := by unfold startSelfCal; dsimp only; split <;> rfl
theorem chooseWork_heard (d : Device) : d.chooseWork.heard = d.heard := by
  unfold chooseWork; dsimp only
  repeat' split
  all_goals first
    | rfl
    | exact convertSeq_heard _ _
theorem choose_heard (d : Device) (w : Conv) : (d.choose w).heard = d.heard := by
  unfold choose
  repeat' split
  all_goals first
    | rfl
    | exact startSelfCal_heard _ _
    | exact convertSeq_heard _ _
    | exact chooseWork_heard _
theorem workWaits_heard (d : Device) : d.workWaits.heard = d.heard := by
  unfold workWaits; split
  · exact choose_heard _ _
  · rfl
theorem driveBias_says (d b : Device) (l : List Nat) : d.speaks (d.driveBias b l) :=
  each_says _ _ (fun _ x => by
    split
    · exact says_refl _
    · exact send_says _ _) d

theorem biasFollow_says (d : Device) : d.speaks d.biasFollow := by
  unfold biasFollow; dsimp only; split
  · split
    · exact says_refl _
    · refine says_trans (says_of_heard ?_) (driveBias_says _ _ _)
      split
      · exact choose_heard _ _
      · rfl
  · split
    · exact says_refl _
    · exact says_trans (says_of_heard (by rw [workWaits_heard]; rfl)) (driveBias_says _ _ _)
theorem startRun_heard (d : Device) (c k : Nat) : (d.startRun c k).heard = d.heard := by unfold startRun; split <;> rfl
theorem nextRun_heard (d : Device) (c : Nat) : (d.nextRun c).heard = d.heard := by
  unfold nextRun; dsimp only; split
  · exact startRun_heard _ _ _
  · split
    · exact startRun_heard _ _ _
    · rfl
theorem endRun_heard (d : Device) (c : Nat) : (d.endRun c).heard = d.heard := by
  unfold endRun; dsimp only
  rw [nextRun_heard, set_heard, bump_heard]; rfl
theorem endTxRun_heard (d : Device) (c : Nat) : (d.endTxRun c).heard = d.heard := by
  unfold endTxRun; dsimp only; split
  · rw [endRun_heard]; rfl
  · rfl
theorem requestRun_heard (d : Device) (c k : Nat) : (d.requestRun c k).heard = d.heard := by
  unfold requestRun; dsimp only; split
  · exact nextRun_heard _ _
  · rfl
theorem calFollow_heard (d : Device) (c : Nat) : (d.calFollow c).heard = d.heard := by
  unfold calFollow; dsimp only
  repeat' split
  all_goals first
    | rfl
    | (rw [endTxRun_heard]; done)
    | (rw [endTxRun_heard]; rfl)
    | (rw [requestRun_heard]; rfl)
theorem sweepFollow_heard (d : Device) (k : Nat) : (d.sweepFollow k).heard = d.heard := by unfold sweepFollow; split <;> rfl
theorem stageTimes_heard (d : Device) : d.stageTimes.heard = d.heard := by
  unfold stageTimes
  refine each_keeps _ _ heard (fun a x => ?_) d
  split
  · exact set_heard _ _ _
  · rfl
theorem endLimited_heard (d : Device) : d.endLimited.heard = d.heard := by
  unfold endLimited; split
  · exact keepSessions_heard _ _
  · rfl
theorem follow_says (d : Device) : d.speaks d.follow := by
  refine says_trans (says_of_heard (endLimited_heard d)) (says_trans (biasFollow_says _) (says_of_heard ?_))
  unfold follow
  rw [each_keeps _ _ heard (fun _ x => sweepFollow_heard x _), calFollow_heard, calFollow_heard]
theorem status_heard (d : Device) : d.status.heard = d.heard := by
  unfold status; dsimp only
  rw [set_heard, set_heard]; exact stageTimes_heard _

theorem setCgState_heard (d : Device) (n k : Nat) : (d.setCgState n k).heard = d.heard := by
  unfold setCgState; dsimp only
  repeat' split
  all_goals rfl

theorem followCg_heard (d : Device) : d.followCg.heard = d.heard := by
  unfold followCg; split
  · rfl
  · unfold refreshCg; dsimp only
    rw [set_heard]; exact each_keeps _ _ heard (fun _ x => setCgState_heard x _ _) d

theorem settle_says (d : Device) : d.speaks d.settle :=
  says_trans (follow_says d) (says_of_heard ((followCg_heard _).trans (status_heard _)))

/-- An effect's outputs are outputs of the command. -/
theorem after_says (s : State) (d : Device) : d.speaks (s.after d).dev := says_trans (settle_says d) (changes_says _ _)

theorem emit_answers (d : Device) (r : Resp) :
    .message (.resp r (d.respBytes r)) ∈ (d.emit r).out ∨ .resp r (d.respBytes r) ∈ (d.emit r).eop.spiOut := dispatch_leaves _ _ _ _ _

/-- The answer of an executed request leaves. -/
theorem reply_ok_answers (s : State) (d : Device) (q : Req) (svc : Nat) (b : List Nat) : (s.after (d.reply q svc (.ok b))).answers (respOf q svc stSuccess b) := by
  have h := after_says s (d.reply q svc (.ok b))
  rcases emit_answers (d.keepResp (respOf q svc stSuccess b)) (respOf q svc stSuccess b) with k | k
  · exact ⟨_, .inl (h.1 _ k)⟩
  · exact ⟨_, .inr (h.2 _ k)⟩

theorem reply_fail_answers (s : State) (d : Device) (q : Req) (svc : Nat) (e : Err) : (s.after (d.reply q svc (.fail e))).answers (respOf q svc e.status (errBytes e)) := by
  have h := after_says s (d.reply q svc (.fail e))
  rcases emit_answers (d.keepResp (respOf q svc e.status (errBytes e))) (respOf q svc e.status (errBytes e)) with k | k
  · exact ⟨_, .inl (h.1 _ k)⟩
  · exact ⟨_, .inr (h.2 _ k)⟩

/-- What an effect sends leaves with the command. -/
theorem sent_after (s : State) {d : Device} {o : Out} (h : o ∈ d.out) : o ∈ (s.after d).dev.out := (after_says s d).1 _ h

end Sys2Proof.Machine.Device
end

