-- ==== Sys2Proof/Laws/Commands.lean ====
section
/-! SUPPORT. What a command answers: every command gives a next state; a request that is executed runs its service on the device it finds; an executed write runs
its effect there. -/

namespace Sys2Proof.Machine

/-- A command whose meaning is an effect on the device answers the state after that effect. -/
theorem run {o : Host.Outcome State Fault Refusal} {s : State} {f : Device → Device} (h : o = onDev s f) : o = .next (s.after (f s.fresh)) := h.trans (onDev_eq s f)

/-- An executed request: its service's effect, then its answer. -/
theorem run_served {out : Host.Outcome State Fault Refusal} {s : State} {q : Req} {svc level ref : Nat} {w : Bool} {f : Nat → Device → Device × Reply}
    (h : out = onDev s (fun d => d.serve q svc level w ref f)) (hg : s.fresh.grants q level = true) :
    out = .next (s.after ((f (s.fresh.privilege q) (s.fresh.found q)).1.reply q svc (f (s.fresh.privilege q) (s.fresh.found q)).2)) :=
  (run h).trans (by rw [Device.serve_granted hg])

/-- An executed write: the state after its effect; only the response is still to come. -/
theorem run_write {out : Host.Outcome State Fault Refusal} {s : State} {q : Req} {level : Nat} {o : Obj} {r : Range} {v : Val} {g : Device → Device}
    (h : out = onDev s (fun d => d.serve q 2 level true o.ref (fun _ d => d.plainWriteR o r q v (fun d => d.withhold q o.ref (g d, okWrite)))))
    (hw : s.fresh.writes q level o.ref = true) (hl : level ≠ 0) (hv : valueCheck o r v = none) :
    ∃ e, out = .next (s.after e) ∧ (g (s.fresh.found q)).keeps e [] [] := by
  have hg : s.fresh.grants q level = true := by simp only [Device.writes, Bool.and_eq_true] at hw; exact hw.1.1
  refine ⟨_, run_served h hg, ?_⟩
  rw [Device.plainWriteR_granted hw hl hv]
  exact Device.keeps_trans (Device.withhold_keeps _ q o.ref (g (s.fresh.found q), okWrite)) (Device.reply_keeps _ _ _ _)

/-- Nothing named: nothing changes, so a frame carries over. -/
theorem Device.keeps_all {d e f : Device} {refs : List Nat} {parts : List Part} (h : d.keeps e refs parts) (k : e.keeps f [] []) : d.keeps f refs parts :=
  Device.keeps_trans h (Device.keeps_mono k (by simp) (by simp))

/-- The frame of an executed write is the frame of its effect. -/
theorem State.leaves_of_write {s : State} {q : Req} {e g : Device} {refs : List Nat} {parts : List Part} (h : (s.fresh.found q).keeps g refs parts)
    (k : g.keeps e [] []) (hn : Reg.schedLastSeq.ref ∈ refs) : s.leaves (s.after e) refs parts :=
  State.leaves_of_keeps (Device.keeps_all (Device.keeps_trans (Device.found_keeps _ _ hn) h) k)

/-- An object after a write, as its effect left it. -/
theorem State.get_of_write {s : State} {e g : Device} {o : Obj} (k : g.keeps e [] []) (h : followsByItself o.ref = false) : (s.after e).dev.get o = g.get o :=
  (State.after_get s e h).trans (k.1 o rfl)

/-- The device a request finds: every object but SCHED_LAST_SEQ as it was. -/
theorem Device.found_get (d : Device) (q : Req) {o : Obj} (h : o.ref ≠ Reg.schedLastSeq.ref) : (d.found q).get o = d.get o :=
  (Device.found_keeps (refs := [Reg.schedLastSeq.ref]) (parts := []) d q (by simp)).1 o (by simpa using h)

theorem Device.found_part (d : Device) (q : Req) (p : Part) : samePart d (d.found q) p :=
  (Device.found_keeps (refs := [Reg.schedLastSeq.ref]) (parts := []) d q (by simp)).2 p rfl

namespace Device

theorem found_phase (d : Device) (q : Req) : (d.found q).phase = d.phase := d.found_part q .phase
theorem grants_running {d : Device} {q l} (h : d.grants q l = true) : d.phase = .running := by
  simp only [Device.grants, Bool.and_eq_true, beq_iff_eq] at h; exact h.1.1.1.1.1

theorem writes_grants {d : Device} {q l r} (h : d.writes q l r = true) : d.grants q l = true := by
  simp only [Device.writes, Bool.and_eq_true] at h; exact h.1.1

theorem found_roleCheck (d : Device) (q : Req) (r : Nat) : (d.found q).roleCheck r = d.roleCheck r := by
  have ht : ∀ p : Obj, p.ref ≠ Reg.schedLastSeq.ref → (d.found q).get p = d.get p := fun p hp => found_get _ _ hp
  have hw := d.found_part q .twin
  have hd := d.found_part q .stored
  simp only [samePart] at hw hd
  have ha : (d.found q).twin.applying = d.twin.applying := congrArg (·.applying) hw
  unfold roleCheck standby mirrored unitLocal dom
  rw [ht Reg.twinRole (by decide), ht Reg.twinUnit (by decide), congrArg (·.enabled) hw, ha, hd]

theorem found_writer {d : Device} {q level ref} (h : d.writes q level ref = true) (hl : level ≠ 0) (v : Nat) : (d.found q).writerCheck q ref v = none := by
  have hg := writes_grants h
  simp only [writes, Bool.and_eq_true, beq_iff_eq] at h
  have hro := h.2
  have hlc : (d.found q).limitedCheck q ref v = none := by
    simp only [grants, Bool.and_eq_true] at hg
    have hs := hg.2
    unfold sessionLets at hs
    unfold limitedCheck; dsimp only
    by_cases hq : q.session = 0
    · rw [if_pos hq] at hs; exact absurd (by simpa using hs) hl
    · rw [if_neg hq] at hs
      cases hso : d.sessionOf q with
      | none => rw [hso] at hs; simp at hs
      | some s =>
        rw [hso] at hs
        simp only [Option.any_some, Bool.and_eq_true, Bool.not_eq_true'] at hs
        rw [found_sessionOf d q s hso hq]; simp [hs.1.1.1]
  unfold writerCheck; rw [found_roleCheck]
  have : d.roleCheck ref = none := by simpa using hro
  rw [this]; exact hlc

end Device

end Sys2Proof.Machine
end

