-- ==== Sys2Proof/Laws/Crc.lean ====
section
/-! SUPPORT. A CRC-32 stays within its width. -/

namespace Sys2Proof.Machine

theorem crc32Shift_lt {c : Nat} (h : c < 2 ^ 32) : crc32Shift c < 2 ^ 32 := by
  have h2 : c / 2 < 2 ^ 32 := by omega
  unfold crc32Shift; split
  · exact Nat.xor_lt_two_pow h2 (by decide)
  · exact h2

theorem crc32Steps_lt (n : Nat) {c : Nat} (h : c < 2 ^ 32) : crc32Steps n c < 2 ^ 32 := by
  induction n generalizing c with
  | zero => exact h
  | succ n ih => exact ih (crc32Shift_lt h)

/-- A CRC-32 is a word of 32 bits. -/
theorem crc32_lt (bs : List Nat) : crc32 bs < 2 ^ 32 := by
  have go : ∀ (l : List Nat) (c : Nat), c < 2 ^ 32 → l.foldl (fun c b => crc32Steps 8 (c ^^^ b % 256)) c < 2 ^ 32 := by
    intro l; induction l with
    | nil => intro c h; exact h
    | cons b l ih => intro c h; exact ih _ (crc32Steps_lt 8 (Nat.xor_lt_two_pow h (by omega)))
  exact Nat.xor_lt_two_pow (go bs _ (by decide)) (by decide)

/-- A CRC as the 32-bit word a command carries. -/
theorem crc32_word (bs : List Nat) : crc32 bs = (BitVec.ofNat 32 (crc32 bs)).toNat := by rw [BitVec.toNat_ofNat, Nat.mod_eq_of_lt (crc32_lt bs)]

end Sys2Proof.Machine
end

