-- ==== Sys2Proof/Laws/Memory.lean ====
section
/-! SUPPORT. The bytes of MRAM and HBM: reading after writing, and the canonical form, which every memory operation keeps. -/

namespace Sys2Proof.Machine

variable {α : Type}

/-! ### Tables in order -/

/-- Keys that all lie above k. -/
def tblAbove (k : Nat) (t : List (Nat × α)) : Prop := ∀ e ∈ t, k < e.1

theorem tblSorted_cons (k : Nat) (v : α) (t : List (Nat × α)) : tblSorted ((k, v) :: t) = true ↔ tblAbove k t ∧ tblSorted t = true := by
  induction t generalizing k v with
  | nil => simp [tblSorted, tblAbove]
  | cons p r ih =>
    obtain ⟨k', v'⟩ := p
    simp only [tblSorted, Bool.and_eq_true, decide_eq_true_eq]
    constructor
    · rintro ⟨h, hs⟩
      refine ⟨?_, hs⟩
      intro e he
      rcases List.mem_cons.mp he with rfl | he
      · exact h
      · exact Nat.lt_trans h (((ih k' v').mp hs).1 e he)
    · rintro ⟨h, hs⟩
      exact ⟨h _ (List.mem_cons_self ..), hs⟩

theorem mem_tblPut {t : List (Nat × α)} {k : Nat} {v : α} {e : Nat × α} (h : e ∈ tblPut t k v) : e = (k, v) ∨ e ∈ t := by
  induction t with
  | nil => exact Or.inl (by simpa [tblPut] using h)
  | cons p r ih =>
    obtain ⟨a, b⟩ := p
    simp only [tblPut] at h
    split at h
    · rcases List.mem_cons.mp h with rfl | h
      · exact Or.inl rfl
      · exact Or.inr h
    · split at h
      · rcases List.mem_cons.mp h with rfl | h
        · exact Or.inl rfl
        · exact Or.inr (List.mem_cons_of_mem _ h)
      · rcases List.mem_cons.mp h with rfl | h
        · exact Or.inr (List.mem_cons_self ..)
        · exact (ih h).imp id (List.mem_cons_of_mem _)

theorem mem_tblDel {t : List (Nat × α)} {k : Nat} {e : Nat × α} (h : e ∈ tblDel t k) : e ∈ t := by
  induction t with
  | nil => exact h
  | cons p r ih =>
    obtain ⟨a, b⟩ := p
    simp only [tblDel] at h
    split at h
    · exact List.mem_cons_of_mem _ (ih h)
    · rcases List.mem_cons.mp h with rfl | h
      · exact List.mem_cons_self ..
      · exact List.mem_cons_of_mem _ (ih h)

theorem tblSorted_put {t : List (Nat × α)} (k : Nat) (v : α) (h : tblSorted t = true) : tblSorted (tblPut t k v) = true := by
  induction t with
  | nil => rfl
  | cons p r ih =>
    obtain ⟨a, b⟩ := p
    have hc := (tblSorted_cons a b r).mp h
    simp only [tblPut]
    split
    · rename_i hk
      refine (tblSorted_cons ..).mpr ⟨?_, h⟩
      intro e he
      rcases List.mem_cons.mp he with rfl | he
      · exact hk
      · exact Nat.lt_trans hk (hc.1 e he)
    · split
      · rename_i hk; subst hk; exact (tblSorted_cons ..).mpr hc
      · rename_i h1 h2
        refine (tblSorted_cons ..).mpr ⟨?_, ih hc.2⟩
        intro e he
        rcases mem_tblPut he with rfl | he
        · exact Nat.lt_of_le_of_ne (Nat.le_of_not_lt h1) (Ne.symm h2)
        · exact hc.1 e he

theorem tblSorted_del {t : List (Nat × α)} (k : Nat) (h : tblSorted t = true) : tblSorted (tblDel t k) = true := by
  induction t with
  | nil => rfl
  | cons p r ih =>
    obtain ⟨a, b⟩ := p
    have hc := (tblSorted_cons a b r).mp h
    simp only [tblDel]
    split
    · exact ih hc.2
    · exact (tblSorted_cons ..).mpr ⟨fun e he => hc.1 e (mem_tblDel he), ih hc.2⟩

/-! ### One byte -/

theorem Memory.wf_iff (m : List Host.Cell) : Memory.wf m = true ↔ tblSorted m = true ∧ ∀ e ∈ m, e.2 ≠ 0 := by
  unfold Memory.wf
  rw [Bool.and_eq_true, List.all_eq_true]
  exact and_congr_right fun _ => forall_congr' fun e => forall_congr' fun _ => bne_iff_ne

/-- A byte written reads back. -/
theorem Memory.read_write_same (m : List Host.Cell) (a : Nat) (b : Byte) : Memory.read (Memory.write m a b) a = b := tblGetD_set_same m a b 0

/-- Every other byte reads as before. -/
theorem Memory.read_write_ne (m : List Host.Cell) {a x : Nat} (b : Byte) (h : x ≠ a) : Memory.read (Memory.write m a b) x = Memory.read m x :=
  tblGetD_set_ne m b 0 0 h

/-- Writing a byte keeps the canonical form. -/
theorem Memory.write_wf {m : List Host.Cell} (a : Nat) (b : Byte) (h : Memory.wf m = true) : Memory.wf (Memory.write m a b) = true := by
  obtain ⟨hs, hz⟩ := (Memory.wf_iff m).mp h
  refine (Memory.wf_iff _).mpr ?_
  unfold Memory.write tblSet
  split
  · exact ⟨tblSorted_del a hs, fun e he => hz e (mem_tblDel he)⟩
  · rename_i hb
    exact ⟨tblSorted_put a b hs, fun e he => (mem_tblPut he).elim (fun x => x ▸ hb) (hz e)⟩

/-! ### Bytes in a row -/

/-- Writing bytes keeps the canonical form. -/
theorem Memory.writeAll_wf (bs : List Nat) : ∀ {m : List Host.Cell} (a : Nat), Memory.wf m = true → Memory.wf (Memory.writeAll m a bs) = true := by
  induction bs with
  | nil => exact fun _ h => h
  | cons b r ih => exact fun a h => ih (a + 1) (Memory.write_wf a _ h)

/-- What stands at an address after bytes are written from a on. -/
theorem Memory.read_writeAll (bs : List Nat) : ∀ (m : List Host.Cell) (a x : Nat),
    Memory.read (Memory.writeAll m a bs) x = if a ≤ x ∧ x < a + bs.length then BitVec.ofNat 8 (bs.getD (x - a) 0) else Memory.read m x := by
  induction bs with
  | nil => intro m a x; rw [if_neg (by simp)]; rfl
  | cons b r ih =>
    intro m a x
    simp only [Memory.writeAll, ih, List.length_cons]
    by_cases hx : x = a
    · subst hx
      rw [if_neg (by omega), Memory.read_write_same, if_pos (by omega)]
      simp
    · rw [Memory.read_write_ne m _ hx]
      by_cases h : a + 1 ≤ x ∧ x < a + 1 + r.length
      · rw [if_pos h, if_pos (by omega)]
        have : x - a = (x - (a + 1)) + 1 := by omega
        rw [this, List.getD_cons_succ]
      · rw [if_neg h, if_neg (by omega)]

/-! ### The memories of the device -/

/-- After reset they have it. -/
theorem reset_memWf : State.reset.dev.memWf := ⟨rfl, rfl⟩

theorem Device.writeLine_memWf {d : Device} (l v : Nat) (h : d.memWf) : (d.writeLine l v).memWf := by
  unfold Device.writeLine; dsimp only; split
  · exact h
  · exact ⟨Memory.writeAll_wf _ _ h.1, h.2⟩

/-- Poison marks are no bytes. -/
theorem Device.setPoison_memWf {d : Device} (c a : Nat) (b : Bool) (h : d.memWf) : (d.setPoison c a b).memWf := h

theorem Device.each_memWf {l : List α} {f : α → Device → Device} (hf : ∀ a x, x.memWf → (f a x).memWf) {d : Device} (h : d.memWf) : (d.each l f).memWf := by
  unfold Device.each
  induction l generalizing d with
  | nil => exact h
  | cons a r ih => exact ih (hf a d h)

/-- A permitted write of the matrix keeps the canonical form. -/
theorem Device.matrixWrite_memWf {d : Device} (m t a ahead clocks : Nat) (bs : List Nat) (h : d.memWf) : (d.matrixWrite m t a ahead clocks bs).memWf := by
  unfold Device.matrixWrite; dsimp only
  split
  · split
    · exact h
    · exact ⟨h.1, Memory.writeAll_wf _ _ h.2⟩
  · split
    · exact Device.each_memWf (fun l x hx => Device.writeLine_memWf l _ (Device.setPoison_memWf _ _ _ hx)) h
    · exact Device.each_memWf (fun k x hx => Device.setPoison_memWf _ _ _ hx) h

/-- So does a reset, which keeps MRAM and clears HBM. -/
theorem Device.wiped_memWf {d : Device} (cause : Nat) (clock : Bool) (h : d.memWf) : (d.wiped cause clock).memWf := ⟨h.1, rfl⟩

/-- A line that waited reaches MRAM in the canonical form. -/
theorem execMramLineWrite_memWf {s : State} (which : MramLine) (h : s.dev.memWf) :
    ∃ t, execMramLineWrite which s = .next t ∧ t.dev.memWf := by
  refine ⟨_, rfl, ?_⟩
  unfold Device.memWf at *
  rw [show ∀ d : Device, ((d.settle).changes s.dev).mem = d.mem from State.after_mem s]
  dsimp only
  repeat' split
  all_goals first
    | exact h
    | exact ⟨Memory.writeAll_wf _ _ h.1, h.2⟩

end Sys2Proof.Machine
end

