-- ==== Sys2Proof/Machine/Balls.lean ====
section
/-! DEFINITION. The low-speed balls and the JTAG port (chapter 21: Table 21.3, R485, R496). The command table has no row for TCK, so the state of the port stays as
reset leaves it; its meaning stands here as operations (assumption 116). -/

namespace Sys2Proof.Machine

/-! ### The low-speed balls -/

/-- What stands on a ball between transfers, as far as this device drives it. -/
inductive Drive where
  | low | high | released | highZ
deriving DecidableEq, Repr

/-- A level that is driven. -/
def driven (b : Bool) : Drive := if b then .high else .low

/-- CLAIM_WON (R349): low until the dictionary is ready (Table 21.6). -/
def Device.claimWonBall (d : Device) : Drive := driven (d.twin.won && d.on Reg.idDictReady)

/-- MSPI_IRQ_N: low while a response or notice waits to be read (R410). -/
def Device.irqBall (d : Device) : Drive := if d.eop.spiOut.isEmpty then .released else .low

/-- ITLAn_DIS_N. -/
def Device.disBall (d : Device) (p : Nat) : Drive := driven ((tblGet d.itla p).any (·.disHigh))

/-- A time output, by its bit of TIME_OUT_DRIVING, at the level it idles at while this device drives it; else high impedance (R291, R352, R485). -/
def Device.timeBall (d : Device) (k : Nat) (idle : Bool) : Drive := if d.phase = .reset ∨ !bitAt d.driving k then .highZ else driven idle

/-- The output balls of the boundary-scan register between transfers, in the order of Table 21.3: CLAIM_SYNC, CLAIM_BIT, CLAIM_WON, PPS_OUT0, PPS_OUT1, FREQ_OUT0,
FREQ_OUT1, TOD_TX (a UART idles high), MSPI_MISO (MSPI_CS_N high), MSPI_IRQ_N, ITLA0 to ITLA3 TXD and DIS_N, ASPI_SCK (CPOL 0), ASPI_MOSI, ASPI_CS0_N to
ASPI_CS7_N (R485). -/
def Device.outputBalls (d : Device) : List Drive :=
  [.released, .released, d.claimWonBall, d.timeBall 0 false, d.timeBall 1 false, d.timeBall 2 false, d.timeBall 3 false, d.timeBall 4 true,
   .highZ, d.irqBall] ++
    (List.range 4).flatMap (fun p => [driven (d.phase != .reset), d.disBall p]) ++ [.low, .low] ++ List.replicate 8 .high

/-- Input balls of the boundary-scan register: RESET_N, UNIT_SEL, TXOFF_N, TAMPER_N, CLAIM_SYNC, CLAIM_BIT, OCXO_CLK, GNSS_PPS, GNSS_TOD_RX, EXT_REF0, EXT_REF1,
MSPI_SCK, MSPI_CS_N, MSPI_MOSI, ITLA0 to ITLA3 RXD and SRQ_N, ASPI_MISO. -/
def inputBalls : Nat := 23

/-- Cells of the boundary-scan register: one for each input and two, a level and a drive, for each output. -/
def scanCells : Nat := inputBalls + 2 * 28

/-! ### The JTAG port (R496) -/

/-- The controller's next state at a rising TCK (IEEE 1149.1). -/
def TapState.next (tms : Bool) : TapState → TapState
  | .reset => if tms then .reset else .idle
  | .idle => if tms then .selectDr else .idle
  | .selectDr => if tms then .selectIr else .captureDr
  | .captureDr => if tms then .exit1Dr else .shiftDr
  | .shiftDr => if tms then .exit1Dr else .shiftDr
  | .exit1Dr => if tms then .updateDr else .pauseDr
  | .pauseDr => if tms then .exit2Dr else .pauseDr
  | .exit2Dr => if tms then .updateDr else .shiftDr
  | .updateDr => if tms then .selectDr else .idle
  | .selectIr => if tms then .reset else .captureIr
  | .captureIr => if tms then .exit1Ir else .shiftIr
  | .shiftIr => if tms then .exit1Ir else .shiftIr
  | .exit1Ir => if tms then .updateIr else .pauseIr
  | .pauseIr => if tms then .exit2Ir else .pauseIr
  | .exit2Ir => if tms then .updateIr else .shiftIr
  | .updateIr => if tms then .selectDr else .idle

/-- The instruction that the bits of the instruction register name: R496 gives no codes; those of all ones are BYPASS (IEEE 1149.1). -/
def instrOf (l : List Bool) : JtagInstr :=
  if l.all (· == true) then .bypass
  else match Config.jtagCode l with
    | 1 => .idcode
    | 2 => .sample
    | 3 => .extest
    | _ => .bypass

/-- The cells' level and drive of a ball. -/
def cellsOf (x : Drive) : List Bool :=
  match x with
  | .low => [false, true]
  | .high => [true, true]
  | .released => [true, false]
  | .highZ => [false, false]

/-- What the boundary-scan register captures: the levels on the input balls and what this device drives on its outputs. -/
def Device.scanCapture (d : Device) (inputs : List Bool) : List Bool :=
  (inputs ++ List.replicate inputBalls false).take inputBalls ++ d.outputBalls.flatMap cellsOf

/-- What the data register that the instruction selects captures. -/
def Device.captureDr (d : Device) (inputs : List Bool) : List Bool :=
  match d.jtag.instr with
  | .bypass => [false]
  | .idcode => (List.range 32).map (bitAt Config.jtagId ·)
  | _ => d.scanCapture inputs

/-- A shift register takes a bit and gives its first. -/
def shiftIn (l : List Bool) (b : Bool) : List Bool := l.drop 1 ++ [b]

/-- A rising edge of TCK with TMS and TDI, and the levels on the input balls: the registers capture, shift or update in the state that the controller leaves. -/
def Device.tck (d : Device) (tms tdi : Bool) (inputs : List Bool) : Device :=
  let j := d.jtag
  let j := match j.tap with
    | .reset => { j with instr := .idcode }
    | .captureDr => { j with dr := d.captureDr inputs }
    | .shiftDr => { j with dr := shiftIn j.dr tdi }
    | .updateDr => if j.instr = JtagInstr.sample ∨ j.instr = JtagInstr.extest then { j with cells := j.dr } else j
    | .captureIr => { j with ir := true :: List.replicate (Config.jtagIrBits - 1) false }
    | .shiftIr => { j with ir := shiftIn j.ir tdi }
    | .updateIr => { j with instr := instrOf j.ir }
    | _ => j
  { d with jtag := { j with tap := j.tap.next tms } }

/-- TDO after a falling edge of TCK: the next bit out while a register shifts, else high impedance. -/
def Device.tdo (d : Device) : Option Bool :=
  match d.jtag.tap with
  | .shiftDr => d.jtag.dr.head?
  | .shiftIr => d.jtag.ir.head?
  | _ => none

/-- TRST_N low: Test-Logic-Reset. -/
def Device.trst (d : Device) : Device := { d with jtag := ⟨.reset, .idcode, d.jtag.ir, d.jtag.dr, d.jtag.cells⟩ }

/-- What a ball's cells drive. -/
def driveOf : List Bool → Drive
  | [b, true] => driven b
  | _ => .highZ

/-- The output balls of the boundary-scan register: under EXTEST what its cells hold, else what the device drives. -/
def Device.balls (d : Device) : List Drive :=
  if d.jtag.instr = .extest then (List.range 28).map (fun k => driveOf ((d.jtag.cells.drop (inputBalls + 2 * k)).take 2)) else d.outputBalls

end Sys2Proof.Machine
end

