-- ==== Sys2Proof/WellFormed.lean ====
section
/-! DEFINITION. What a command as the device can meet it satisfies beyond its types: values fit their length, addresses their transport, lists the
number of things they describe. The meanings are total; they need none of it. -/

namespace Sys2Proof

/-- A value of at most 16 bytes (R434) or of a whole message body (R408), that fits its length. -/
def valWf (v : Val) : Bool := decide (v.len ≤ 1440 ∧ v.raw < 256 ^ v.len)

/-- An address is that of its transport: a MAC address, none over SPI, port and MAC address on a client VLAN, carrier and leaf on the line (Table 17.2). -/
def reqWf (q : Req) : Bool :=
  match q.transport.val with
  | 0 => decide (q.addr < 2 ^ 48)
  | 1 => decide (q.addr = 0)
  | 2 => decide (q.addr < 32 * 2 ^ 48)
  | _ => decide (q.addr < 2 ^ 16)

/-- A member's value fits its length. -/
def memberWf (m : BundleMember) : Bool := valWf m.val

/-- The rows of Table 2.4 are numbered from 1 here up to 11. -/
def eventWf (e : ArbEvent) : Bool := decide (1 ≤ e.row.val)

/-- Four ADC levels, eight corrections, delays in the order of Table 16.6. -/
def adcWf (r : AdcReport) : Bool := decide (r.rms.length = 4 ∧ r.terms.length = 8)

/-- The four kinds of mirror records. -/
def recWf (r : MirrorRec) : Bool := decide (r.kind ≤ 3)

/-- The unit a twin names is 0 or 1; the records it sends are records. -/
def mateWf (m : MateMsg) : Bool := (m.hello.all (fun h => decide (h.1 ≤ 1))) && m.part.all (fun p => p.2.all recWf)

/-- The command is well formed. -/
def Instr.wellFormed : Instr → Bool
  | .read q _ _ => reqWf q
  | .write q _ v => reqWf q && valWf v
  | .bundle q _ members => reqWf q && members.all memberWf
  | .subscribeAdd q _ _ _ => reqWf q
  | .subscribeCancel q _ => reqWf q
  | .blockOpenWrite q _ _ => reqWf q
  | .blockChunk q _ _ _ => reqWf q
  | .blockEndWrite q _ _ => reqWf q
  | .blockAbandon q _ => reqWf q
  | .blockRead q _ _ _ => reqWf q
  | .blockTransferTimeout _ => true
  | .sessionOpen q _ _ => reqWf q
  | .sessionClose q => reqWf q
  | .sessionKeepalive q => reqWf q
  | .sessionIdleTimeout _ _ _ => true
  | .eopHeaderUnreadable _ => true
  | .spiWriteMessage _ => true
  | .spiReadMessage => true
  | .spiDirectRead _ _ => true
  | .spiDirectWrite _ _ => true
  | .eopSegment _ leaf _ => decide (leaf ≤ 128)
  | .eopReassemblyTimeout _ leaf _ => decide (leaf ≤ 128)
  | .forwardedAnswer _ _ _ => true
  | .forwardTimeout _ => true
  | .noticePeriod _ _ => true
  | .arbiterCycle fresh => fresh.all eventWf
  | .schedTimeStep q v => reqWf q && valWf v
  | .timeStepEffect => true
  | .schedCancel q v => reqWf q && valWf v
  | .actionArming _ _ => true
  | .deviceActionPlaceFreed => true
  | .singleRwsWriteFire _ _ => true
  | .timedBundleFire _ _ => true
  | .preimageDurable _ => true
  | .bundleCommitMark _ => true
  | .calendarBoundary _ _ _ _ => true
  | .lineTxEnableOn q _ => reqWf q
  | .lineTxEnableOff q _ => reqWf q
  | .txActiveEntry _ => true
  | .txStartTimeout _ => true
  | .lineTxSquelchSet q _ => reqWf q
  | .lineTxSquelchClear q _ => reqWf q
  | .txoffNLow => true
  | .txoffNClear => true
  | .dacSynthLockLoss _ => true
  | .lineAspiXfer q _ => reqWf q
  | .aspiTransferDone _ => true
  | .lineItlaUse q _ v => reqWf q && valWf v
  | .lineItlaRaw q _ v => reqWf q && valWf v
  | .itlaResponse _ _ => true
  | .itlaResponseTimeout _ => true
  | .itlaPendingPoll _ => true
  | .itlaTuneLimitExpiry _ => true
  | .itlaStatusPoll _ => true
  | .itlaSrq _ => true
  | .lineBiasMode q _ v => reqWf q && valWf v
  | .biasDitherPeriodEnd => true
  | .biasVisitEnd => true
  | .lineRxEnableOn q _ => reqWf q
  | .lineRxEnableOff q _ => reqWf q
  | .rxStageComplete _ _ adc => adcWf adc
  | .rxAcqTimeout _ => true
  | .rxCauseSet _ _ => true
  | .rxCauseClear _ _ => true
  | .cdTrackUpdate _ _ _ _ => true
  | .eqStateWindow _ _ _ _ _ => true
  | .phaseSlipSuspect _ _ => true
  | .quadrantResolved _ _ _ => true
  | .snrWindowEnd _ _ _ meas => decide (meas.rms.length = 4)
  | .loadUpgradeInterval _ => true
  | .loadReq _ _ _ => true
  | .loadAck _ _ _ _ => true
  | .loadNak _ _ _ => true
  | .loadRestart _ _ _ => true
  | .loadProposalAbandon _ => true
  | .loadFallbackExpiry _ => true
  | .lineLoadPropose q _ v => reqWf q && valWf v
  | .loadingTableSwitch _ _ => true
  | .codewordReady _ => true
  | .heldCodewordRetry => true
  | .codewordDecodeStop _ => true
  | .decodeCutoff _ => true
  | .blockDelivery _ => true
  | .fecBerWindowEnd _ => true
  | .fecMsIntervalEnd => true
  | .frmBondMode q v => reqWf q && valWf v
  | .txFrameTick _ _ _ _ => true
  | .rxBlock _ _ _ => true
  | .delineationAccept _ _ _ _ => true
  | .delineationTableTimeout _ _ => true
  | .huntBlockLimit _ _ => true
  | .lofSetExpiry _ _ => true
  | .lofClearExpiry _ _ => true
  | .scLostExpiry _ _ => true
  | .scProbeExpiry _ _ => true
  | .setEntry q _ => reqWf q
  | .setRange q _ => reqWf q
  | .clearRange q _ => reqWf q
  | .portSizes q _ => reqWf q
  | .groupRecord q _ => reqWf q
  | .fabMapRevert q v => reqWf q && valWf v
  | .fabMapSwap q v => reqWf q && valWf v
  | .swapValidationPass _ _ => true
  | .sliceMapBankSwap _ _ => true
  | .nextBankRebuilt => true
  | .retimingSlip _ _ => true
  | .groupHeader _ _ _ _ _ => true
  | .glofExpiry _ _ _ => true
  | .holdOffExpiry _ _ _ => true
  | .wtrExpiry _ => true
  | .pgClear q _ => reqWf q
  | .lockout q _ => reqWf q
  | .forcedSwitch q _ => reqWf q
  | .manualSwitchP q _ => reqWf q
  | .manualSwitchW q _ => reqWf q
  | .realign q _ => reqWf q
  | .dacSynthesiserRelock _ => true
  | .hubEnable q _ v => reqWf q && valWf v
  | .hubDsCode q _ _ v => reqWf q && valWf v
  | .hubGrantNext q _ _ => reqWf q
  | .hubGrantTable q _ v => reqWf q && valWf v
  | .hubGrantTableSwitch _ _ => true
  | .grantUpstreamCycle _ => true
  | .burstWindowOpen _ _ _ => true
  | .burstDetection _ _ _ _ _ => true
  | .burstBDetection _ _ _ _ _ => true
  | .burstSyncFound _ _ _ _ _ => true
  | .burstSyncMissed _ _ => true
  | .burstWindowClose _ _ => true
  | .burstEnd _ _ _ => true
  | .rogueBurst _ _ _ _ _ => true
  | .discoveryPeriod _ => true
  | .register _ => true
  | .upstreamHubMessage _ => true
  | .leafTrimPeriod _ => true
  | .leafAssignTimeout _ _ => true
  | .leafDeregTimeout _ _ => true
  | .hubLeafEnableOn q _ _ => reqWf q
  | .hubLeafEnableOff q _ _ => reqWf q
  | .pktPortMode q _ v => reqWf q && valWf v
  | .ingressFrameStart _ _ _ => true
  | .ingressOversize _ => true
  | .ingressFrameEnd _ _ _ _ _ => true
  | .flowAdd q _ => reqWf q
  | .flowReplace q _ => reqWf q
  | .flowDelete q _ => reqWf q
  | .pktQConfig q _ => reqWf q
  | .egressItemEnd _ _ => true
  | .extractorItemHeader _ => true
  | .channelItemBoundary _ _ => true
  | .portTxItemBoundary _ _ => true
  | .pktQFlush q v => reqWf q && valWf v
  | .flushFence _ _ => true
  | .flushComplete _ => true
  | .pktQWmLatch q v => reqWf q && valWf v
  | .sweepRead _ _ _ _ _ _ => true
  | .ceRateSecond _ => true
  | .matrixRequest _ _ _ _ _ _ _ _ _ _ _ _ => true
  | .mramLineWrite _ => true
  | .memErrLogClear q v => reqWf q && valWf v
  | .ppsBoundary _ _ _ => true
  | .todTxStart => true
  | .gnssPpsEdge _ _ => true
  | .gnssTodMessage _ _ _ => true
  | .extRefEdge _ _ => true
  | .ptpMessage _ m => decide (m.domain < 256)
  | .ptpMessageTransmit _ _ => true
  | .esmcMessage _ _ _ _ => true
  | .esmcMessageTransmit _ => true
  | .esmcTimeout _ => true
  | .candidateFaultChange _ _ _ => true
  | .proofingExpiry _ => true
  | .timeCandSource q _ v => reqWf q && valWf v
  | .timeForce q v => reqWf q && valWf v
  | .referenceChange _ _ _ => true
  | .pullComplete => true
  | .lockWindowReached => true
  | .timeLoopMode q v => reqWf q && valWf v
  | .softwareLoopEntry _ _ => true
  | .softwareLoopExit _ _ _ => true
  | .timeSwFreq q v => reqWf q && valWf v
  | .timeSwPhase q v => reqWf q && valWf v
  | .swWatchdogExpiry => true
  | .timePpsOffset q _ _ v => reqWf q && valWf v
  | .ttMarkInterval _ _ => true
  | .ttInfo _ _ _ _ _ => true
  | .ttReturn _ _ _ _ => true
  | .thermConversion _ _ => true
  | .tempInvalidTimeout => true
  | .learningSampleComplete => true
  | .oscillatorRetrace => true
  | .modelFit => true
  | .timeHoImport q _ => reqWf q
  | .timeHoClear q v => reqWf q && valWf v
  | .secCgNext q _ => reqWf q
  | .secCgApply q v => reqWf q && valWf v
  | .cryptTableApply _ _ => true
  | .secSeg _ _ _ _ => true
  | .secKeyWrite q v => reqWf q && valWf v
  | .secRoll q v => reqWf q && valWf v
  | .keyRoll _ _ => true
  | .secErase q v => reqWf q && valWf v
  | .keyErase _ _ => true
  | .retireHoldExpiry _ => true
  | .guardThreshold _ => true
  | .segReservation _ _ => true
  | .dualMismatch _ _ _ _ => true
  | .tamperDetection _ => true
  | .tamperSensorClear _ => true
  | .wrappedEraseComplete => true
  | .secAlarmClear q v => reqWf q && valWf v
  | .secSensorClass q v => reqWf q && valWf v
  | .secClassLock q v => reqWf q && valWf v
  | .coreDissent _ _ => true
  | .coreResync _ => true
  | .twinCoreRetry q v => reqWf q && valWf v
  | .twinHostClass q v => reqWf q && valWf v
  | .healthHoldExpiry => true
  | .claimListenEnd _ => true
  | .claimFrameStart => true
  | .claimSyncJoin => true
  | .claimEffectInstant _ _ _ => true
  | .bothLinksLostTakeover => true
  | .sharedOutputStart => true
  | .mateControlMessage m => mateWf m
  | .mateLinkDown => true
  | .epochClose _ => true
  | .epochReceived _ records _ => records.all recWf
  | .epochAck _ => true
  | .epochAckTimeout => true
  | .lanePortType q _ v => reqWf q && valWf v
  | .laneTrain q _ v => reqWf q && valWf v
  | .lanePortEnable q _ v => reqWf q && valWf v
  | .trainingTimeout _ => true
  | .laneLockChange _ _ _ => true
  | .portLinkChange _ _ _ _ _ => true
  | .flexeRejoinExpiry _ => true
  | .flexeOverheadLockChange _ _ => true
  | .laneFlexeNext q _ => reqWf q
  | .laneFlexeApply q v => reqWf q && valWf v
  | .flexeCalendarStart _ _ => true
  | .flexeCalendarSwap => true
  | .mateLaneMark _ _ _ _ => true
  | .mateWidthSwitch _ => true
  | .monResult _ _ => true
  | .monRefReady => true
  | .monRefEnable q v => reqWf q && valWf v
  | .monCalStart q v => reqWf q && valWf v
  | .monSelfCalDone _ => true
  | .dieTempTrigger _ => true
  | .monSeqSteps q _ _ => reqWf q
  | .monSeqRunStart q _ => reqWf q
  | .monSeqRunStop q _ => reqWf q
  | .seqPassStart _ _ _ => true
  | .seqStepDone _ => true
  | .calRun q _ v => reqWf q && valWf v
  | .calEstimateDone _ adc => adcWf adc
  | .calRampStep _ _ => true
  | .calReportSend _ _ => true
  | .calReport _ _ msg => decide (msg.terms.length = 8)
  | .calTxSettleExpiry _ _ => true
  | .calTxNoReportTimeout _ => true
  | .calTxEnable q _ v => reqWf q && valWf v
  | .calSet q _ => reqWf q
  | .telCntCtrl q _ _ v => reqWf q && valWf v
  | .telCnt q _ _ v => reqWf q && valWf v
  | .telGrpMembers q _ _ => reqWf q
  | .telGrpDump q _ v => reqWf q && valWf v
  | .counterGroupDump _ _ _ => true
  | .ringRecordWrite => true
  | .telRingFrom q v => reqWf q && valWf v
  | .telSweepStart q _ v => reqWf q && valWf v
  | .sweepStart _ _ _ => true
  | .sweepItemRead _ _ => true
  | .sweepPeriodDue _ _ _ => true
  | .bwWindowEnd => true
  | .resetAssert _ => true
  | .brownout => true
  | .ocxoClkRunning => true
  | .resetEnd _ _ => true
  | .bootFailureTimeout _ => true
  | .pwrImgData q _ => reqWf q
  | .imageWriteDurable => true
  | .pwrImgSwitch q v => reqWf q && valWf v
  | .firmwareImageSwitch _ _ => true
  | .pwrImgConfirm q v => reqWf q && valWf v
  | .imageTrialExpiry => true
  | .powerStateEntry _ _ => true
  | .powerStateWake _ _ => true
  | .resourceReady _ => true
  | .pwrFecActive q v => reqWf q && valWf v
  | .controlRestartEnd => true
  | .epochCommit => true
  | .baselineComplete b => b.records.all recWf
  | .powerUpLoad _ => true
  | .domainPassResume => true
  | .domainSlotRewrite _ => true
  | .dictSave q v => reqWf q && valWf v
  | .dictSaveComplete => true
  | .dictRestoreCancel q => reqWf q
  | .dictRestoreSaved q => reqWf q
  | .dictRestoreDefaults q => reqWf q
  | .dictRestoreKeepComm q => reqWf q
  | .dictImport q _ => reqWf q
  | .eopMessageMalformed q _ => reqWf q

end Sys2Proof
end

