-- ==== Sys2Proof/Tests/Slice0.lean ====
section
/-! SUPPORT. The model's own tests: well-formedness, single steps on small states with results from the manual, and for every statement states and operands
that meet its hypotheses. -/

namespace Sys2Proof.Tests

open Sys2Proof.Machine

set_option Elab.async false

/-! ### Small states -/

/-- Sessions of the levels viewer to installer with a host at transport 0, address 5: number 1 at level 1, 2 at level 2, 3 at level 3. -/
def sessions : List Session := [⟨1, 0, 5, 1, 0, 0, 0, false, []⟩, ⟨2, 0, 5, 2, 0, 0, 0, false, []⟩, ⟨3, 0, 5, 3, 0, 0, 0, false, []⟩]

/-- Pairs 254 and 255, which EOP_AUTH_PAIR names after reset, with keys 1 and 2 in use under epoch 1. -/
def keyPairs : List (Nat × KeyPair) := [(254, ⟨⟨2, 1, 1⟩, ⟨0, 0, 0⟩, 0, false⟩), (255, ⟨⟨2, 1, 2⟩, ⟨0, 0, 0⟩, 0, false⟩)]

/-- A device in service with those sessions and keys, every resource awake. -/
def serving : State :=
  { State.reset with dev := { State.reset.dev with
      phase := .running
      resources := []
      eop := { State.reset.dev.eop with sessions := sessions }
      sec := { State.reset.dev.sec with pairs := keyPairs } } }

/-- The tags of an empty message with COUNTER 1: in session 2 under pair 254, in session 3 under pair 255. -/
def tagOf (k : Nat) : BitVec 128 :=
  if k = 2 then 229724167645182552887617770338076305640 else if k = 3 then 186734439210349834851968054637002657478 else 0

/-- A request in session k, the first in it, its bytes left out. -/
def req (k : Nat) : Req := ⟨0, 5, 0, 0, BitVec.ofNat _ k, 7, 0, 0, true, tagOf k, 1, 0, []⟩

/-- The state with another device. -/
def on (s : State) (f : Device → Device) : State := { s with dev := f s.dev }

/-- The state with an object at a value. -/
def set (s : State) (o : Obj) (v : Nat) : State := { s with dev := s.dev.set o v }

/-- A transfer of a DOMAIN that has come whole in session k. -/
def sent (k ref : Nat) (bs : List Nat) (s : State) : State :=
  on s (fun d => { d with eop := { d.eop with transfers := [{ ref := ref, writing := true, session := k, total := bs.length, data := bs, transport := 0, addr := 5 }] } })

/-- The only action of the schedule: handle 9, armed for now. -/
def due (cls ref v : Nat) (args : List Nat) (own : Bool) : Action :=
  { newAction .calendar (if own then .device else .host) cls ref 0 v with handle := 9, armed := some 0, armSeq := 77, args := args }

/-- A state in which that action fires. -/
def firing (a : Action) (s : State) : State := on s (fun d => { d with sched := { d.sched with actions := [a] } })

/-! ### Witnesses: every statement's hypotheses are met together -/

/-- An outcome that is no error. -/
def fine {α : Type} : Except Err α → Bool
  | .ok _ => true
  | .error _ => false

/-- Access and kind of an object's row, and whether a value passes its check. -/
def rowAt (ref : Nat) (v : Val) : Option (Access × Bool × Bool × Nat) :=
  (rowOf ref).map (fun r => (r.access, r.ty == tyDomain, (valueCheck (objOf r ref) r.range v).isNone, writeLevelOf r ref v.raw))

theorem wit_reads : serving.fresh.grants (req 1) 0 = true ∧ (rowOf Reg.schedTimeState.ref).map (fun r => (r.access, r.ty == tyDomain)) = some (.ro, false) ∧
    (serving.fresh.found (req 1)).shown Reg.schedTimeState.ref = none ∧ readLevel (Reg.schedTimeState.ref / 256) ≤ serving.fresh.privilege (req 1) ∧
    (rowOf Reg.schedList.ref).map (·.ty) = some tyDomain ∧ (rowOf Reg.dictSave.ref).map (·.access) = some .wo := by decide +kernel

theorem wit_writes : serving.fresh.writes (req 1) 1 Reg.schedLatePolicy.ref = true ∧ followsByItself Reg.schedLatePolicy.ref = false ∧
    rowAt Reg.schedLatePolicy.ref ⟨1, 1⟩ = some (.rw, false, true, 1) ∧ (written Reg.schedLatePolicy.ref).contains Reg.schedLatePolicy.ref = false ∧
    (ownEffect Reg.schedLatePolicy.ref 1 (serving.fresh.found (req 1))).isNone = true := by decide +kernel

theorem wit_writes_clear : serving.fresh.writes (req 1) 1 (Reg.lineRxLossCount 0).ref = true ∧ rowAt (Reg.lineRxLossCount 0).ref ⟨4, 0⟩ = some (.rwc, false, true, 1) ∧
    followsByItself (Reg.lineRxLossCount 0).ref = false ∧ ((serving.fresh.found (req 1)).packetClear (Reg.lineRxLossCount 0).ref).isNone = true ∧
    clearCheck (Reg.lineRxLossCount 0).ref (serving.fresh.found (req 1)) = none := by decide +kernel

theorem wit_writes_refused : serving.fresh.writes (req 1) 1 Reg.schedTimeState.ref = true ∧ followsByItself Reg.schedTimeState.ref = false ∧
    rowAt Reg.schedTimeState.ref ⟨1, 0⟩ = some (.ro, false, true, 1) ∧ serving.fresh.writes (req 1) 1 Reg.schedList.ref = true ∧
    followsByItself Reg.schedList.ref = false ∧ (rowOf Reg.schedList.ref).map (fun r => writeLevelOf r Reg.schedList.ref 0) = some 1 := by decide +kernel

/-- A bundle of one write. -/
def oneMember : List BundleMember := [⟨BitVec.ofNat 24 Reg.schedLatePolicy.ref, ⟨1, 1⟩⟩]

theorem wit_bundle : serving.fresh.grants (req 1) 0 = true ∧ serving.dev.journals = false ∧
    (membersCheck false (req 1) (serving.fresh.privilege (req 1)) (((serving.fresh.found (req 1)).sessionOf (req 1)).any (·.limited)) 0 [] oneMember
      (serving.fresh.found (req 1))).isNone = true ∧
    (serving.fresh.found (req 1)).writeNeeds Reg.schedLatePolicy.ref 1 = [] ∧ (serving.fresh.found (req 1)).rwsNeeds Reg.schedLatePolicy.ref 1 = [] ∧
    time96Valid (req 1).bake.toNat = true ∧ serving.dev.hostPlaceFree ((serving.fresh.found (req 1)).bundleAction (req 1) oneMember) = true ∧
    bakeFu ((serving.fresh.found (req 1)).bundleAction (req 1) oneMember) ≤ (serving.fresh.found (req 1)).now + serving.dev.get Reg.schedMaxAhead * fuSec ∧
    (serving.fresh.found (req 1)).isLate { (serving.fresh.found (req 1)).bundleAction (req 1) oneMember with acceptAt := (serving.fresh.found (req 1)).now } = false := by
  decide +kernel

/-- A subscription of session 1 that holds notices of one object spaced. -/
def spaced : State := on serving (fun d => { d with eop := { d.eop with subs := [⟨1, 1, 0, 5, 0x2000, 0x5FFF, 0, [0x201002], []⟩] } })

theorem wit_subscriptions : serving.fresh.privilege (req 1) = 1 ∧ (subsOf (req 1) serving.dev.eop.subs).length = 0 ∧ spaced.fresh.grants (req 1) 0 = true ∧
    ((subsOf (req 1) spaced.dev.eop.subs).find? (fun y => y.num == 1)).isSome = true ∧ spaced.dev.dead = false ∧
    (spaced.dev.eop.subs[0]?).map (fun x => (x.waiting.contains 0x201002, x.spaced.contains 0x201002)) = some (false, true) := by decide +kernel

/-- A safe list of no transfers, begun and whole. -/
def opened : State := sent 1 Reg.lineAspiSafe.ref [] serving

theorem wit_blocks : (rowOf Reg.lineAspiSafe.ref).map (fun r => (r.ty == tyDomain, r.access == .ro, r.access == .wo)) = some (true, false, false) ∧
    serving.fresh.grants (req 1) (levelOf Reg.lineAspiSafe.ref 0) = true ∧ (serving.dev.eop.transfers.find? (fun x => x.ref == Reg.lineAspiSafe.ref)) = none ∧
    fine ((serving.fresh.found (req 1)).domainBytes Reg.lineAspiSafe.ref) = true ∧ serving.fresh.grants (req 1) (readLevel (Reg.lineAspiSafe.ref / 256)) = true := by decide +kernel

theorem wit_blocks_open : opened.fresh.grants (req 1) (levelOf Reg.lineAspiSafe.ref 0) = true ∧ opened.dev.dead = false ∧
    (opened.dev.eop.transfers.find? (fun x => x.ref == Reg.lineAspiSafe.ref)).map (fun x => (ownTransfer (req 1) x, x.writing, x.data.length)) = some (true, true, 0) ∧
    opened.fresh.writes (req 1) 1 Reg.lineAspiSafe.ref = true ∧ opened.dev.journals = false ∧ crc32 [] = 0 ∧ opened.dev.keepsWhole Reg.lineAspiSafe.ref [] = true ∧
    opened.dev.keepsWhole Reg.timeHoThermTable.ref [] = true ∧ opened.dev.keepsWhole Reg.twinLocalList.ref [] = true ∧
    opened.dev.keepsWhole (Reg.lineTxEmph 1).ref (List.replicate 512 0) = true := by decide +kernel

/-- A snapshot of six bytes that session 1 reads. -/
def readOpen : State :=
  on serving (fun d => { d with eop := { d.eop with transfers := [⟨Reg.lineAspiSafe.ref, 1, 0, 5, false, 6, [1, 2, 3, 4, 5, 6]⟩] } })

theorem wit_blocks_read : readOpen.fresh.grants (req 1) (readLevel (Reg.lineAspiSafe.ref / 256)) = true ∧
    (readOpen.dev.eop.transfers.find? (fun x => x.ref == Reg.lineAspiSafe.ref)).map (fun x => (ownTransfer (req 1) x, x.writing)) = some (true, false) := by decide +kernel

/-- A request outside every session. -/
def bare : Req := { req 0 with counter := 0, tagged := false }

/-- An OPEN at installer level with nonce 5, its tag under pair 254, on a transport that allows it. -/
def tagged : Req := { req 0 with tag := 54908536718078741971658210356515795414, counter := 5 }
def trusted : State := set serving (Reg.eopTransportMax 0) 3

theorem wit_sessions_tagged : trusted.fresh.grants tagged 0 = true ∧ tagged.session = 0 ∧ (2 : Nat) ≤ trusted.dev.get (Reg.eopTransportMax tagged.transport) ∧
    trusted.dev.eop.sessions.length < 32 ∧ trusted.dev.get (Reg.eopAuthPair 0) = 254 ∧ (trusted.dev.pair 254).cur.state = 2 ∧
    trusted.dev.tagRight 2 0 tagged = true ∧ (trusted.dev.lastNonce 254 1).any (fun n => decide (5 ≤ n)) = false ∧
    tblGetD trusted.dev.eop.bases (nonceKey 254 1) 0 = 0 := by decide +kernel

theorem wit_sessions : serving.fresh.grants bare 0 = true ∧ bare.session = 0 ∧ (0 : Nat) ≤ serving.dev.get (Reg.eopTransportMax bare.transport) ∧
    serving.dev.eop.sessions.length < 32 ∧ serving.fresh.grants (req 2) 0 = true ∧ (req 2).session ≠ 0 ∧ serving.dev.dead = false ∧
    serving.dev.eop.sessions.any (fun x => x.num == 2) = true := by decide +kernel

/-- A message in reassembly, and one that waits for the answer of a leaf. -/
def between : State :=
  on serving (fun d => { d with eop := { d.eop with reassembly := [⟨0, 3, 9, 1, []⟩], forwards := [{ msgId := 4, transport := 0, addr := 5, service := 1, session := 1, reqId := 7 }] } })

theorem wit_transports : serving.dev.phase = .running ∧ serving.fresh.grants (req 1) 0 = true ∧
    rowAt Reg.schedLatePolicy.ref ⟨1, 1⟩ = some (.rw, false, true, 1) ∧ serving.dev.roleCheck Reg.schedLatePolicy.ref = none ∧
    (ownEffect Reg.schedLatePolicy.ref 1 serving.fresh.takeSeq.spiStatus).isNone = true ∧
    (rowOf Reg.schedLatePolicy.ref).map (fun r => (directType r, decide (r.width ≤ 32), ofSigned 32 (rowValue r 1))) = some (true, true, 1) ∧
    (rowOf Reg.schedTimeState.ref).map (fun r => (directType r, r.access == .wo, decide (r.width < 64))) = some (true, false, true) ∧
    serving.fresh.takeSeq.spiStatus.shown Reg.schedTimeState.ref = none ∧
    serving.dev.eop.reassembly = [] ∧ between.dev.dead = false ∧
    (between.dev.eop.reassembly.find? (fun r => r.carrier == 0 && r.leaf == 3 && r.msgId == 9)).isSome = true ∧
    (between.dev.eop.forwards.find? (fun f => f.msgId == 4)).isSome = true := by decide +kernel

/-- The first of several segments of message 5. -/
def firstSegment : BitVec 512 := 0x40800005000000000000000000000000000000000000000000000000000000000000000000000000000000000000000000000000000000000000000000000000

theorem wit_segment : bits firstSegment.toNat 511 504 = 0x40 ∧ bitAt firstSegment.toNat 503 = true ∧ bitAt firstSegment.toNat 502 = false ∧
    bits firstSegment.toNat 479 464 = 0 := by decide +kernel

/-- A step accepted in Unset. -/
def stepping : State := on serving (fun d => { d with sched := { d.sched with step := some (5 * fuCycle) } })

theorem wit_time : serving.fresh.writes (req 1) 1 Reg.schedTimeStep.ref = true ∧ time96Valid (12800 * 2 ^ 16) = true ∧ serving.dev.get Reg.schedTimeState < 2 ∧
    serving.dev.standby = false ∧ bits (12800 * 2 ^ 16) 47 16 % 12800 = 0 ∧ bits (12800 * 2 ^ 16) 15 0 = 0 ∧
    stepping.dev.dead = false ∧ stepping.dev.stepDue = some (5 * fuCycle) ∧ stepping.dev.now % fuCycle = 0 ∧ stepping.dev.sched.actions = [] ∧ serving.dev.phase ≠ .reset := by decide +kernel

/-- A pending and an armed action on SCHED_LATE_POLICY's neighbour, a swap-free RWS object. -/
def laneOn : Action := due 8 (Reg.lanePortEnable 3).ref 3 [] false
def waits : State := firing { laneOn with armed := none } serving
def fires : State := firing laneOn serving

theorem wit_cancel : waits.fresh.writes (req 1) 1 Reg.schedCancel.ref = true ∧ (waits.dev.action? 9).map (·.armed) = some none ∧
    fires.fresh.writes (req 1) 1 Reg.schedCancel.ref = true ∧ (fires.dev.action? 9).map (·.armed) = some (some 0) ∧ fires.dev.action? 10 = none := by decide +kernel

/-- The same action when its arming point has come. -/
def arms : State := on waits (fun d => { d with now := 3 * fuCycle })

theorem wit_arming : arms.dev.dead = false ∧ arms.dev.action? 9 = some { laneOn with armed := none } ∧ laneOn.held = false ∧ laneOn.epoch = 0 ∧
    laneOn.kind = .calendar ∧ swaps laneOn = false ∧ laneOn.cls = 8 ∧ arms.dev.eligible { laneOn with armed := none } ≤ arms.dev.now + fuArm ∧
    arms.dev.action? 10 = none := by decide +kernel

/-- A device action waits for a place. -/
def placed : State := on serving (fun d => { d with sched := { d.sched with waiting := [laneOn] } })

theorem wit_place : placed.dev.dead = false ∧ placed.dev.sched.waiting = [laneOn] ∧ placed.dev.deviceUsed < 256 := by decide +kernel

/-- A bundle of no members that fires. -/
def emptyBundle : Action := due 9 0 0 [1] false

theorem wit_fires : fires.dev.dead = false ∧ fires.dev.action? 9 = some laneOn ∧ laneOn.cls = 8 ∧ firesElsewhere laneOn = false ∧ fires.dev.mayFire laneOn = true ∧
    fires.dev.heldBack 8 = false ∧ laneOn.prepFail = none ∧
    (rowOf laneOn.target).map (fun r => fine (rwsEffect r laneOn.target 3 (Device.dropAction { fires.fresh with sched := { fires.dev.sched with cur := 77 } } 9))) = some true ∧
    (firing emptyBundle serving).dev.mayFire emptyBundle = true ∧ swapMember emptyBundle = none ∧
    fine (bundleEffect none emptyBundle (Device.dropAction { (firing emptyBundle serving).fresh with sched := { (firing emptyBundle serving).dev.sched with cur := 77 } } 9)) = true := by
  decide +kernel

/-- An action of each class that fires at a command of its own, and of the objects that do. -/
theorem wit_poisoned : ∀ i ∈ [(2, 0, 0), (10, 0, 0), (6, 0, 0), (7, 0, 0), (5, 0, 0), (8, Reg.timeLoopMode.ref, 1), (8, Reg.timeLoopMode.ref, 0), (8, Reg.secCgApply.ref, 3),
      (3, Reg.secRoll.ref, 3), (3, Reg.secErase.ref, 3), (8, Reg.laneFlexeApply.ref, 3), (8, (Reg.monSeqRun 2).ref, 1), (8, (Reg.telSweepStart 1).ref, 1)],
    (firing (due i.1 i.2.1 i.2.2 [] false) serving).dev.fires 9 (due i.1 i.2.1 i.2.2 [] false) i.1 ∧ (due i.1 i.2.1 i.2.2 [] false).origin = .host := by decide +kernel

/-- Carrier 0 in a transmit state. -/
def tx (st : Nat) : State := set serving (Reg.lineTxState 0) st

/-- Carrier 0 in Starting with nothing to wait for: no laser and no closed loop serves it. -/
theorem wit_transmitter : serving.fresh.writes (req 1) 1 (Reg.lineTxEnable 0).ref = true ∧ serving.fresh.writes (req 1) 1 (Reg.lineTxSquelch 0).ref = true ∧
    serving.dev.dead = false ∧ (tx 1).dev.get (Reg.lineTxState 0) = 1 ∧ (tx 1).dev.get (Reg.lineTxCauses 0) = 0 ∧ (tx 1).dev.dead = false ∧
    serving.dev.get (Reg.lineTxState 0) ≠ 1 ∧ bitAt ((set serving (Reg.lineTxCauses 0) 2).dev.get (Reg.lineTxCauses 0)) 1 = true := by decide +kernel

theorem wit_active : (tx 1).dev.txConditions 0 = true ∧ (tx 1).dev.get (Reg.lineTxCauses 0) = 0 := by decide +kernel

/-- A host list of one transfer, and one whose chip select is not there. -/
def aspiList : List Nat := [1, 0, 0, 0, 0, 0, 0, 7]
def aspiWrong : List Nat := [9, 0, 0, 0, 0, 0, 0, 7]
def aspiSent (l : List Nat) : State := sent 1 Reg.lineAspiXfer.ref l serving
def aspiBusy (k : Nat) (todo : List Nat) (waiting : List AspiRun) : State :=
  on (aspiSent aspiList) (fun d => { d with aspi := ⟨some ⟨k, 2, todo, []⟩, waiting, 8⟩ })

theorem wit_aspi : (aspiSent aspiList).endsBlock (req 1) 1 Reg.lineAspiXfer.ref (BitVec.ofNat _ (crc32 aspiList)) ⟨Reg.lineAspiXfer.ref, 1, 0, 5, true, 8, aspiList⟩ ∧
    aspiListOk 256 aspiList = true ∧ recordsOf 8 aspiList = [2 ^ 56 + 7] ∧ (aspiSent aspiList).dev.aspi.hostBusy = false ∧
    (aspiSent aspiList).dev.aspi.running = none ∧ (aspiSent aspiList).dev.journals = false ∧
    (aspiBusy 1 [5] []).dev.aspi.hostBusy = false ∧ (aspiBusy 1 [5] []).dev.aspi.running ≠ none ∧
    (aspiBusy 0 [5] []).dev.aspi.hostBusy = true ∧
    (aspiSent aspiWrong).endsBlock (req 1) 1 Reg.lineAspiXfer.ref (BitVec.ofNat _ (crc32 aspiWrong)) ⟨Reg.lineAspiXfer.ref, 1, 0, 5, true, 8, aspiWrong⟩ ∧
    aspiListOk 256 aspiWrong = false := by decide +kernel

theorem wit_transfers : (aspiBusy 0 [5, 6] []).dev.aspi.running = some ⟨0, 2, [5, 6], []⟩ ∧ (∀ w ∈ (aspiBusy 0 [5, 6] []).dev.aspi.waiting, w.kind = 0) ∧
    (aspiBusy 0 [5, 6] [⟨1, 0, [9], []⟩]).dev.aspi.waiting = [⟨1, 0, [9], []⟩] ∧
    (aspiBusy 0 [5] []).dev.aspi.running = some ⟨0, 2, [5], []⟩ ∧ (aspiBusy 1 [5] []).dev.aspi.running = some ⟨1, 2, [5], []⟩ ∧
    (aspiBusy 1 [5] []).dev.aspi.waiting = [] := by decide +kernel

/-- Laser port 1 with a raw command out and one behind it. -/
def laser (retries : Nat) : State := on serving (fun d => d.putPort 1 { d.port 1 with out := some (.raw 7), queue := [.raw 8], retries := retries })

theorem wit_lasers : serving.dev.get (Reg.lineItlaCarrier 1) < 2 ∧ serving.fresh.writes (req 1) 1 (Reg.lineItlaUse 1).ref = true ∧
    serving.dev.get (Reg.lineTxState (serving.dev.get (Reg.lineItlaCarrier 1))) = 0 ∧
    serving.fresh.writes (req 1) 1 (Reg.lineItlaRaw 1).ref = true ∧ ((laser 0).dev.port 1).out = some (.raw 7) ∧ ((laser 0).dev.port 1).queue = [.raw 8] ∧
    ((laser 1).dev.port 1).retries < 2 ∧ 2 ≤ ((laser 2).dev.port 1).retries ∧ (laser 2).dev.dead = false ∧
    ((on serving (fun d => d.putPort 1 { d.port 1 with pendingOp := true })).dev.port 1).pendingOp = true ∧
    (set serving (Reg.lineItlaUse 1) 1).dev.get (Reg.lineItlaUse 1) ≠ 0 ∧ (set serving (Reg.lineItlaUse 1) 1).dev.get (Reg.lineItlaState 1) ≠ 3 := by decide +kernel

/-- Loop 3 visited: n conversions of its dither period done, its earlier periods all measured. -/
def visited (n : Nat) : State :=
  on (set (set serving (Reg.lineBiasMode 3) 1) (Reg.lineTxState 0) 3) (fun d => { d with mon := { d.mon with work := .visit }, bias := { d.bias with visited := some 3, conv := List.replicate n 9, ds := List.replicate 8 5 } })

/-- Loop 3 on monitor channel 7, free or a sequence's. -/
def loop3 (owner : Nat) : State := set (set serving (Reg.lineBiasMon 3) 7) (Reg.monChOwner 7) owner

theorem wit_bias : (loop3 0).fresh.writes (req 1) 1 (Reg.lineBiasMode 3).ref = true ∧ (loop3 0).dev.get (Reg.lineBiasMon 3) = 7 ∧
    (loop3 0).dev.get (Reg.monChOwner 7) = 0 ∧ (loop3 (ownerSeq 1)).dev.get (Reg.monChOwner 7) ≠ 0 ∧ (loop3 (ownerSeq 1)).dev.get (Reg.monChOwner 7) ≠ ownerLoop 3 ∧
    (loop3 (ownerSeq 1)).fresh.writes (req 1) 1 (Reg.lineBiasMode 3).ref = true ∧ serving.dev.get (Reg.lineBiasMon 3) = 255 ∧
    (visited 64).dev.bias.visited = some 3 ∧ (visited 64).dev.mon.work = .visit ∧ (visited 64).dev.bias.conv.length = 64 ∧ (visited 63).dev.bias.conv.length < 64 ∧
    0 < (visited 0).dev.get Reg.lineBiasPeriods ∧ (visited 0).dev.get Reg.lineBiasPeriods ≤ (visited 0).dev.bias.ds.length := by decide +kernel

/-- Carrier 0's receive chain in a state and a stage. -/
def rx (st stage : Nat) : State := on (set serving (Reg.lineRxState 0) st) (fun d => { d with rx := d.rx.put 0 { d.rx.at 0 with stage := stage } })

theorem wit_receiver : serving.fresh.writes (req 1) 1 (Reg.lineRxEnable 0).ref = true ∧ rxEnableCheck 0 1 serving.dev = none ∧
    serving.dev.enginesNeeded.all (fun r => !serving.dev.asleep r) = true ∧ serving.dev.get (Reg.lineRxCauses 0) = 0 ∧
    (rxEnableCheck 0 1 (set serving Reg.fecMinIter 31).dev).isSome = true ∧ (set serving Reg.fecMinIter 31).fresh.writes (req 1) 1 (Reg.lineRxEnable 0).ref = true ∧
    serving.dev.loStays 0 = true ∧ (set serving (Reg.lineItlaUse 1) 2).dev.loStays 0 = false := by
  decide +kernel

theorem wit_causes : (List.range 7).all (fun k =>
      let s := if k = 4 then rx 3 7 else if k = 3 then rx 1 3 else if k = 2 then set (rx 1 2) (Reg.lineItlaUse 0) 2
        else if k = 5 then set (rx 1 2) (Reg.lineRxCdState 0) 1 else rx 1 2
      s.dev.get (Reg.lineRxState 0) != 0 && s.dev.causeMaySet 0 k && !bitAt (s.dev.get (Reg.lineRxCauses 0)) k) = true ∧
    bitAt ((set (rx 4 0) (Reg.lineRxCauses 0) 1).dev.get (Reg.lineRxCauses 0)) 0 = true ∧ (rx 4 0).dev.loReady 0 = true := by decide +kernel

/-- The carrier converges with its clock recovery in and out of lock. -/
def clock (v : Nat) : State := set (rx 2 5) (Reg.lineRxClockState 0) v

theorem wit_clock : (clock 1).dev.get (Reg.lineRxState 0) = 2 ∧ 5 ≤ ((clock 1).dev.rx.at 0).stage ∧ (clock 1).dev.get (Reg.lineRxClockState 0) = 1 ∧
    (clock 0).dev.get (Reg.lineRxState 0) = 2 ∧ 5 ≤ ((clock 0).dev.rx.at 0).stage ∧ (clock 0).dev.get (Reg.lineRxClockState 0) = 0 := by decide +kernel

/-- Carrier 0 with its start codes received and every equaliser in a state. -/
def equalised (stage eq : Nat) (resolved : List Nat) : State :=
  on (rx 2 stage) (fun d => ({ d with rx := d.rx.put 0 { d.rx.at 0 with resolved := resolved } }).each (List.range 16) (fun k x =>
    (x.set (Reg.lineRxLoad 0 k) 32).set (Reg.lineRxEqState 0 k) eq))

theorem wit_acquisition : (rx 1 1).dev.get (Reg.lineRxState 0) = 1 ∧ ((rx 1 1).dev.rx.at 0).stage = 1 ∧ (rx 1 1).dev.on (Reg.hubEnable 0) = false ∧
    levelsOk [100, 60, 200, 100] = true ∧ levelsOk [100, 59, 200, 100] = false ∧ (set (rx 1 1) (Reg.hubEnable 0) 1).dev.on (Reg.hubEnable 0) = true ∧
    ((set (rx 1 1) (Reg.hubEnable 0) 1).dev.rx.at 0).stage = 1 ∧ (set (rx 1 2) (Reg.lineRxCdState 0) 1).dev.get (Reg.lineRxCdState 0) = 1 ∧
    ((rx 1 2).dev.rx.at 0).stage = 2 ∧ ((rx 1 3).dev.rx.at 0).stage = 3 ∧ ((rx 2 4).dev.rx.at 0).stage = 4 ∧
    ((equalised 5 2 []).dev.rx.at 0).stage = 5 ∧ (equalised 5 2 []).dev.allDecision 0 = true ∧ ((equalised 6 2 (List.range 16)).dev.rx.at 0).stage = 6 ∧
    (equalised 6 2 (List.range 16)).dev.allDecision 0 = true ∧ (equalised 6 2 (List.range 16)).dev.allResolved 0 = true ∧ (rx 1 1).dev.dead = false ∧
    (rx 3 7).dev.get (Reg.lineRxState 0) = 3 := by decide +kernel

/-- Tracking and delineated, with subcarrier 2 suspected of a slip. -/
def slipped : State :=
  set (on (equalised 7 2 []) (fun d => { d with rx := d.rx.put 0 { d.rx.at 0 with suspect := [2] } })) (Reg.frmAlignState 0 0) 4

/-- Ratios of two codewords, and the group with them on hand. -/
def twoWords : List (Int × Nat × Nat) := List.replicate (2 * 38798) (1, 2, 0)
def onHand : State := on slipped (fun d => d.putRxg 0 0 { d.rxg 0 0 with ratios := twoWords })
def alignedHand : Device :=
  { onHand.dev with rx := onHand.dev.rx.put 0 { onHand.dev.rx.at 0 with offset := tblSet (onHand.dev.rx.at 0).offset 2 (onHand.dev.staticOffset 0 2 []) 0 } }

/-- Without symbols nothing is demapped. -/
theorem demap_none (d : Device) (c : Nat) : (d.demap c []).frm = d.frm := by
  have h : ∀ l : List Nat, l.filter (fun _ => false) = [] := fun l => List.filter_eq_nil_iff.mpr (fun _ _ => Bool.false_ne_true)
  unfold Device.demap Device.recover Device.phaseIn
  simp only [List.filter_nil, List.map_nil, List.any_nil, h, List.foldl_nil, Device.each]

theorem hand_ratios : (alignedHand.rxg 0 0).ratios = twoWords := by
  have h : (alignedHand.frm.at 0).rx = tblPut (slipped.dev.frm.at 0).rx 0 { slipped.dev.rxg 0 0 with ratios := twoWords } := rfl
  simp [Device.rxg, h, tblGetD, tblGet_put_same]

theorem hand_group : alignedHand.groupOfSc 0 2 = 0 := by decide +kernel
theorem hand_needs : alignedHand.ratiosNeeded 0 0 0 = 38798 := by decide +kernel
theorem turned_needs : ((alignedHand.turned 0 2 0).demap 0 []).ratiosNeeded 0 0 0 = 38798 := by decide +kernel

theorem turned_ratios : (((alignedHand.turned 0 2 0).demap 0 []).rxg 0 0).ratios = twoWords := by
  have h : ((alignedHand.turned 0 2 0).demap 0 []).frm = alignedHand.frm := demap_none _ _
  rw [← hand_ratios]
  simp only [Device.rxg, h]

theorem insert_some {α : Type} (lt : α → α → Bool) (x : α) (l : List α) : ∃ y, (insertBy lt x l).head? = some y := by
  cases l with
  | nil => exact ⟨x, rfl⟩
  | cons z r => unfold insertBy; split <;> exact ⟨_, rfl⟩

/-- Ratios enough for a codeword have their count of unsatisfied checks. -/
theorem word_found (d : Device) (c g skip : Nat) (rs : List (Int × Nat × Nat)) (h : (d.rxg c g).ratios.drop skip = rs)
    (h0 : d.ratiosNeeded c g ((rs.head?.map (·.2.2)).getD 0) ≠ 0) (hl : d.ratiosNeeded c g ((rs.head?.map (·.2.2)).getD 0) ≤ rs.length) :
    ∃ u, d.wordUnsatisfied c g skip = some u := by
  unfold Device.wordUnsatisfied
  rw [h]
  exact ⟨_, if_neg (by omega)⟩

/-- One rotation with such a count is enough. -/
theorem turn_found (d : Device) (c sc skip : Nat) (samples : List (Nat × List Sym))
    (h : (if (d.rxg c (d.groupOfSc c sc)).ratios.isEmpty then 0
      else d.ratiosNeeded c (d.groupOfSc c sc) (((d.rxg c (d.groupOfSc c sc)).ratios.head?.map (·.2.2)).getD 0)) = skip)
    (u : Nat) (hu : ((d.turned c sc 0).demap c samples).wordUnsatisfied c (d.groupOfSc c sc) skip = some u) :
    ∃ turn, d.bestTurn c sc samples = some turn := by
  unfold Device.bestTurn
  simp only [h, show List.range 4 = 0 :: [1, 2, 3] from rfl, List.filterMap_cons, hu, Option.map_some, sortBy]
  obtain ⟨y, hy⟩ := insert_some (α := Nat × Nat) (fun a b => !decide (b.2 < a.2)) (0, u) (sortBy (fun a b => decide (a.2 < b.2)) _)
  exact ⟨y.1, by rw [hy, Option.map_some]⟩

theorem wit_turn : ∃ turn, alignedHand.bestTurn 0 2 [] = some turn := by
  have hh : twoWords.head? = some (1, 2, 0) := by rw [twoWords, List.head?_replicate, if_neg (by decide)]
  have he : twoWords.isEmpty = false := by rw [twoWords, List.isEmpty_replicate]; decide
  have hd : (twoWords.drop 38798) = List.replicate 38798 (1, 2, 0) := by rw [twoWords, List.drop_replicate]
  have h1 : (List.replicate 38798 ((1, 2, 0) : Int × Nat × Nat)).head? = some (1, 2, 0) := by rw [List.head?_replicate, if_neg (by decide)]
  obtain ⟨u, hu⟩ := word_found ((alignedHand.turned 0 2 0).demap 0 []) 0 0 38798 _ (by rw [turned_ratios, hd])
    (by rw [h1, Option.map_some, Option.getD_some, turned_needs]; decide)
    (Nat.le_of_eq (by rw [h1, Option.map_some, Option.getD_some, turned_needs, List.length_replicate]))
  refine turn_found alignedHand 0 2 38798 [] ?_ u (by rw [hand_group]; exact hu)
  rw [hand_group, hand_ratios, hh, Option.map_some, Option.getD_some, hand_needs, if_neg (by rw [he]; exact Bool.false_ne_true)]

theorem wit_quadrants : (slipped.dev.quadrantsWaiting 0).head? = some 2 ∧ (onHand.dev.quadrantsWaiting 0).head? = some 2 ∧
    (slipped.dev.rx.at 0).suspect.contains 2 = true ∧ slipped.dev.bestTurn 0 2 [] = none := by decide +kernel

theorem wit_loops : (set (rx 3 7) (Reg.lineRxCdState 0) 3).dev.get (Reg.lineRxCdState 0) = 3 ∧ (equalised 7 2 []).dev.get (Reg.lineRxLoad 0 2) ≠ 0 ∧
    (equalised 7 2 []).dev.get (Reg.lineRxEqState 0 2) = 2 ∧ 6 ≤ ((equalised 7 2 []).dev.rx.at 0).stage ∧
    ((equalised 7 2 []).dev.rx.at 0).suspect.contains 2 = false := by decide +kernel

/-- Group 0 of carrier 0 in Sync. -/
def sync : State := set serving (Reg.frmAlignState 0 0) 4

/-- A REQ for table 5 with every code 0, LEAD 1000 ms. -/
def request : BitVec 512 := 0x105000003e800000000000000000000000000000000000000000000000000000000000000000000000000000000000000000000000000000000000000000000

/-- The transmitter of carrier 0 accepts requests. -/
def accepts : State := set (set sync (Reg.lineTxState 0) 3) (Reg.lineLoadAccept 0) 1

/-- The action it asks for. -/
def switchAsked : Action :=
  { newAction (accepts.dev.lineKind 0) .line 2 0 (fuToTime96 (accepts.fresh.afterGap.now + lmLead request.toNat * fuMs)) 0 with
    args := [0, lmTable request.toNat] ++ lmCodes request.toNat, acceptAt := accepts.fresh.afterGap.now }

theorem wit_requests : accepts.dev.isLate switchAsked = false ∧ bakeFu switchAsked ≤ accepts.fresh.afterGap.now + accepts.dev.get Reg.schedMaxAhead * fuSec ∧
    accepts.dev.loadCarrier 0 = 0 ∧ sync.dev.takesControl 0 0 request.toNat = true ∧ (sync.dev.reqRefused (sync.dev.loadCarrier 0) request.toNat).isSome = true ∧
    accepts.dev.takesControl 0 0 request.toNat = true ∧ accepts.dev.reqRefused (accepts.dev.loadCarrier 0) request.toNat = none ∧
    accepts.dev.deviceUsed < 256 ∧ accepts.dev.switchActions (accepts.dev.loadCarrier 0) = [] ∧ (accepts.dev.frm.at 0).txTable = 0 ∧
    ((on accepts (fun d => { d with frm := d.frm.put 0 { d.frm.at 0 with txTable := 5 } })).dev.frm.at 0).txTable ≠ 0 := by decide +kernel

/-- A proposal of table 5 out on carrier 0. -/
def proposed (mode : Nat) : State :=
  set (on (equalised 7 2 []) (fun d => ({ d with rx := d.rx.put 0 { d.rx.at 0 with outstanding := some ⟨5, List.replicate 16 40⟩ } }).set (Reg.frmAlignState 0 0) 4))
    (Reg.lineLoadMode 0) mode

theorem wit_proposals : (proposed 0).dev.loadCarrier 0 = 0 ∧ ((proposed 0).dev.rx.at 0).outstanding.map (·.table) = some (lmTable request.toNat) ∧
    (proposed 0).dev.takesControl 0 0 request.toNat = true ∧ ((proposed 0).dev.rxReference 0).isSome = true ∧ (proposed 0).dev.get (Reg.lineLoadMode 0) ≠ 1 ∧
    (proposed 0).dev.dead = false ∧ ((proposed 0).dev.rx.at 0).acked = none ∧
    lmTable (request + 2 ^ 496).toNat ≠ 5 ∧ (proposed 0).dev.takesControl 0 0 (request + 2 ^ 496).toNat = true := by decide +kernel

/-- Carrier 0 measures a good SNR on subcarrier 2. -/
def upgrade : State := set (set (set (equalised 7 2 []) (Reg.lineLoadMode 0) 1) (Reg.lineRxSnr 0 2) 2500) (Reg.lineLoadAccept 0) 1

theorem wit_tables : upgrade.dev.dead = false ∧ upgrade.dev.on (Reg.hubEnable 0) = false ∧ upgrade.dev.on Reg.frmBondMode = false ∧
    upgrade.dev.get (Reg.lineLoadMode 0) = 1 ∧ (upgrade.dev.rx.at 0).outstanding = none ∧ (upgrade.dev.rx.at 0).dueDown = [] ∧ upgrade.dev.extraDue 0 = [] ∧
    upgrade.dev.dueUp 0 2 = true ∧ (set upgrade (Reg.lineLoadMode 0) 0).fresh.writes (req 1) 1 (Reg.lineLoadPropose 0).ref = true ∧
    (set upgrade (Reg.lineLoadMode 0) 0).dev.get (Reg.lineLoadMode 0) ≠ 1 := by decide +kernel

/-- Every group of carrier 0 has LOF. -/
def lof : State := on (equalised 7 2 []) (fun d => d.each (d.groups 0) (fun g x => x.putRxg 0 g { x.rxg 0 g with raw := 4 }))

/-- Carrier 0 sends in two groups, codes on subcarriers 2 and 9; its reference group is 0. -/
def twoGroups : State := set (set (set (set serving (Reg.frmGroups 0) 0x0101) (Reg.lineTxState 0) 3) (Reg.lineTxLoad 0 2) 32) (Reg.lineTxLoad 0 9) 32

/-- The switch of carrier 0 to table 5 fires. -/
def switch : Action := due 2 0 0 ([0, 5] ++ List.replicate 16 40) false

theorem wit_fallback : lof.dev.dead = false ∧ lof.dev.on (Reg.hubEnable 0) = false ∧ lof.dev.loadCarrier 0 = 0 ∧ (lof.dev.loadCarriers 0).all lof.dev.lofOrLos = true ∧
    lof.dev.switchActions 0 = [] ∧ lof.dev.deviceUsed < 256 ∧ serving.dev.lofOrLos 0 = false ∧
    (firing switch serving).dev.fires 9 switch 2 ∧ switch.target = 0 ∧ (firing switch serving).dev.on Reg.frmBondMode = false ∧
    (firing switch twoGroups).dev.fires 9 switch 2 ∧ twoGroups.dev.groups 0 = [0, 8] ∧ twoGroups.dev.txReference 0 = some 0 ∧ twoGroups.dev.get (Reg.lineTxState 0) ≠ 0 ∧
    (twoGroups.dev.groupScs 0 8).all (fun k => twoGroups.dev.get (Reg.lineTxLoad 0 k) == 0) = false := by decide +kernel


/-- Carrier 0 Tracking at device time 10^12, with decoder slots. -/
def pooled (slots : List (Nat × Codeword)) : State := on (set (rx 3 7) Reg.fecMinIter 4) (fun d => { d with now := 10 ^ 12, fec := { d.fec with slots := slots } })

/-- Codeword num of carrier c under code 0, without ratios. -/
def word (num c ready placed : Nat) : Codeword := ⟨num, c, 0, 3, 0, [32], 0, ready, placed, [], none⟩

/-- One core of the pool active, its four slots taken at a time, by words of carrier 1, which tracks too. -/
def full (placed : Nat) : State := set (set (pooled ((List.range 4).map (fun k => (k, word k 1 0 placed)))) Reg.pwrFecActive 1) (Reg.lineRxState 1) 3

/-- The ratios of one codeword are on hand. -/
def oneWord (s : State) : State := on s (fun d => d.putRxg 0 0 { d.rxg 0 0 with ratios := List.replicate 38798 (1, 2, 0) })

/-- Codeword 7 of group 0, no new symbols. -/
def ready7 : ReadyWord := ⟨0, 0, 7, []⟩

/-- Ratios enough for a codeword give one. -/
theorem ready_found (d : Device) (r : ReadyWord) (rs : List (Int × Nat × Nat)) (hb : d.openBurst r.c r.g = none)
    (h : ((d.demap r.c r.samples).rxg r.c r.g).ratios = rs)
    (h0 : (d.demap r.c r.samples).ratiosNeeded r.c r.g ((rs.head?.map (·.2.2)).getD 0) ≠ 0)
    (hl : (d.demap r.c r.samples).ratiosNeeded r.c r.g ((rs.head?.map (·.2.2)).getD 0) ≤ rs.length) :
    ∃ w x, d.nextWord r = (some w, x) ∧ w.num = r.num := by
  unfold Device.nextWord
  simp only [hb]
  unfold Device.takeWord
  simp only [h]
  rw [if_neg (by omega)]
  exact ⟨_, _, rfl, rfl⟩

theorem one_ratios (s : State) : ((oneWord s).dev.rxg 0 0).ratios = List.replicate 38798 (1, 2, 0) := by
  have h : ((oneWord s).dev.frm.at 0).rx = tblPut (s.dev.frm.at 0).rx 0 { s.dev.rxg 0 0 with ratios := List.replicate 38798 (1, 2, 0) } := rfl
  simp only [Device.rxg, h, tblGetD, tblGet_put_same, Option.getD_some]

theorem one_found (s : State) (hb : (oneWord s).fresh.openBurst 0 0 = none) (hn : (((oneWord s).fresh).demap 0 []).ratiosNeeded 0 0 0 = 38798) :
    ∃ w x, (oneWord s).fresh.nextWord ready7 = (some w, x) ∧ w.num = 7 := by
  have hd : (((oneWord s).fresh).demap 0 []).frm = (oneWord s).dev.frm := demap_none _ _
  have hr : ((((oneWord s).fresh).demap 0 []).rxg 0 0).ratios = List.replicate 38798 (1, 2, 0) := by
    rw [← one_ratios s]
    simp only [Device.rxg, hd]
  have h1 : (List.replicate 38798 ((1, 2, 0) : Int × Nat × Nat)).head? = some (1, 2, 0) := by rw [List.head?_replicate, if_neg (by decide)]
  refine ready_found (oneWord s).fresh ready7 _ hb hr ?_ ?_
  · rw [h1, Option.map_some, Option.getD_some]
    show (((oneWord s).fresh).demap 0 []).ratiosNeeded 0 0 0 ≠ 0
    rw [hn]; decide
  · rw [h1, Option.map_some, Option.getD_some, List.length_replicate]
    show (((oneWord s).fresh).demap 0 []).ratiosNeeded 0 0 0 ≤ 38798
    exact Nat.le_of_eq hn

theorem wit_readyWords : (∃ w x, (oneWord (pooled [])).fresh.nextWord ready7 = (some w, x) ∧ w.num = 7) ∧
    (∃ w x, (oneWord (full 0)).fresh.nextWord ready7 = (some w, x) ∧ w.num = 7) ∧
    ∃ w x, (oneWord (full (10 ^ 12))).fresh.nextWord ready7 = (some w, x) ∧ w.num = 7 :=
  ⟨one_found _ (by decide +kernel) (by decide +kernel), one_found _ (by decide +kernel) (by decide +kernel), one_found _ (by decide +kernel) (by decide +kernel)⟩

theorem wit_firstWord : ∃ w, (oneWord (pooled [])).fresh.readyWords [ready7] = (((oneWord (pooled [])).fresh.readyWords [ready7]).1, [w]) := by
  obtain ⟨w, x, h, -⟩ := wit_readyWords.1
  have hp : ((oneWord (pooled [])).fresh.passesSoft ready7.c && bitAt ((oneWord (pooled [])).fresh.groupMask ready7.c) ready7.g) = true := by decide +kernel
  refine ⟨w, ?_⟩
  unfold Device.readyWords
  simp only [hp, h, if_true, Device.readyWords]

theorem wit_placement : (oneWord (pooled [])).dev.passesSoft 0 = true ∧ bitAt ((oneWord (pooled [])).dev.groupMask 0) 0 = true ∧
    (oneWord (pooled [])).dev.freeSlot = some 0 ∧ (oneWord (pooled [])).dev.fec.held = [] ∧ 0 < (oneWord (pooled [])).dev.get Reg.fecMinIter ∧
    (oneWord (full 0)).dev.freeSlot = none ∧ (oneWord (full 0)).dev.bestVictim (oneWord (full 0)).dev.victims = some (0, word 0 1 0 0) ∧
    (oneWord (full 0)).dev.passesSoft 1 = true ∧ (oneWord (full (10 ^ 12))).dev.freeSlot = none ∧ (oneWord (full (10 ^ 12))).dev.victims = [] := by decide +kernel

/-- A codeword held while a slot is free, and one whose cut-off comes while it is held. -/
def held : State := on (pooled []) (fun d => { d with fec := { d.fec with held := [word 9 0 (10 ^ 12) 0] } })

theorem lifted_nil (ov col j : Nat) : liftedBit ov [] col j = false := by unfold liftedBit; simp

/-- A fold that its start passes through unchanged. -/
theorem foldl_fixed {α β : Type} (f : β → α → β) (b : β) (h : ∀ a, f b a = b) : ∀ l : List α, l.foldl f b = b
  | [] => rfl
  | a :: l => by rw [List.foldl_cons, h a]; exact foldl_fixed f b h l

/-- The word of zeros satisfies every check. -/
theorem checks_nil (ov r j : Nat) : checkHolds ov [] r j = true := by
  unfold checkHolds
  rw [foldl_fixed]
  · rfl
  · intro a
    split
    · rw [lifted_nil]; rfl
    · rfl

/-- Such a codeword converges at once. -/
theorem word_converges (num c ready placed n : Nat) : convergedAt (word num c ready placed).overhead (word num c ready placed).codes (word num c ready placed).place
    (word num c ready placed).llrs n = some 0 := by
  have h : leftAfter 0 [32] 0 [] 0 = 0 := by
    have h1 : equationWord 0 [32] 0 (decisions 0 [32] 0 [] 0) = [] := by decide
    unfold leftAfter unsatisfied
    rw [h1, List.filter_eq_nil_iff.mpr (fun e _ => by rw [checks_nil]; exact Bool.false_ne_true)]
    rfl
  show (List.range (n + 1)).find? (fun k => leftAfter 0 [32] 0 [] k == 0) = some 0
  rw [List.range_succ_eq_map, List.find?_cons_of_pos]
  rw [h]; rfl

/-- When it stops: Converged, unless its cut-off has come before its first iteration. -/
theorem word_stops (d : Device) (num c ready placed : Nat) :
    let w := word num c ready placed
    d.stopDue w = if iterEnd w 0 ≤ cutoffAt w then (iterEnd w 0, 0, 0) else (cutoffAt w, 2, (cutoffAt w - iterEnd w 0) / (iterTime8 w.overhead * fuEighth)) := by
  unfold Device.stopDue
  simp only [word_converges]

/-- A codeword placed in time in slot 5, and one placed too late. -/
def inTime : State := pooled [(5, word 9 0 (10 ^ 12) (10 ^ 12))]
def lateWord : Codeword := word 9 0 (10 ^ 12) (10 ^ 12 + (deadlineNs 0 - 100) * fuNs)
def tooLate : State := pooled [(5, lateWord)]

theorem wit_stops : tblGet inTime.dev.fec.slots 5 = some (word 9 0 (10 ^ 12) (10 ^ 12)) ∧ inTime.dev.get (Reg.fecMaxIter 0) ≤ 64 ∧ inTime.dev.passesSoft 0 = true ∧
    (inTime.dev.stopDue (word 9 0 (10 ^ 12) (10 ^ 12))).2.1 ≠ 2 ∧ inTime.dev.comes (inTime.dev.stopDue (word 9 0 (10 ^ 12) (10 ^ 12))).1 = true ∧
    tooLate.dev.fec.slots.find? (fun e => e.2.num == lateWord.num) = some (5, lateWord) ∧
    (tooLate.dev.stopDue lateWord).2.1 = 2 ∧ tooLate.dev.comes (tooLate.dev.stopDue lateWord).1 = true := by
  rw [word_stops, lateWord, word_stops]
  decide +kernel

/-- Codeword 9 of an aligned group has converged. -/
def stopped : State := on (set (pooled []) (Reg.frmAlignState 0 0) 4) (fun d => { d with fec := { d.fec with stopped := [⟨word 9 0 (10 ^ 12) 0, 0, 0⟩] } })

theorem wit_decoding : held.dev.fec.held = [word 9 0 (10 ^ 12) 0] ∧ held.dev.freeSlot = some 0 ∧ 0 < held.dev.get Reg.fecMinIter ∧
    held.dev.fec.slots.find? (fun e => e.2.num == 9) = none ∧ held.dev.comes (cutoffAt (word 9 0 (10 ^ 12) 0)) = true ∧
    stopped.dev.fec.stopped.find? (fun y => y.word.num == 9) = some ⟨word 9 0 (10 ^ 12) 0, 0, 0⟩ ∧ stopped.dev.comes (deliveryAt (word 9 0 (10 ^ 12) 0)) = true ∧
    stopped.dev.passesSoft 0 = true ∧ 2 ≤ stopped.dev.get (Reg.frmAlignState 0 0) ∧ bitAt (stopped.dev.groupMask 0) 0 = true := by decide +kernel

/-- A window of 1 ms of carrier 1 with 3 errors in 200 bits over 2 codewords, at an end of windows. -/
def windowed : State := on (set serving (Reg.fecBerWindow 1) 1) (fun d => { d with now := 10 ^ 12, fec := { d.fec with ms := 999, win := d.fec.win.put 1 { d.fec.win.at 1 with errors := 3, bits := 200, words := 2, iters := 14 } } })

theorem wit_windows : windowed.dev.dead = false ∧ 0 < (windowed.dev.fec.win.at 1).bits ∧ 0 < (windowed.dev.fec.win.at 1).words ∧
    windowed.dev.comes (nextMultiple (windowed.dev.get (Reg.fecBerWindow 1) * fuMs) (windowed.dev.fec.win.at 1).start) = true ∧
    serving.dev.comes (nextMultiple (serving.dev.get (Reg.fecBerWindow 1) * fuMs) (serving.dev.fec.win.at 1).start) = false ∧
    roundDiv (3 * 10 ^ 10) 200 < 0xFFFFFFFF ∧ roundDiv (100 * 14) 2 < 65536 ∧ (serving.dev.fec.win.at 1).bits = 0 ∧ 1000 ≤ windowed.dev.fec.ms + 1 ∧
    serving.dev.fec.ms + 1 < 1000 ∧ (serving.dev.fec.win.at 1).msBits = 0 := by decide +kernel

/-- Group 0 of carrier 0 in an alignment state. -/
def aligned (a : Nat) (f : RxGroup → RxGroup) : State := on (set serving (Reg.frmAlignState 0 0) a) (fun d => d.putRxg 0 0 (f (d.rxg 0 0)))

/-- Carrier 0 sends, with a frame under way in group 0 and a table that waits for its end. -/
def sendingFrame : State :=
  on (set (set serving (Reg.lineTxState 0) 3) (Reg.lineTxLoad 0 0) 32) (fun d => d.putTxg 0 0 { d.txg 0 0 with
    sending := some { count := 4, tick := 1, stamp := 0, ais := false, rdi := false, keys := [] }, due := some (5, List.replicate 16 40) })

/-- A pending action on C1's line frame. -/
def onC1 : State := on serving (fun d => { d with sched := { d.sched with actions := [{ newAction .lineC1 .host 2 0x10 0 0 with handle := 9 }] } })

theorem wit_frames : (set serving (Reg.lineTxState 0) 3).dev.get (Reg.lineTxState 0) ≠ 0 ∧ bitAt (serving.dev.groupMask 0) 0 = true ∧
    serving.dev.now ≤ 5 ∧ 5 < nextMultiple fuCycle serving.dev.now ∧ 0 ∈ serving.dev.groupScs 0 0 ∧ (set serving (Reg.lineTxLoad 0 0) 32).dev.get (Reg.lineTxLoad 0 0) ≠ 0 ∧
    (set serving (Reg.lineTxLoad 0 0) 32).dev.get (Reg.lineTxState 1) = 0 ∧ ((set serving (Reg.lineTxState 0) 3).dev.txg 0 0).due = none ∧
    (sendingFrame.dev.txg 0 0).sending.isSome = true ∧ (sendingFrame.dev.txg 0 0).due = some (5, List.replicate 16 40) ∧ sendingFrame.dev.dacOut 0 ≠ 0 ∧
    (aligned 1 id).dev.get (Reg.frmAlignState 0 0) = 1 ∧ serving.dev.dead = false ∧ serving.dev.get (Reg.frmAlignState 0 0) ≠ 1 ∧
    (aligned 2 (fun g => { g with hunted := 64 })).dev.get (Reg.frmAlignState 0 0) = 2 ∧ 64 ≤ ((aligned 2 (fun g => { g with hunted := 64 })).dev.rxg 0 0).hunted ∧
    onC1.fresh.writes (req 1) 1 Reg.frmBondMode.ref = true ∧ bondCheck 1 onC1.dev = none ∧
    onC1.dev.sched.actions.map (·.kind) = [.lineC1] ∧ (bondCheck 1 (set serving (Reg.lineTxState 0) 3).dev).isSome = true := by decide +kernel

/-- A header of block b. -/
def header (b : Nat) : Nat := withHcrc (b * 2 ^ 124)

/-- A block with a header, in a group's queue. -/
def blockOf' (h : Nat) : RxBlock := ⟨h :: List.replicate 255 0, false, false, false, false⟩
def queued (a h : Nat) (f : RxGroup → RxGroup) : State := aligned a (fun g => f { g with blocks := [blockOf' h] })

theorem wit_rxBlocks : bitAt ((queued 2 (header 3) id).dev.groupMask 0) 0 = true ∧ ((queued 2 (header 3) id).dev.rxg 0 0).blocks = [blockOf' (header 3)] ∧
    (queued 2 (header 3) id).dev.get (Reg.frmAlignState 0 0) = 2 ∧
    hcrcOk (header 3) = true ∧ hcrcOk (header 3 ^^^ 1) = false ∧ bhBlock (header 3) = 3 ∧ bhBlock (header 0) = 0 ∧ bhTable (header 0) = 0 ∧
    ((queued 3 (header 3) (fun g => { g with expect := 3, okRun := 1 })).dev.rxg 0 0).expect = 3 ∧
    ((queued 3 (header 0) (fun g => { g with expect := 0, okRun := 1 })).dev.rxg 0 0).table = 0 ∧
    1 + 1 < (set (aligned 3 id) (Reg.frmDelta 0) 4).dev.get (Reg.frmDelta 0) ∧ (set (aligned 3 id) (Reg.frmDelta 0) 2).dev.get (Reg.frmDelta 0) ≤ 1 + 1 ∧
    (queued 4 (header 3) (fun g => { g with expect := 3 })).dev.get (Reg.frmAlignState 0 0) = 4 ∧
    ((queued 4 (header 3) (fun g => { g with expect := 3, badTable := true })).dev.rxg 0 0).badTable = true ∧ 0 < serving.dev.get (Reg.frmOofBad 0) := by decide +kernel

/-- Out of frame since FRM_LOF_SET. -/
def outOfFrame : State := aligned 2 (fun g => { g with raw := 2 })

/-- Subcarrier 3 of carrier 0 undecided. -/
def undecided : State := rx 3 7

/-- Subcarrier 3 excluded, the probe time 5. -/
def excluded : State := on (set (set (rx 3 7) (Reg.frmScProbe 0) 5) (Reg.lineLoadMode 0) 1) (fun d => { d with rx := d.rx.put 0 { d.rx.at 0 with excluded := [3] } })

theorem wit_expiries : outOfFrame.dev.dead = false ∧ bitAt (outOfFrame.dev.rxg 0 0).raw 1 = true ∧ outOfFrame.dev.rxEmpty 0 0 = false ∧
    bitAt (outOfFrame.dev.groupMask 0) 0 = true ∧ bitAt (outOfFrame.dev.rxg 0 0).raw 0 = false ∧ bitAt (outOfFrame.dev.rxg 0 0).raw 2 = false ∧
    bitAt (serving.dev.rxg 0 0).raw 1 = false ∧ (aligned 4 (fun g => { g with raw := 4 })).dev.get (Reg.frmAlignState 0 0) = 4 ∧
    bitAt ((aligned 4 (fun g => { g with raw := 4 })).dev.rxg 0 0).raw 2 = true ∧
    undecided.dev.get (Reg.lineRxLoad 0 3) ≠ 0 ∧ undecided.dev.get (Reg.lineRxEqState 0 3) ≤ 1 ∧ undecided.dev.get (Reg.lineRxState 0) = 3 ∧
    bitAt (undecided.dev.get (Reg.frmScLost 0)) 3 = false ∧ excluded.dev.on Reg.frmBondMode = false ∧ (excluded.dev.rx.at 0).excluded.contains 3 = true ∧
    excluded.dev.get (Reg.lineLoadMode 0) = 1 ∧ excluded.dev.get (Reg.frmScProbe 0) ≠ 0 ∧ excluded.dev.on (Reg.hubEnable 0) = false ∧
    (excluded.dev.rx.at 0).outstanding = none ∧ bitAt (excluded.dev.get (Reg.frmScLost 0)) 3 = false := by decide +kernel


theorem wit_actions : ∀ w ∈ ([
    ⟨.fabMapSwap (req 2) ⟨2, 7⟩, 1, Reg.fabMapSwap, ⟨2, 7⟩, .calendar, 1, [], [], true⟩,
    ⟨.hubDsCode (req 2) 0 3 ⟨1, 24⟩, 1, Reg.hubDsCode 0 3, ⟨1, 24⟩, serving.dev.lineKind 0, 2, [resHubPath 0 3 0], [], codeOk 24⟩,
    ⟨.hubGrantTable (req 2) 0 ⟨1, 1⟩, 1, Reg.hubGrantTable 0, ⟨1, 1⟩, serving.dev.lineKind 0, 10, (serving.dev.grantsNext 0).map (fun r => resHubPath 0 (grSc r) 1), [], true⟩,
    ⟨.lanePortEnable (req 2) 0 ⟨1, 0⟩, 1, Reg.lanePortEnable 0, ⟨1, 0⟩, .calendar, 8, serving.dev.portNeeds 0 0, [], true⟩,
    ⟨.laneFlexeApply (req 2) ⟨2, 1⟩, 1, Reg.laneFlexeApply, ⟨2, 1⟩, .calendar, 8, [], [], true⟩,
    ⟨.monSeqRunStart (req 2) 0, 1, Reg.monSeqRun 0, ⟨1, 1⟩, .calendar, 8, [], [], true⟩,
    ⟨.monSeqRunStop (req 2) 0, 1, Reg.monSeqRun 0, ⟨1, 0⟩, .calendar, 8, [], [], true⟩,
    ⟨.telGrpDump (req 2) 0 ⟨1, 1⟩, 1, Reg.telGrpDump 0, ⟨1, 1⟩, .calendar, 5, [], [0], true⟩,
    ⟨.telSweepStart (req 2) 0 ⟨1, 1⟩, 1, Reg.telSweepStart 0, ⟨1, 1⟩, .calendar, 8, [], [], true⟩,
    ⟨.timeForce (req 2) ⟨1, 3⟩, 1, Reg.timeForce, ⟨1, 3⟩, .pps, 4, [], [], true⟩,
    ⟨.timeLoopMode (req 2) ⟨1, 1⟩, 1, Reg.timeLoopMode, ⟨1, 1⟩, .pps, 8, [], [], true⟩,
    ⟨.secCgApply (req 2) ⟨2, 1⟩, 2, Reg.secCgApply, ⟨2, 1⟩, .calendar, 8, [], [], true⟩,
    ⟨.secRoll (req 2) ⟨1, 0⟩, 2, Reg.secRoll, ⟨1, 0⟩, serving.dev.lineKind (serving.dev.pairCarrier 0), 3, [], [], true⟩,
    ⟨.secErase (req 2) ⟨1, 0⟩, 2, Reg.secErase, ⟨1, 0⟩, serving.dev.lineKind (serving.dev.pairCarrier 0), 3, [], [], Req.bake (req 2) == 0⟩,
    ⟨.pwrImgSwitch (req 2) ⟨1, 1⟩, 2, Reg.pwrImgSwitch, ⟨1, 1⟩, .pps, 6, [], [], true⟩] : List RwsWrite),
    serving.reaches (req 2) w ∧ serving.dev.isLate (serving.planned (req 2) w) = false := by decide +kernel

/-- A write for a device time past, late policy 0. -/
def late : Req := { req 2 with late := 1, bake := 0x1000000000 }

/-- The device two seconds on. -/
def later : State := on serving (fun d => { d with now := 2 * fuSec })

theorem wit_late :
    let w : RwsWrite := ⟨.telGrpDump late 0 ⟨1, 1⟩, 1, Reg.telGrpDump 0, ⟨1, 1⟩, .calendar, 5, [], [0], true⟩
    later.reaches late w ∧ later.dev.isLate (later.planned late w) = true ∧ (later.planned late w).late1 = false ∧ serving.dev.journals = false := by
  decide +kernel

/-- A PORT_SIZES record, and one that sets a range of one slot. -/
def sizes : BitVec 192 := BitVec.ofNat 192 (4 * 2 ^ 184 + 2 ^ 176 + 8 * 2 ^ 72 + 8 * 2 ^ 48)

/-- A record of an operation with PORT 1 and nothing else. -/
def edit (op : Nat) : BitVec 192 := BitVec.ofNat 192 (op * 2 ^ 184 + 2 ^ 176)

/-- Two copies that differ: in slot 5 of port 1 of the next bank, and of the active one. -/
def upsets : State := on serving (fun d => { d with fab := { d.fab with upsets := [⟨true, 1, slotKey 1 5, 3, false⟩, ⟨false, 1, slotKey 1 5, 3, false⟩] } })

theorem wit_edits : serving.fresh.writes (req 1) 1 Reg.fabMapNext.ref = true ∧ editOp sizes.toNat = 4 ∧ editOk sizes.toNat = true ∧
    (applyEdit sizes.toNat serving.fresh.editBase).entries.length ≤ 655360 ∧ editOp (edit 3 ||| 1 <<< 94).toNat = 3 ∧ serving.dev.journals = false ∧
    editOk (BitVec.ofNat 192 (2 ^ 184 + 200 * 2 ^ 176)).toNat = false ∧ editOp (BitVec.ofNat 192 (2 ^ 184 + 200 * 2 ^ 176)).toNat = 1 ∧
    serving.fresh.writes (req 1) 1 Reg.fabMapRevert.ref = true ∧ (set serving Reg.fabMapNextState 1).dev.get Reg.fabMapNextState = 1 ∧
    (∀ a ∈ (set serving Reg.fabMapNextState 1).dev.sched.actions, a.held = false) := by decide +kernel

/-- A swap armed for now, its pass to come. -/
def swapArmed : State := firing (due 1 0 7 [] true) (set serving Reg.fabMapNextState 2)

/-- The same with an entry in the next bank from an input port that is not there. -/
def swapBad : State := on swapArmed (fun d => { d with fab := { d.fab with next := { d.fab.next with entries := [(0x01000000, ⟨1, 5, 1, 0, 0, 0⟩)] } } })

/-- One copy of slot 5 of port 1 differs, or two do. -/
def oneCopy : List Upset := [⟨true, 1, slotKey 1 5, 3, false⟩]
def twoCopies : List Upset := [⟨true, 1, slotKey 1 5, 3, false⟩, ⟨true, 2, slotKey 1 5, 5, false⟩]

/-- The swap has passed. -/
def swapPassed : State := on swapArmed (fun d => { d with fab := { d.fab with passed := true } })

theorem wit_swaps : swapArmed.dev.action? 9 = some (due 1 0 7 [] true) ∧ (due 1 0 7 [] true).armed ≠ none ∧ swaps (due 1 0 7 [] true) = true ∧
    swapArmed.dev.fab.passed = false ∧ swapArmed.dev.get Reg.fabMapNextState = 2 ∧ swapArmed.dev.fab.upsets = [] ∧
    (let v := (swapArmed.fresh.upset oneCopy).voteBank true (fun _ => true); v.1.passVerdict v.2 v.1.fab.next = none) ∧
    (let v := (swapArmed.fresh.upset twoCopies).voteBank true (fun _ => true); v.1.passVerdict v.2 v.1.fab.next = some (failWord 8 1 5 0)) ∧
    (let v := (swapBad.fresh.upset []).voteBank true (fun _ => true); (v.1.passVerdict v.2 v.1.fab.next).isSome = true) ∧
    (due 1 0 7 [] true).cls = 1 ∧ swapMember (due 1 0 7 [] true) = none ∧
    swapBad.dev.action? 9 = some (due 1 0 7 [] true) ∧ swapBad.dev.fab.passed = false ∧ swapBad.dev.get Reg.fabMapNextState = 2 ∧
    (∀ x ∈ swapBad.dev.sched.actions, x.held = false ∧ (x.handle = 9 → x = due 1 0 7 [] true)) ∧
    swapPassed.dev.fab.passed = true ∧ swapPassed.dev.fires 9 (due 1 0 7 [] true) 1 ∧ swapPassed.dev.get Reg.fabMapNextState = 2 ∧ swapArmed.dev.dead = false := by
  decide +kernel

/-- Group 5 monitored, protected as prot says, its working point and its state changed. -/
def group (prot : Nat) (w : MonPoint → MonPoint) (f : GroupState → GroupState) : State :=
  on serving (fun d => { d with fab := { d.fab with
    active := { (d.fab.active.setGroup 5 { groupRecDefault with prot := prot }) with entries := [(0x01000000, ⟨1, 5, 1, 0, 0, 0⟩)] },
    states := [(5, f { groupNew with w := w pointNew, p := pointNew })] } })

theorem wit_points : (group 1 id id).dev.dead = false ∧ ((group 1 id id).dev.grp 5).w.align ≠ 0 ∧ bitAt ((group 1 id id).dev.grp 5).w.raw 0 = true ∧
    ((group 1 (fun p => { p with align := 3, raw := 2 }) id).dev.grp 5).w.align = 3 ∧
    bitAt ((group 1 (fun p => { p with align := 3, raw := 2 }) id).dev.grp 5).w.raw 1 = true ∧ ((group 1 (fun p => { p with align := 0 }) id).dev.grp 5).w.align = 0 ∧
    bitAt ((group 1 id (fun g => { g with holding := 3 })).dev.grp 5).holding 0 = true ∧ bitAt ((group 1 id (fun g => { g with holding := 3 })).dev.grp 5).holding 1 = true ∧
    bitAt ((group 1 id id).dev.grp 5).holding 0 = false ∧ ((group 1 id (fun g => { g with wtr := true })).dev.grp 5).wtr = true ∧
    ((group 1 id id).dev.grp 5).wtr = false := by decide +kernel

theorem wit_protection : (group 1 id id).fresh.writes (req 1) 1 Reg.fabPgCmd.ref = true ∧ ((group 1 id id).dev.fab.active.group 5).prot ≠ 0 ∧
    (group 1 id id).dev.fab.active.members 5 ≠ [] ∧ requestInForce ((group 1 id id).dev.grp 5) = 0 ∧ ((group 1 id id).dev.grp 5).reqs = 0 ∧
    0 < requestInForce ((group 1 id (fun g => { g with cmd := 1 })).dev.grp 5) ∧ requestInForce ((group 1 id (fun g => { g with cmd := 1 })).dev.grp 5) < 7 ∧
    ((group 2 id id).dev.fab.active.group 5).prot = 2 ∧ ((group 0 id id).dev.fab.active.group 5).prot = 0 := by decide +kernel


/-- Hub mode on carrier 0, leaf 5 in a state with key 3 and serial 77. -/
def hub (leaf : Nat) : State :=
  on serving (fun d => ((((((((d.set (Reg.hubEnable 0) 1).set (Reg.hubLeafEnable (leafIx 0 5)) 1).set (Reg.hubLeafState (leafIx 0 5)) leaf).set
    (Reg.hubLeafKey (leafIx 0 5)) 3).set (Reg.hubLeafSerial (leafIx 0 5)) 77).set (Reg.hubEqCycles 0) 2).set (Reg.hubLeafDsSc (leafIx 0 5)) 2).set
    (Reg.hubDiscPeriod 0) 100).set (Reg.hubDiscMask 0) 0xFFFF)

/-- A record that grants leaf 5 subcarrier 1. -/
def grant : Nat := 5 * 2 ^ 56 + 2 ^ 52 + 2 ^ 48 + 100 * 2 ^ 32 + 32 * 2 ^ 24

/-- That grant sent for HUB_GRANT_NEXT. -/
def grantSent : State := sent 1 (Reg.hubGrantNext 0).ref (beBytes 8 grant) (hub 3)

/-- A grant table switch that fires. -/
def grantDue : Action := due 10 (Reg.hubGrantTable 0).ref 4 [] false

/-- That grant active, the path of subcarrier 1 in a state. -/
def path (st : Nat) (f : HubPath → HubPath) : State :=
  on (hub 3) (fun d => ((d.setDom (Reg.hubGrantActive 0).ref (beBytes 8 grant)).set (Reg.hubUsState 0 1) st).putPath 0 1 (f { d.pathOf 0 1 with leaf := 5, burst := 5 }))

/-- The same switch, not yet armed, that grant in the next table. -/
def grantArming : State := on (firing { grantDue with armed := none } (hub 3)) (fun d => { (d.setDom (Reg.hubGrantNext 0).ref (beBytes 8 grant)) with now := 3 * fuCycle })

theorem wit_hubMode : serving.fresh.writes (req 1) 1 (Reg.hubEnable 0).ref = true ∧ hubEnableCheck 0 1 serving.dev = none ∧
    (hubEnableCheck 0 1 (set serving Reg.frmBondMode 1).dev).isSome = true ∧
    grantSent.endsBlock (req 1) 1 (Reg.hubGrantNext 0).ref (BitVec.ofNat 32 (crc32 (beBytes 8 grant)))
      { ref := (Reg.hubGrantNext 0).ref, writing := true, session := 1, total := 8, data := beBytes 8 grant, transport := 0, addr := 5 } ∧
    grantCheck 0 (beBytes 8 grant) grantSent.dev = none ∧ (grantCheck 0 (beBytes 8 (grant + 2 ^ 63)) grantSent.dev).isSome = true ∧
    (firing grantDue (hub 3)).dev.fires 9 grantDue 10 ∧ grantDue.target = (Reg.hubGrantTable 0).ref ∧ grantDue.origin = .host ∧
    grantArming.dev.dead = false ∧ grantArming.dev.action? 9 = some { grantDue with armed := none } ∧ swaps grantDue = false ∧ grantDue.held = false ∧ grantDue.epoch = 0 ∧
    (grantArming.dev.armBoundary { grantDue with armed := none } 0).isSome = true ∧
    recordFor ((grantArming.dev.grantsOf { grantDue with armed := none }).map bareRecord) 5 ≠ recordFor ((grantArming.dev.grantsLast 0).map bareRecord) 5 ∧
    grantArming.dev.get (Reg.hubLeafDsSc (leafIx 0 5)) < 16 := by decide +kernel

/-- A switch to a table of records waits for its upstream cycle. -/
def switchTo (rs : List Nat) (s : State) : State := on s (fun d => { d with hub := d.hub.put 0 { d.hub.at 0 with switches := [⟨9, rs, 1, 1⟩] } })

theorem wit_upstream : ((switchTo [] (path 0 id)).dev.hub.at 0).switches = [⟨9, [], 1, 1⟩] ∧ recordFor ((switchTo [] (path 0 id)).dev.grantsActive 0) 5 = some grant ∧
    recordFor (([] : List Nat).map (withLength ((switchTo [] (path 0 id)).dev.overhead 0))) 5 = none ∧ (path 0 id).dev.get (Reg.hubLeafState (leafIx 0 5)) = 3 := by decide +kernel

/-- The path's window is open. -/
def window (st : Nat) (f : HubPath → HubPath) : State := path st (fun p => f { p with windowOpen := true })

/-- Discovery is on subcarrier 1, its window open until device time 77. -/
def openWindow : State := set (set (path 0 (fun p => { p with till := 77 })) (Reg.hubDiscState 0) 1) (Reg.hubDiscSc 0) 1

theorem wit_bursts : (path 0 id).dev.on (Reg.hubEnable 0) = true ∧ ((path 0 id).dev.grantsActive 0).any (fun r => grLeaf r == 5 && grSc r == 1 && !grCont r) = true ∧
    openWindow.dev.on (Reg.hubEnable 0) = true ∧ openWindow.dev.get (Reg.hubDiscState 0) = 1 ∧ openWindow.dev.get (Reg.hubDiscSc 0) = 1 ∧ openWindow.dev.now < (openWindow.dev.pathOf 0 1).till ∧
    (window 1 id).dev.get (Reg.hubUsState 0 1) = 1 ∧ 256 * (window 1 id).dev.get (Reg.hubDetThresh 0) ≤ 65535 ∧
    (window 1 id).dev.inBurstWindow 0 ((window 1 id).dev.pathOf 0 1) 1600 = true ∧ (window 1 id).dev.inBurstWindow 0 ((window 1 id).dev.pathOf 0 1) 160000 = false ∧
    0 < 256 * (window 1 id).dev.get (Reg.hubDetThresh 0) ∧
    (window 2 id).dev.get (Reg.hubUsState 0 1) = 2 ∧ ((window 2 id).dev.pathOf 0 1).power + (window 2 id).dev.get (Reg.hubCapture 0) < 2000 ∧
    -30 ≤ ((window 2 id).dev.pathOf 0 1).power + (window 2 id).dev.get (Reg.hubCapture 0) ∧ (window 3 id).dev.get (Reg.hubUsState 0 1) = 3 ∧
    differing (bitsDown 64 ((window 2 id).dev.get (Reg.hubSync 0))) (bitsDown 64 ((window 2 id).dev.get (Reg.hubSync 0))) ≤ (window 2 id).dev.get (Reg.hubSyncTol 0) ∧
    ((window 2 (fun p => { p with second := some (4, 50) })).dev.pathOf 0 1).second = some (4, 50) ∧
    (((window 2 (fun p => { p with second := some (4, 2) })).dev.pathOf 0 1).second.all (fun x => decide (x.2 ≤ 0 + 2))) = true ∧
    ((window 2 id).dev.pathOf 0 1).windowOpen = true ∧ ((path 2 id).dev.pathOf 0 1).windowOpen = false ∧ ((path 2 id).dev.pathOf 0 1).second = none ∧
    ((path 2 id).dev.pathOf 0 1).burst ≤ 127 ∧ ((window 1 id).dev.pathOf 0 1).leaf = 5 := by decide +kernel

/-- The header of a burst of leaf l. -/
def burstHead (l : Nat) : Nat := withHcrc (2 ^ 120 + l * 2 ^ 104 + 3 * 2 ^ 72 + 1800 * 2 ^ 56)

/-- A burst of leaf 5 under its grant with codewords taken and blocks delivered, alone on its path. -/
def burstOf (taken : Nat) (blocks : List (Nat × RxBlock)) : HubBurst := ⟨0, 5, grant, 1600 + 5, -50, [], taken, blocks, 3, 100, none⟩
def receiving (b : HubBurst) : State := window 3 (fun p => { p with bursts := [b], nextId := 1 })

theorem wit_burstEnds : (receiving (burstOf 1 [])).dev.get (Reg.hubUsState 0 1) = 3 ∧
    ((receiving (burstOf 1 [])).dev.pathOf 0 1).bursts.find? (fun x => x.report.isNone) = some (burstOf 1 []) ∧
    (∀ x ∈ ((receiving (burstOf 1 [])).dev.pathOf 0 1).bursts, x.id = 0 → x = burstOf 1 []) ∧ (burstOf 1 []).blocks.length < (burstOf 1 []).taken ∧
    tblGet (burstOf 1 [(0, blockOf' (burstHead 5))]).blocks 0 = some (blockOf' (burstHead 5)) ∧ hcrcOk (burstHead 5) = true ∧ bhBlock (burstHead 5) = 0 ∧
    huLeaf (burstHead 5) = 5 ∧ huLast (burstHead 5) = bits grant 51 48 ∧ hcrcOk (burstHead 6) = true ∧ huLeaf (burstHead 6) = 6 ∧
    (receiving (burstOf 1 [])).dev.staleBurst 0 1 6 100 = false ∧ hcrcOk (burstHead 5 ^^^ 1) = false := by decide +kernel

/-- A codeword of that burst has converged; its block comes. -/
def burstWords : State :=
  on (receiving (burstOf 1 [])) (fun d => { d with now := 10 ^ 12, fec := { d.fec with stopped := [⟨⟨9, 0, 1, 0, 0, [32], 0, 10 ^ 12, 0, [], some 0⟩, 0, 0⟩] } })

/-- The rogue watch is on. -/
def watched : State := set (path 0 id) (Reg.hubRogueWatch 0) 1

theorem wit_burstBlocks : (burstWords.dev.fec.stopped.find? (fun y => y.word.num == 9)).map (·.word.burst) = some (some 0) ∧
    burstWords.dev.comes (deliveryAt ⟨9, 0, 1, 0, 0, [32], 0, 10 ^ 12, 0, [], some 0⟩) = true ∧
    (burstWords.dev.pathOf 0 1).bursts.find? (fun y => y.id == 0) = some (burstOf 1 []) ∧
    watched.dev.on (Reg.hubEnable 0) = true ∧ watched.dev.on (Reg.hubRogueWatch 0) = true ∧ watched.dev.get (Reg.hubUsState 0 1) = 0 ∧
    watched.dev.staleBurst 0 1 (huLeaf (burstHead 5)) 7 = false ∧
    (on watched (fun d => d.putLeaf 0 5 { d.leafOf 0 5 with oldGrant := some grant, staleUntil := 9 })).dev.staleBurst 0 1 5 100 = true := by decide +kernel

/-- A REGISTER of serial 77, nonce 9, discovery 1, BACKOFF 0, with its tag under key 1 of epoch 0x1234, at a position. -/
def register (tag : Nat) (pos : Int) : UpMsg := ⟨128, 1, 0, 4, pos, 77 * 2 ^ 432 + 9 * 2 ^ 368 + 1 * 2 ^ 352 + 3 * 2 ^ 336 + tag⟩
def registerTag : Nat := 268573847944403767603580245623955259417

/-- A REGISTER waits, discovery 1 out, leaf 5 in a state with that key. -/
def discovering (leaf : Nat) (m : UpMsg) : State :=
  on (hub leaf) (fun d => ({ d with hub := d.hub.put 0 { d.hub.at 0 with discId := 1, registers := [m] } }).putPair 3 ⟨⟨2, 0x1234, 1⟩, halfEmpty, 0, false⟩)

/-- The leaf that a REGISTER names. -/
def knownLeaf (d : Device) (m : UpMsg) : Option Nat :=
  (List.range 128).find? (fun l => d.on (Reg.hubLeafEnable (leafIx 0 l)) && d.get (Reg.hubLeafState (leafIx 0 l)) == 1 &&
    d.get (Reg.hubLeafSerial (leafIx 0 l)) == rgSerial m.word)

theorem wit_discovery : (hub 3).dev.dead = false ∧ (hub 3).dev.on (Reg.hubEnable 0) = true ∧ (hub 3).dev.get (Reg.hubDiscPeriod 0) ≠ 0 ∧
    (set (hub 3) (Reg.hubDiscPeriod 0) 0).dev.get (Reg.hubDiscPeriod 0) = 0 ∧
    (List.range 16).find? (fun k => bitAt ((hub 3).dev.get (Reg.hubDiscMask 0)) k && !((hub 3).dev.scsGranted 0).contains k) = some 0 ∧
    (List.range 16).find? (fun k => bitAt ((set (hub 3) (Reg.hubDiscMask 0) 0).dev.get (Reg.hubDiscMask 0)) k &&
      !((set (hub 3) (Reg.hubDiscMask 0) 0).dev.scsGranted 0).contains k) = none := by decide +kernel

theorem wit_registers : (let m := register registerTag 100
      knownLeaf (discovering 1 m).dev m = some 5 ∧ (discovering 1 m).dev.upTagOk 0 5 0xFFF (rgNonce m.word) m = true ∧
      ((discovering 1 m).dev.leafOf 0 5).nonce ≠ some (rgNonce m.word) ∧ rgDiscId m.word = ((discovering 1 m).dev.hub.at 0).discId ∧
      (0 : Int) ≤ ((discovering 1 m).dev.get (Reg.hubEqCycles 0) * 208000 : Nat) - (100 : Int)) ∧
    ((discovering 1 (register registerTag 0)).dev.get (Reg.hubEqCycles 0) * 208000 : Nat) - (10000000 : Int) < 0 ∧
    (let m := register 0 100; (discovering 1 m).dev.upTagOk 0 5 0xFFF (rgNonce m.word) m = false) ∧ knownLeaf (discovering 3 (register 0 0)).dev (register 0 0) = none := by
  decide +kernel

/-- A message of a burst of leaf 5 waits under a police limit. -/
def upMessage (tag : Nat) : UpMsg := ⟨5, 1, 0, 3, 0, 0x40 * 2 ^ 504 + tag⟩
def upstream (limit tag : Nat) : State :=
  on (set (hub 3) (Reg.hubPoliceLimit 0) limit) (fun d => ({ d with hub := d.hub.put 0 { d.hub.at 0 with messages := [upMessage tag] } }).putPair 3 ⟨⟨2, 0x1234, 1⟩, halfEmpty, 0, false⟩)

theorem wit_messages : (upstream 1 0).dev.dead = false ∧ (upstream 1 0).dev.on (Reg.hubEnable 0) = true ∧ ((upstream 1 0).dev.hub.at 0).messages = [upMessage 0] ∧
    (upstream 1 0).dev.upTagOk 0 5 0x805 48 (upMessage 0) = false ∧ (upstream 1 0).dev.deviceUsed < 256 ∧ (upstream 1 0).dev.get (Reg.hubLeafState (leafIx 0 5)) = 3 ∧
    (upstream 1 0).dev.get (Reg.hubPoliceLimit 0) = 1 ∧ (upstream 2 0).dev.get (Reg.hubPoliceLimit 0) = 2 ∧
    (upstream 1 120060011632431147966714896592897716091).dev.upTagOk 0 5 0x805 48 (upMessage 120060011632431147966714896592897716091) = true := by decide +kernel

theorem wit_leaves : (hub 2).dev.dead = false ∧ (hub 2).dev.on (Reg.hubEnable 0) = true ∧ (hub 2).dev.get (Reg.hubLeafState (leafIx 0 5)) = 2 ∧
    (hub 4).dev.dead = false ∧ (hub 4).dev.get (Reg.hubLeafState (leafIx 0 5)) = 4 ∧
    serving.fresh.writes (req 1) 1 (Reg.hubLeafEnable (leafIx 0 5)).ref = true := by decide +kernel

/-- Records of an ingress queue 7 and an egress queue 9 (group 5, port 3). -/
def ingressRec : Nat := 7 * 2 ^ 110 + 2 ^ 109 + 3 * 2 ^ 103 + 5 * 2 ^ 80 + 1000 * 2 ^ 48 + 50 * 2 ^ 32 + 32
def egressRec : Nat := 9 * 2 ^ 110 + 2 ^ 109 + 2 ^ 108 + 3 * 2 ^ 103 + 5 * 2 ^ 80 + 1000 * 2 ^ 48 + 50 * 2 ^ 32 + 2 * 2 ^ 8 + 32

/-- Port 3 in packet mode with its capacity, the monitoring point of group 5 aligned, HBM awake, room to spill, and queues. -/
def packets (f g : PktQueue → PktQueue) : State :=
  on serving (fun d => (((((({ d with
    fab := { d.fab with states := [(5, { groupNew with w := { pointNew with align := 3 }, p := pointNew })] },
    pkt := { d.pkt with queues := [(7, f { queueNew 7 with cfg := ingressRec, state := 1 }), (9, g { queueNew 9 with cfg := egressRec, state := 1 })] } }).set
    (Reg.lanePortType 3) 4).set (Reg.lanePortState 3) 2).set (Reg.pktPortMode 3) 1).set (Reg.pktPortCapacity 3) 100000).set Reg.pktSpillSize 100000000).set (Reg.pktPortKeys 3) 1)

/-- A flow edit of port 3, VLAN 5 to queue 7. -/
def flow (op : Nat) : BitVec 576 := BitVec.ofNat 576 (op <<< 568 + (1 <<< 316 + 3 <<< 311 + 5 <<< 299) <<< 192 + 1 <<< 191 + 7 <<< 170)

/-- The record an edit of that operation works on. -/
def edited (op : Nat) : Nat := (flow 0).toNat % 2 ^ 568 + op * 2 ^ 568

/-- That flow in the table. -/
def flowing : State :=
  on (packets id id) (fun d => { d with pkt := { d.pkt with flows := [(bits (flow 1).toNat 511 192, flowOf (flow 1).toNat 0)] } })

theorem wit_portModes : portModeCheck 3 1 (set serving (Reg.lanePortType 3) 4).dev = none ∧ (portModeCheck 3 0 (packets id id).dev).isSome = true := by
  decide +kernel

theorem wit_packetWrites : serving.fresh.writes (req 1) 1 (Reg.pktPortMode 3).ref = true ∧ serving.fresh.writes (req 1) 1 Reg.pktFlowEdit.ref = true ∧ serving.dev.asleep resHbm = false := by decide +kernel

/-- An add takes the first candidate position of its key in an empty table. -/
theorem wit_flowAdd : (packets id id).dev.flowEditError (packets id id).dev.pkt.flows (edited 1) = none ∧
    placeFlow (packets id id).dev.pkt.flows (bits (edited 1) 511 192) = some (flowAt 0 (bits (edited 1) 511 192), []) := by
  refine ⟨by decide +kernel, ?_⟩
  have hf : (packets id id).dev.pkt.flows = [] := by decide +kernel
  rw [hf]; rfl

theorem wit_flowEdits : flowing.dev.flowEditError flowing.dev.pkt.flows (edited 2) = none ∧ flowing.dev.flowEditError flowing.dev.pkt.flows (edited 3) = none ∧
    ((packets id id).dev.flowEditError (packets id id).dev.pkt.flows (edited 3)).isSome = true := by decide +kernel

theorem wit_queueRecords :
    (sent 1 Reg.pktQConfig.ref (beBytes 16 egressRec) (packets id id)).endsBlock (req 1) 1 Reg.pktQConfig.ref (BitVec.ofNat 32 (crc32 (beBytes 16 egressRec)))
      { ref := Reg.pktQConfig.ref, writing := true, session := 1, total := 16, data := beBytes 16 egressRec, transport := 0, addr := 5 } ∧
    recordsOf 16 (beBytes 16 egressRec) = [egressRec] ∧ (packets id id).dev.queueError [egressRec] = none ∧ (serving.dev.queueError [egressRec - 2 ^ 80 * 6]).isSome = true ∧
    serving.fresh.writes (req 1) 1 Reg.pktQFlush.ref = true ∧ serving.fresh.writes (req 1) 1 Reg.pktQWmLatch.ref = true := by decide +kernel

/-- A frame of VLAN 5. -/
def vlanFrame : List Byte := List.replicate 12 (0 : Byte) ++ [0x81, 0x00, 0, 5, 0x08, 0x00] ++ List.replicate 60 (0 : Byte)

/-- A frame of 100 bytes with its FCS. -/
def bytes100 : List Nat := List.replicate 96 1 ++ (beBytes 4 (crc32 (List.replicate 96 1))).reverse

/-- Its last 60 bytes. -/
def last60 : List Byte := (bytes100.drop 40).map (BitVec.ofNat 8)

/-- That frame coming in on port 3 to queue 7, its first 40 bytes there; with a flow whose policer it exceeds. -/
def coming (fl : Bool) (fenced : Bool) (f : PktQueue → PktQueue) : State :=
  on (packets (fun q => f (((itemWords bytes100).take 5).foldl PktQueue.push q)) id) (fun d => { d with now := 10 ^ 12, pkt := { d.pkt with
    flows := [(5, { flowOf (flow 1).toNat 0 with cir := 1, cbs := 1, tokens := 0 })], rx := [(3, ⟨some 7, if fl then some 5 else none, fenced, bytes100.take 40, 5⟩)] } })

/-- Queue 7 with room for the frame, or Disabled. -/
def roomy (q : PktQueue) : PktQueue := { q with cfg := ingressRec + 2 ^ 20 * 2 ^ 48 }
def disabled (q : PktQueue) : PktQueue := { q with state := 0 }

theorem wit_classified : (packets id id).dev.classifies 3 (vlanFrame.map (·.toNat)) = true ∧ flowing.dev.classifies 3 (vlanFrame.map (·.toNat)) = true ∧
    (flowing.dev.lookup 3 (vlanFrame.map (·.toNat))).isSome = true ∧ (packets id id).dev.lookup 3 (vlanFrame.map (·.toNat)) = none ∧
    serving.dev.classifies 3 (vlanFrame.map (·.toNat)) = false ∧ tblGet serving.dev.pkt.rx 3 = none := by decide +kernel

/-- With no poison stored no lookup meets any. -/
theorem wit_unpoisoned : flowing.dev.poisonedLookup 3 (vlanFrame.map (·.toNat)) = false := by
  have h : flowing.dev.mem.poisoned = [] := by decide +kernel
  simp [Device.poisonedLookup, h]

theorem wit_ingress : tblGet (coming true true id).dev.pkt.rx 3 = some ⟨some 7, some 5, true, bytes100.take 40, 5⟩ ∧
    tblGet (coming true false id).dev.pkt.rx 3 = some ⟨some 7, some 5, false, bytes100.take 40, 5⟩ ∧ fcsOk (bytes100.take 40 ++ last60.map (·.toNat)) = true ∧
    (bytes100.take 40 ++ last60.map (·.toNat)).length = 100 ∧ ceilDiv 100 8 ≤ ceilDiv (serving.dev.get Reg.pktMtu) 8 ∧
    (tblGet (coming true false id).dev.pkt.flows 5).any (fun g => g.cir != 0 &&
      decide ((refill ((coming true false id).dev.now / fuCycle % 2 ^ 32) g).tokens < 100)) = true ∧
    tblGet (coming false false id).dev.pkt.rx 3 = some ⟨some 7, none, false, bytes100.take 40, 5⟩ := by decide +kernel

theorem wit_admitted : admits (((coming false false roomy).dev.reads 7 0).queue 7) 100 = true ∧ takesFrom (((coming false false roomy).dev.reads 7 0).queue 7).cfg 3 = true ∧
    admits (((coming false false disabled).dev.reads 7 0).queue 7) 100 = false := by decide +kernel

/-- A frame without a flow conforms. -/
theorem wit_conforms : (coming false false roomy).dev.conforms none 100 := fun _ _ h => nomatch h

/-- The words of that frame as they come in a group's stream, their slices marked or not, and an item header behind them. -/
def arrived (marked : Bool) : List AreaWord := (itemWords bytes100).map (fun w => ⟨w.data, marked, false⟩) ++ [⟨itemHeader 100, false, true⟩]

/-- An item of 100 bytes arriving in group 5. -/
def arriving (fenced marked : Bool) (g : PktQueue → PktQueue) : State := on (packets id g) (fun d => d.putExt 5 ⟨false, some 100, fenced, 0, 0, arrived marked⟩)

/-- The extractor of group 5 with words waiting. -/
def headed (l : List AreaWord) : State := on (packets id id) (fun d => d.putExt 5 ⟨true, none, false, 0, 0, l⟩)

theorem wit_extractor : (headed []).dev.extractorRuns 5 = true ∧ (headed []).dev.extractorFollows 5 = true ∧ ((headed []).dev.extOf 5).seek = [] ∧
    ((headed [⟨7, false, false⟩, ⟨itemHeader 100, false, true⟩]).dev.extOf 5).seek = [⟨itemHeader 100, false, true⟩] ∧
    crc16 48 (itemHeader 100 / 2 ^ 16) = bits (itemHeader 100) 15 0 ∧ bits (itemHeader 100) 63 50 = 100 ∧ 100 ≤ (packets id id).dev.get Reg.pktMtu ∧
    crc16 48 (7 / 2 ^ 16) ≠ bits 7 15 0 ∧ (on (headed []) (fun d => d.putExt 5 ⟨true, none, false, 3, 0, []⟩)).dev.extractorFollows 5 = false ∧
    serving.dev.extractorRuns 5 = false ∧ serving.dev.extractorFollows 5 = true := by decide +kernel

theorem wit_egress : (arriving false false id).dev.extractorFollows 5 = true ∧ ((arriving false false id).dev.extOf 5).item = some 100 ∧
    (arriving false false id).dev.egressQueue 5 = some 9 ∧ (arriving false false (fun q => { q with state := 0, cfg := 0 })).dev.egressQueue 5 = none ∧
    ceilDiv 100 8 ≤ ((arriving false false id).dev.extOf 5).words.length ∧
    fcsOk (((((arriving false false id).dev.extOf 5).words.take 13).flatMap (fun w => beBytes 8 w.data)).take 100) = true ∧
    (((arriving false true id).dev.extOf 5).words.take 13).any (·.poison) = true ∧ ((arriving true false id).dev.extOf 5).fenced = true ∧
    admits (((arriving false false (fun q => { q with cfg := egressRec + 2 ^ 20 * 2 ^ 48 })).dev.reads 9 0).queue 9) 100 = true ∧
    admits (((arriving false false disabled).dev.reads 9 0).queue 9) 100 = false := by decide +kernel

/-- Queue 7 or 9 with an item that is being sent, and one that waits. -/
def sending (q : PktQueue) : PktQueue := { q with items := [⟨100, 9⟩, ⟨200, 9⟩], begun := true, flushing := true }

/-- A channel of group 5, and items committed to it. -/
def channel (f : PktQueue → PktQueue) : State :=
  on (packets f id) (fun d => { d with now := 5, fab := { d.fab with active := { d.fab.active with entries := [(0x01000000, ⟨1, 5, 0x41, 0, 0, 0⟩)] } } })

/-- An item that waits, and one whose last word is due. -/
def waitingItem (q : PktQueue) : PktQueue := { q with items := [⟨100, 9⟩] }
def ending (q : PktQueue) : PktQueue := { sending q with taken := 104 }

theorem wit_channels : (channel waitingItem).dev.channelBank.channelSize 5 ≠ 0 ∧ (channel waitingItem).dev.pkt.queues.all (fun e => !e.2.begun) = true ∧
    (channel waitingItem).dev.boundaryDue 5 = true ∧ earliest (((channel waitingItem).dev.channelQueues 5).map (fun e => (e.1, (channel waitingItem).dev.queue e.1))) none = some 7 ∧
    (7, (channel waitingItem).dev.queue 7) ∈ (channel waitingItem).dev.channelQueues 5 ∧ ((channel waitingItem).dev.queue 7).items.head? = some ⟨100, 9⟩ ∧
    (channel ending).dev.boundaryDue 5 = true ∧ ((channel ending).dev.channelQueues 5).filter (·.2.begun) = [(7, (channel ending).dev.queue 7)] ∧
    (channel sending).dev.boundaryDue 5 = false := by decide +kernel

theorem wit_transmits : ((packets id sending).dev.pkt.queues.filter (fun e => qcDir e.2.cfg == 1 && qcPort e.2.cfg == 3)).filter (·.2.begun) = [(9, (packets id sending).dev.queue 9)] ∧
    ((packets id sending).dev.queue 9).items = [⟨100, 9⟩, ⟨200, 9⟩] ∧ (packets id waitingItem).dev.get (Reg.lanePortState 3) = 2 ∧
    earliest (((packets id waitingItem).dev.pkt.queues.filter (fun e => qcDir e.2.cfg == 1 && qcPort e.2.cfg == 3)).map (fun e => (e.1, (packets id waitingItem).dev.queue e.1))) none = some 9 := by
  decide +kernel

theorem wit_fences : ((packets sending id).dev.queue 7).flushing = true ∧ ((packets sending id).dev.queue 7).begun = true ∧
    ((packets sending id).dev.queue 7).items = [⟨100, 9⟩, ⟨200, 9⟩] ∧ ((packets (fun q => { sending q with begun := false }) id).dev.queue 7).begun = false ∧
    ((packets (fun q => { sending q with begun := false }) id).dev.queue 7).flushing = true ∧ ((packets (fun q => { sending q with state := 2 }) id).dev.queue 7).state = 2 := by
  decide +kernel


/-- A sweep finds what its class's code makes of the errors; a class with rate 0 is not swept. -/
theorem wit_found : [0, 1, 3].map (serving.dev.readFinds 5) = [0, 1, 2] ∧ serving.dev.mayS 1 0 = true ∧ (set serving (Reg.memSweepRate 0) 0).dev.mayS 1 0 = false := by
  decide +kernel

theorem wit_sweeps : serving.dev.dead = false ∧ serving.dev.mayS 5 0 = true ∧ tblGetD serving.dev.mem.pos (sweepPlace 5 0) 0 < sweepUnits 5 ∧
    tblGetD serving.dev.mem.pos (sweepPlace 5 0) 0 + 1 < sweepUnits 5 ∧ serving.dev.isPoisoned 5 (sweepAddress 5 0 (tblGetD serving.dev.mem.pos (sweepPlace 5 0) 0)) = false ∧
    (on serving (fun d => { d with mem := { d.mem with poisoned := [(poisonKey 5 0, 0)] } })).dev.isPoisoned 5 (sweepAddress 5 0 0) = true := by decide +kernel

/-- A line of MRAM written and not yet durable. -/
def buffered : State := on serving (fun d => { d with mem := { d.mem with mramBuf := [(1, 77)] } })

/-- An object stored and not yet durable. -/
def waiting : State := on serving (fun d => { d with store := { d.store with live := [(Reg.fecMinIter.ref, ⟨1, 4, some (0, 0), true⟩)] } })

theorem wit_memories : serving.dev.permits 0 1 true false 60 7 = true ∧ serving.dev.permits 0 2 true false 64 64 = true ∧ serving.dev.permits 1 3 false false 64 3 = false ∧
    60 + 7 ≤ targetBytes 1 ∧ 64 + 64 ≤ targetBytes 2 ∧ serving.dev.permits 0 1 false false 60 7 = true ∧
    (on serving (fun d => { d with mem := { d.mem with poisoned := [(poisonKey (targetClass 1) (unitOf 1 60), 0)] } })).dev.isPoisoned (targetClass 1) (unitOf 1 60) = true ∧
    (unitsOf 1 60 7).any (serving.dev.isPoisoned (targetClass 1)) = false ∧ (unitsOf 1 60 7) = [32, 64] ∧ tblGet buffered.dev.mem.mramBuf ((62 : BitVec 25).toNat / 32) = some 77 ∧
    (tblGet buffered.dev.mem.mramAt ((62 : BitVec 25).toNat / 32)).isSome = false ∧ (tblGet waiting.dev.store.live Reg.fecMinIter.ref).isSome = true ∧
    waiting.dev.sched.bundles.all (fun b => b.preDurable) = true ∧ serving.fresh.writes (req 2) 2 Reg.memErrLogClear.ref = true ∧ serving.dev.memWf := by decide +kernel

/-- Candidate 2 is the GNSS receiver, Qualified with priority 3 and QL 1. -/
def candidate (st : Nat) : State :=
  on serving (fun d => { ((((d.set (Reg.timeCandSource 2) 1).set (Reg.timeCandState 2) st).set (Reg.timeCandPriority 2) 3).set (Reg.timeCandQl 2) 1) with
    tim := { d.tim with gnssEdge := some 5 } })

/-- PTP port 1 and SyncE port 0 in use. -/
def ports (st : Nat) (f : PtpPort → PtpPort) : State :=
  on serving (fun d => ((((((d.set (Reg.timePtpLane 1) 3).set (Reg.timePtpRole 1) 1).set (Reg.timePtpState 1) st).set (Reg.timeSynceLane 0) 4).set
    (Reg.timeSynceEsmcTx 0) 1).putPtp 1 (f (d.ptpPort 1))))

/-- A PTP message. -/
def ptp (k : Fin 6) (good : Bool) : PtpMsg := ⟨k, serving.dev.get (Reg.timePtpDomain 1), good, false, 1, 1000, 1100, 6, 3, 9⟩

theorem wit_references : serving.dev.dead = false ∧ true = (serving.dev.get Reg.timeGnssEdge == 0) ∧ (candidate 3).dev.tim.gnssEdge = some 5 ∧
    (candidate 3).dev.now ≤ 5 + 500 * fuMs ∧ (candidate 3).dev.tim.gnssPaired ≠ some 5 ∧ (candidate 3).dev.candOf 1 = some 2 ∧
    (candidate 3).dev.get (Reg.timeCandQlMode 2) ≠ 1 ∧ serving.dev.tim.gnssEdge = none ∧ (ports 9 id).dev.ptpRuns 1 = true ∧ (ptp 0 false).good = false ∧
    (ptp 0 true).domain = (ports 9 id).dev.get (Reg.timePtpDomain 1) ∧ ((ports 9 (fun p => { p with awaits := some (1, 9) })).dev.ptpPort 1).awaits = some ((ptp 1 true).seqId, 9) ∧
    ((ports 9 (fun p => { p with t1 := some 1, t2 := some 2, t3 := some 3 })).dev.ptpPort 1).t1 = some 1 ∧
    ((ports 9 (fun p => { p with t1 := some 1, t2 := some 2, t3 := some 3 })).dev.ptpPort 1).t3 = some 3 ∧ (ports 6 id).dev.get (Reg.timePtpState 1) = 6 ∧
    (ports 9 id).dev.get (Reg.timePtpState 1) = 9 ∧ (ports 9 id).dev.get (Reg.timeSynceLane 0) ≠ 0xFF ∧ (set (ports 9 id) (Reg.timeSynceQlRx 0) 4).dev.get (Reg.timeSynceQlRx 0) ≠ 0x0F ∧
    (ports 9 id).dev.on (Reg.timeSynceEsmcTx 0) = true ∧ (set (ports 9 id) (Reg.timeSynceQlRx 0) 0x0F).dev.get (Reg.timeSynceQlRx 0) = 0x0F ∧
    ((ports 9 id).dev.ptpPort 1).awaits.all (fun a => a.1 != (ptp 1 true).seqId) = true ∧ ((ports 9 id).dev.ptpPort 1).t1 = none ∧
    false ≠ (serving.dev.get Reg.timeGnssEdge == 0) := by decide +kernel

/-- The device drives its outputs, ToD among them, and a PPS edge has gone out. -/
theorem wit_tod : (on (set (set (set serving Reg.timeOutStates 15) Reg.timeTodEnable 1) Reg.schedTimeState 2) (fun d => { d with tim := { d.tim with ppsAt := some 5 } })).dev.driving = 31 := by
  decide +kernel

/-- A reference change to candidate 2 that fires. -/
def change : Action := { due 4 Reg.timeForce.ref 2 [] false with kind := .pps }

/-- A write of TIME_LOOP_MODE that fires. -/
def mode (v : Nat) : Action := { due 8 Reg.timeLoopMode.ref v [] false with kind := .pps }

theorem wit_candidates : (candidate 3).dev.dead = false ∧ (candidate 3).dev.get (Reg.timeCandSource 2) ≠ 0 ∧ bitAt ((candidate 3).dev.get (Reg.timeCandFaults 2)) 2 = false ∧
    (candidate 3).dev.faultHolds 2 2 = none ∧ (candidate 3).dev.faultHolds 2 0 = some false ∧ (candidate 3).dev.get (Reg.timeCandSource 3) = 0 ∧
    (set (candidate 1) (Reg.timeCandFaults 2) 1).dev.get (Reg.timeCandFaults 2) = 2 ^ 0 ∧ (candidate 1).dev.faultHolds 2 0 = some false ∧ (candidate 1).dev.get (Reg.timeCandState 2) = 1 ∧
    (candidate 2).dev.get (Reg.timeCandState 2) = 2 ∧ (candidate 3).dev.get (Reg.timeCandState 2) ≠ 2 ∧ serving.fresh.writes (req 1) 1 (Reg.timeCandSource 2).ref = true ∧
    candSourceCheck 2 1 serving.dev = none ∧ (candSourceCheck 3 1 (candidate 3).dev).isSome = true ∧ (firing change (candidate 3)).dev.fires 9 change 4 ∧
    (firing change (candidate 3)).dev.get (Reg.timeCandState change.value) = 3 ∧ (firing change (candidate 3)).dev.get (Reg.timeCandPriority change.value) ≠ 0 ∧
    (firing change (candidate 3)).dev.get (Reg.timeCandQl change.value) < 15 ∧ (candidate 3).dev.standby = false ∧ (firing change (candidate 2)).dev.fires 9 change 4 := by
  decide +kernel

/-- A pull-in is under way. -/
def pulling : State := on (candidate 3) (fun d => { d with tim := { d.tim with pull := some (500, 0, 50) } })

/-- Candidate 2 Selected, the loop acquiring. -/
def acquiring : State := set (set (candidate 5) Reg.timeLock 1) Reg.timeSelected 2

theorem wit_locks : pulling.dev.tim.pull.isSome = true ∧ acquiring.dev.tim.pull = none ∧ acquiring.dev.get Reg.timeLock = 1 ∧ acquiring.dev.get Reg.timeSelected ≠ 0xFF ∧
    acquiring.dev.dead = false ∧ acquiring.dev.now % fuSec = 0 ∧ acquiring.dev.candClass 2 ≠ 0 ∧ acquiring.dev.candClass 2 ≠ 3 := by decide +kernel

/-- The loop in software. -/
def software : State := set acquiring Reg.timeLoopMode 1

theorem wit_loop : (firing (mode 1) acquiring).dev.fires 9 (mode 1) 8 ∧ (mode 1).target = Reg.timeLoopMode.ref ∧ (firing (mode 0) software).dev.fires 9 (mode 0) 8 ∧
    serving.fresh.writes (req 1) 1 Reg.timeSwFreq.ref = true ∧ valueCheck Reg.timeSwFreq (.span (-50000000000) 50000000000) ⟨8, 77⟩ = none ∧
    serving.fresh.writes (req 1) 1 Reg.timeSwPhase.ref = true ∧ valueCheck Reg.timeSwPhase (rangeOf Reg.timeSwPhase.ref) ⟨8, 77⟩ = none ∧
    software.dev.dead = false ∧ software.dev.get Reg.timeLoopMode = 1 ∧ software.dev.deviceUsed < 256 ∧ serving.dev.get Reg.timeLoopMode ≠ 1 ∧
    serving.fresh.writes (req 1) 1 (outObj true 1).ref = true ∧ valueCheck (outObj true 1) (outRange true) ⟨4, 10000000⟩ = none := by decide +kernel

/-- Carrier 0 sends and receives line time: marks and kept marks of interval 4. -/
def lineTime : State :=
  on (set (set (set serving (Reg.lineTxState 0) 3) (Reg.timeLtMode 0) 2) (Reg.lineTxLoad 0 0) 32) (fun d => { d with
    frm := d.frm.put 0 { d.frm.at 0 with tickAt := fuMark * 5 },
    tim := { d.tim with lt := d.tim.lt.put 0 { d.tim.lt.at 0 with
      marks := [{ frame := 3, tick := fuMark * 4, offset := 0, interval := 4 }], kept := [{ frame := 3, tick := fuMark * 4, offset := 0, arrival := 9, interval := 4 }] } } })

/-- Group 5 of carrier 0 in Sync. -/
def inSyncGroup : State := set lineTime (Reg.frmAlignState 0 5) 4

/-- TT_INFO of the frame marked there, the marked frame's stamp as it names it, and TT_RETURN of the own marked frame. -/
def infoWord : BitVec 512 := BitVec.ofNat 512 (ttInfoWord 3 (fuToTime96 (fuMark * 4)) 2 1 3 false 99 7 1234)
def stamped : State := on inSyncGroup (fun d => d.putRxg 0 5 { d.rxg 0 5 with stamp := ttStamp (fuMark * 4) })
def returnWord (frame : Nat) : BitVec 512 := BitVec.ofNat 512 (ttReturnWord frame (fuToTime96 (fuMark * 4 + 99)) 5 false)

theorem wit_marks : lineTime.dev.dead = false ∧ lineTime.dev.txReference 0 = some 0 ∧ lineTime.dev.get (Reg.lineTxState 0) ≠ 0 ∧ (lineTime.dev.frm.at 0).tickAt ≠ 0 ∧
    (lineTime.dev.tim.lt.at 0).marks.all (fun m => m.interval != (lineTime.dev.frm.at 0).tickAt / fuMark) = true ∧ lineTime.dev.on (Reg.hubEnable 0) = false ∧
    serving.dev.get (Reg.lineTxState 0) = 0 := by decide +kernel

theorem wit_ttInfo : slotType infoWord.toNat = 0x10 ∧ lineTime.dev.takesTime 0 5 = false ∧ inSyncGroup.dev.takesTime 0 5 = true ∧
    (inSyncGroup.dev.rxg 0 5).stamp ≠ ttStamp (time96ToFu (ttTime infoWord.toNat)) ∧ stamped.dev.takesTime 0 5 = true ∧
    (stamped.dev.rxg 0 5).stamp = ttStamp (time96ToFu (ttTime infoWord.toNat)) ∧ stamped.dev.on (Reg.hubEnable 0) = false := by decide +kernel

theorem wit_ttReturn : slotType (returnWord 3).toNat = 0x11 ∧ ttFrame (returnWord 3).toNat = 3 ∧
    ((inSyncGroup.dev.tim.lt.at 0).marks.find? (fun m => m.frame == 3)).any (fun h => ((inSyncGroup.dev.tim.lt.at 0).kept.find? (fun m => m.interval == h.interval)).isSome) = true ∧
    inSyncGroup.dev.asymmetry 0 5 false = some 0 ∧ (set inSyncGroup (Reg.timeLtMode 0) 0).dev.asymmetry 0 5 false = none ∧
    ((inSyncGroup.dev.tim.lt.at 0).marks.find? (fun m => m.frame == 4)).bind (fun h => (inSyncGroup.dev.tim.lt.at 0).kept.find? (fun m => m.interval == h.interval)) = none := by
  decide +kernel

/-- Learning, with so much of each kind of history. -/
def learning (lost secs out since : Nat) : State :=
  on (set (set serving Reg.timeHoThermChan 2) Reg.monRefState 2) (fun d => { d with tim := { d.tim with ho := { d.tim.ho with
    tempLost := lost, secs := List.replicate secs (5, 25000000), outRun := out, sinceFit := since } } })

theorem wit_starter : (learning 0 0 0 0).dev.dead = false ∧ (learning 0 0 0 0).dev.get Reg.timeHoThermChan ≠ 0xFF ∧
    (learning 0 0 0 0).dev.get Reg.monRefState = 2 ∧ (learning 0 0 0 0).dev.mon.work ≠ .selfCal ∧ serving.dev.get Reg.monRefState ≠ 2 ∧ 10 ≤ (learning 10 0 0 0).dev.tim.ho.tempLost ∧
    (learning 0 0 0 0).dev.tim.ho.tempLost < 10 ∧ 16 ≤ (learning 0 16 0 0).dev.tim.ho.secs.length ∧ 64 ≤ (learning 0 0 64 0).dev.tim.ho.outRun ∧
    3600 ≤ (learning 0 0 0 3600).dev.tim.ho.sinceFit ∧ (learning 0 0 0 3600).dev.afterGap.fitModel = none ∧
    (set serving Reg.timeHoState 3).dev.get Reg.timeHoState = 3 ∧ serving.dev.get Reg.timeHoState ≠ 3 ∧
    serving.fresh.writes (req 2) 2 Reg.timeHoClear.ref = true := by decide +kernel

/-- A history and a model sent for TIME_HO_IMPORT. -/
theorem wit_import : (sent 2 Reg.timeHoImport.ref (List.replicate modelSize 0) serving).endsBlock (req 2) 2 Reg.timeHoImport.ref
      (BitVec.ofNat 32 (crc32 (List.replicate modelSize 0)))
      { ref := Reg.timeHoImport.ref, writing := true, session := 2, total := (List.replicate modelSize 0).length, data := List.replicate modelSize 0, transport := 0, addr := 5 } ∧
    modelSize ≤ (List.replicate modelSize 0).length ∧ ((List.replicate modelSize 0).length - modelSize) % 16 = 0 ∧
    time96Valid (at_ ((List.replicate modelSize 0).drop ((List.replicate modelSize 0).length - modelSize)) 4 12) = true := by
  refine ⟨⟨by decide +kernel, List.find?_cons_of_pos (by decide +kernel), by decide +kernel, rfl, ?_⟩, by simp, by simp, by decide +kernel⟩
  · exact crc32_word _

/-- Samples of three temperatures. -/
def fitted : State := on (learning 0 0 0 3600) (fun d => { d with tim := { d.tim with ho := { d.tim.ho with
  history := [16 * 2 ^ 96 + 5 * 2 ^ 56 + 2500 * 2 ^ 40, 32 * 2 ^ 96 + 6 * 2 ^ 56 + 2600 * 2 ^ 40, 48 * 2 ^ 96 + 9 * 2 ^ 56 + 2800 * 2 ^ 40,
    64 * 2 ^ 96 + 9 * 2 ^ 56 + 2450 * 2 ^ 40, 80 * 2 ^ 96 + 9 * 2 ^ 56 + 2300 * 2 ^ 40] } } })

theorem wit_fit : fitted.dev.afterGap.fitModel.isSome = true ∧ 3600 ≤ fitted.dev.tim.ho.sinceFit ∧ fitted.dev.dead = false := by decide +kernel


/-- Crypt group 3 of carrier 0, both directions, with pair 5. -/
def crypt : Nat := 3 * 2 ^ 121 + 2 ^ 120 + 2 ^ 114 + 2 ^ 113 + 5 * 2 ^ 48

/-- That table in SEC_CG_NEXT and in force, pair 5 in a state. -/
def encrypted (f : KeyPair → KeyPair) : State :=
  on serving (fun d => (((d.setDom Reg.secCgNext.ref (beBytes 16 crypt)).setDom Reg.secCgActive.ref (beBytes 16 crypt)).putPair 5
    (f ⟨⟨2, 7, 0x1234⟩, ⟨1, 8, 0x5678⟩, 9, false⟩)).set Reg.secKeySelect 5)

/-- The crypt table's action, and a roll and an erase of pair 5. -/
def cryptDue : Action := due 8 Reg.secCgApply.ref 4 [] false
def rollDue : Action := due 3 Reg.secRoll.ref 5 [] false
def eraseDue : Action := due 3 Reg.secErase.ref 5 [] false

theorem wit_cryptTables : (sent 2 Reg.secCgNext.ref (beBytes 16 crypt) serving).endsBlock (req 2) 2 Reg.secCgNext.ref (BitVec.ofNat 32 (crc32 (beBytes 16 crypt)))
      { ref := Reg.secCgNext.ref, writing := true, session := 2, total := 16, data := beBytes 16 crypt, transport := 0, addr := 5 } ∧
    (beBytes 16 crypt).length % 16 = 0 ∧ (beBytes 15 crypt).length % 16 ≠ 0 ∧
    serving.dev.cgCheck (recordsOf 16 (beBytes 16 crypt)) = none ∧ (serving.dev.cgCheck (recordsOf 16 (beBytes 16 (crypt + 3 * 2 ^ 116)))).isSome = true ∧
    (firing cryptDue (encrypted id)).dev.fires 9 cryptDue 8 ∧ cryptDue.target = Reg.secCgApply.ref ∧
    (firing cryptDue (encrypted id)).dev.cgCheck (recordsOf 16 ((firing cryptDue (encrypted id)).dev.dom Reg.secCgNext.ref)) = none ∧
    ((set (encrypted id) (Reg.hubEnable 0) 1).dev.cgCheck (recordsOf 16 ((encrypted id).dev.dom Reg.secCgNext.ref))).isSome = true := by decide +kernel

theorem wit_keys : serving.fresh.writes (req 2) 2 Reg.secKeyWrite.ref = true ∧ valueCheck Reg.secKeyWrite (rangeOf Reg.secKeyWrite.ref) ⟨33, 8 <<< 256 + 99⟩ = none ∧
    (8 <<< 256 + 99) / 2 ^ 256 ≠ ((encrypted id).dev.pair ((encrypted id).dev.get Reg.secKeySelect)).cur.epoch ∧ (encrypted id).dev.pairAction 5 = none ∧
    (firing rollDue (encrypted id)).dev.pairAction 5 = some rollDue ∧ (7 <<< 256 + 99) / 2 ^ 256 = ((encrypted id).dev.pair 5).cur.epoch ∧
    (firing rollDue (encrypted id)).dev.fires 9 rollDue 3 ∧ rollDue.target = Reg.secRoll.ref ∧ ((firing rollDue (encrypted id)).dev.pair rollDue.value).next.state = 1 ∧
    ((firing rollDue (encrypted (fun p => { p with next := halfEmpty }))).dev.pair rollDue.value).next.state ≠ 1 ∧
    (firing rollDue (encrypted (fun p => { p with next := halfEmpty }))).dev.fires 9 rollDue 3 ∧
    (firing eraseDue (encrypted id)).dev.fires 9 eraseDue 3 ∧ eraseDue.target = Reg.secErase.ref := by decide +kernel

/-- Pair 5 with its next half Retired, the last match long ago or just now. -/
def retired (now : Nat) : State := on (encrypted (fun p => { p with next := ⟨3, 6, 1⟩ })) (fun d => { d with now := now })

theorem wit_retired : (retired 0).dev.dead = false ∧ ((retired 0).dev.pair 5).next.state = 3 ∧ ((encrypted id).dev.pair 5).next.state ≠ 3 ∧
    tblGetD (retired (1000000 * fuSec)).dev.sec.matched 5 0 + (retired 0).dev.get Reg.secRetireHold * fuSec ≤ (retired (1000000 * fuSec)).dev.now ∧
    (retired 0).dev.now < tblGetD (retired 0).dev.sec.matched 5 0 + (retired 0).dev.get Reg.secRetireHold * fuSec := by decide +kernel

/-- Pair 5 used so often. -/
def usedUp (n : Nat) : State := encrypted (fun p => { p with uses := n })

theorem wit_guard : ((encrypted id).dev.cgTable.filter (fun w => cgTx w && cgPair w == 5)).map cgNum = [3] ∧
    ((encrypted id).dev.pair 5).uses < (encrypted id).dev.get Reg.secGuard - (encrypted id).dev.get Reg.secGuardMargin ∧
    serving.dev.get Reg.secGuard - serving.dev.get Reg.secGuardMargin ≤ ((usedUp (serving.dev.get Reg.secGuard - 1)).dev.pair 5).uses ∧
    ((usedUp (serving.dev.get Reg.secGuard - 1)).dev.pair 5).uses < serving.dev.get Reg.secGuard ∧ ((usedUp 0).dev.pair 5).next.state = 1 ∧
    serving.dev.get Reg.secGuard ≤ ((usedUp (serving.dev.get Reg.secGuard)).dev.pair 5).uses ∧
    tblGetD (encrypted id).dev.sec.res 0 0 ≤ tblGetD (encrypted id).dev.sec.segs 0 0 + 2 ^ 27 ∧
    tblGetD (on (encrypted id) (fun d => d.onSec (fun s => { s with res := [(0, 2 ^ 28)] }))).dev.sec.segs 0 0 + 2 ^ 27 <
      tblGetD (on (encrypted id) (fun d => d.onSec (fun s => { s with res := [(0, 2 ^ 28)] }))).dev.sec.res 0 0 := by decide +kernel

/-- A segment message: SEG 9, END 1, COUNT 1, EPOCH, the first entry's tag. -/
def segment (epoch tag : Nat) : BitVec 512 := BitVec.ofNat 512 (0x30 <<< 504 + 9 <<< 440 + 1 <<< 438 + 1 <<< 435 + epoch <<< 424 + tag <<< 320)

/-- The same group with one unit held of a segment, the last SEG that passed, crypt groups whose engine mismatched. -/
def heldUnit (last : List (Nat × Nat)) (faults : List Nat) : State :=
  on (encrypted id) (fun d => (d.putRxg 0 0 { d.rxg 0 0 with
    held := [{ data := 0x1111, poison := false, slot := some 1, seg := 0, at_ := 0, fill := false }], faults := faults }).onSec (fun s => { s with lastSeg := last }))

theorem wit_segments : ((heldUnit [] []).dev.rxg 0 0).held.length = 1 ∧ ((encrypted id).dev.rxg 0 0).held = [] ∧ (heldUnit [] []).dev.rxGroups 0 0 = [crypt] ∧
    ((heldUnit [] []).dev.rxg 0 0).held.filter (fun v => (heldUnit [] []).dev.unitGroup 0 0 v == cgNum crypt) = ((heldUnit [] []).dev.rxg 0 0).held ∧
    ((heldUnit [] [3]).dev.rxg 0 0).faults.contains (cgNum crypt) = true ∧ ((heldUnit [] []).dev.rxg 0 0).faults.contains (cgNum crypt) = false ∧
    bits (segment 7 0).toNat 511 504 = 0x30 ∧ bits (segment 7 0).toNat 437 435 ≠ 0 ∧ bits (segment 0 0).toNat 431 424 = 0 ∧ bits (segment 7 0).toNat 431 424 = 7 ∧
    bits (segment 7 0).toNat 503 440 < tblGetD (heldUnit [(0, 10)] []).dev.sec.lastSeg (2 * 0 + bits (segment 7 0).toNat 439 439) 0 ∧
    tblGetD (heldUnit [] []).dev.sec.lastSeg 0 0 ≤ bits (segment 7 0).toNat 503 440 ∧
    halfKey ((heldUnit [] []).dev.pair (cgPair crypt)) 7 = some (0x1234, 0) ∧ halfKey ((heldUnit [] []).dev.pair (cgPair crypt)) 8 = some (0x5678, 1) ∧
    halfKey ((heldUnit [] []).dev.pair (cgPair crypt)) 9 = none := by decide +kernel

/-- The tag of that unit under the current half, and another. -/
def unitTag : Nat := gcmTag 0x1234 (ivOf 0 0 (cgId crypt) (1 - serving.dev.get (Reg.secEnd 0)) 0 7 9) [] 0 [0x1111] 128 / 2 ^ 64

theorem wit_tags : bits (segment 7 unitTag).toNat 383 320 = unitTag ∧ bits (segment 7 (unitTag + 1)).toNat 383 320 ≠ unitTag := by decide +kernel

/-- Sensor 2 of class 1, detecting or not; an erase pending. -/
def sensed (now_ : Nat) : State := on (set (set serving Reg.secSensors now_) Reg.secSensorClass 16) (fun d => d.onSec (fun s => { s with erasePending := true }))

theorem wit_tamper : (sensed 0).dev.dead = false ∧ ((sensed 0).dev.sec.mismatches.filter (fun x => decide ((sensed 0).dev.now < x + fuSec))).length + 1 < (sensed 0).dev.get Reg.secFaultLimit ∧
    (set (sensed 0) Reg.secFaultLimit 1).dev.get Reg.secFaultLimit ≤ 0 + 1 ∧ (sensed 0).dev.sensorClass 2 = 1 ∧ (sensed 0).dev.sensorClass 3 = 0 ∧
    (set serving Reg.secSensorClass 32).dev.sensorClass 2 = 2 ∧ (sensed 0).dev.sec.erasePending = true ∧ serving.dev.sec.erasePending = false ∧ bitAt ((set (sensed 0) Reg.secSensors 64).dev.get Reg.secSensors) 6 = true ∧ bitAt ((sensed 0).dev.get Reg.secSensors) 6 = false ∧
    serving.fresh.writes (req 2) 2 Reg.secAlarmClear.ref = true ∧
    (List.range 8).any (fun k => bitAt ((sensed 4).dev.get Reg.secSensors) k && (sensed 4).dev.sensorClass k != 0) = true ∧
    (List.range 8).any (fun k => bitAt ((sensed 0).dev.get Reg.secSensors) k && (sensed 0).dev.sensorClass k != 0) = false ∧
    serving.fresh.writes (req 3) 3 Reg.secSensorClass.ref = true ∧ sensorClassCheck 16 serving.dev = none ∧ (sensorClassCheck 3 serving.dev).isSome = true ∧
    serving.fresh.writes (req 3) 3 Reg.secClassLock.ref = true := by decide +kernel

/-- A unit of a pair: role and state set, the mate link up, a claim sent. -/
def twin (role state : Nat) (f : Twin → Twin) : State :=
  on serving (fun d => ((((d.set Reg.twinRole role).set Reg.twinState state).set Reg.twinMateState 1).set Reg.twinClaimSent 0x100).onTwin (fun t => f { t with enabled := true }))

theorem wit_cores : serving.dev.coresRun = true ∧ State.reset.dev.coresRun = false ∧ bitAt ((set serving Reg.twinCoreState 7).dev.get Reg.twinCoreState) 1 = true ∧
    bitAt ((set serving Reg.twinCoreState 5).dev.get Reg.twinCoreState) 1 = false ∧ (set serving Reg.twinCoreState 3).dev.get Reg.twinCoreState ≠ 7 ∧
    serving.dev.phase ≠ .loading ∧ (on serving (fun d => { d with phase := .loading })).dev.coresRun = true ∧
    (on serving (fun d => d.onTwin (fun t => { t with dissenting := [2] }))).dev.twin.dissenting = [2] ∧ serving.dev.now % fuCycle = 0 ∧ serving.dev.twin.dissenting = [] ∧
    serving.fresh.writes (req 2) 2 Reg.twinCoreRetry.ref = true ∧ serving.fresh.writes (req 2) 2 Reg.twinHostClass.ref = true := by decide +kernel

/-- A class that fell at reset, so long ago. -/
def fallen (now : Nat) : State := on (set (twin 1 2 (fun t => { t with lowerSince := some 0 })) Reg.twinHealth 15) (fun d => { d with now := now })

theorem wit_health : (fallen 0).dev.dead = false ∧ (fallen 0).dev.twin.enabled = true ∧ (fallen (1000 * fuSec)).dev.twin.lowerSince = some 0 ∧
    0 + (fallen 0).dev.get Reg.twinHealthHold * fuMs ≤ (fallen (1000 * fuSec)).dev.now ∧ (fallen (1000 * fuSec)).dev.healthNow < (fallen 0).dev.get Reg.twinHealth ∧
    (fallen 0).dev.now < 0 + (fallen 0).dev.get Reg.twinHealthHold * fuMs ∧ (twin 1 2 id).dev.twin.lowerSince = none ∧
    (set (twin 1 2 id) Reg.twinHealth 0).dev.get Reg.twinHealth ≤ (set (twin 1 2 id) Reg.twinHealth 0).dev.healthNow := by decide +kernel

theorem wit_claims : (twin 1 2 (fun t => { t with listening := true })).dev.twin.listening = true ∧ (twin 1 2 id).dev.twin.listening = false ∧
    (twin 1 2 id).dev.onBus = true ∧ serving.dev.onBus = false ∧ (twin 1 2 id).dev.inFrame = false ∧ (twin 1 2 id).dev.now % (100 * fuUs) = 0 ∧
    (twin 1 2 id).dev.twin.claimed = false ∧ (twin 1 2 (fun t => { t with frameAt := some 0 })).dev.inFrame = true ∧
    (set (twin 1 2 (fun t => { t with claimed := true })) Reg.twinHealth 15).dev.healthNow < 15 ∧
    (twin 1 2 (fun t => { t with frameOpen := true })).dev.twin.frameOpen = true ∧ (twin 1 2 id).dev.twin.frameOpen = false := by decide +kernel

/-- Both links lost for a millisecond, on unit 0. -/
def apart : State := on (set (set (set (twin 1 1 (fun t => { t with lostAt := some 0 })) Reg.twinUnit 0) Reg.twinBusState 1) Reg.twinMateState 0) (fun d => { d with now := fuMs })

theorem wit_takeover : apart.dev.twin.lostAt = some 0 ∧ apart.dev.onBus = true ∧ apart.dev.get Reg.twinUnit = 0 ∧ apart.dev.get Reg.twinBusState = 1 ∧
    apart.dev.get Reg.twinMateState = 0 ∧ 0 + fuMs ≤ apart.dev.now ∧ serving.dev.twin.lostAt = none ∧ serving.dev.twin.driveAt = none ∧ (twin 0 1 (fun t => { t with driveAt := some 0 })).dev.twin.driveAt = some 0 ∧
    0 ≤ (twin 0 1 id).dev.now ∧ (twin 0 1 id).dev.get Reg.twinRole = 0 ∧ (twin 0 1 id).dev.now % fuCycle = 0 := by decide +kernel

/-- The mirror in a state, epoch 4 closed and not acknowledged, epoch 5 received whole. -/
def mirror (role m : Nat) (rs : List MirrorRec) : State :=
  set (twin role 3 (fun t => { t with closed := [⟨4, [], 0⟩], ready := [⟨5, rs, 0⟩], baseAt := some 4 })) Reg.twinMirrorState m

/-- An action the active unit mirrors. -/
def mirrored : MirrorRec := ⟨2, Reg.timeForce.ref, 2, 0, 0, 0x80000001, 0, [4], []⟩

theorem wit_mirror : (mirror 0 2 []).dev.dead = false ∧ (mirror 0 2 []).dev.twin.enabled = true ∧ (mirror 0 2 []).dev.get Reg.twinMateState ≠ 0 ∧ (mirror 0 2 []).dev.journals = true ∧
    (mirror 0 2 []).dev.get Reg.twinMirrorState = 2 ∧ (mirror 0 2 []).dev.twin.closed.find? (fun e => e.num == 4) = some ⟨4, [], 0⟩ ∧ (mirror 0 2 []).dev.twin.baseAt = some 4 ∧
    (on (mirror 0 2 []) (fun d => { d with now := 10 * fuSec })).dev.twin.closed.any (fun e => decide (e.closedAt +
      (mirror 0 2 []).dev.get Reg.twinAckLimit * fuMs ≤ (on (mirror 0 2 []) (fun d => { d with now := 10 * fuSec })).dev.now)) = true ∧
    (mirror 0 2 []).dev.twin.closed.any (fun e => decide (e.closedAt + (mirror 0 2 []).dev.get Reg.twinAckLimit * fuMs ≤ (mirror 0 2 []).dev.now)) = false ∧
    (mirror 1 2 [mirrored]).dev.standby = true ∧ (mirror 1 2 []).dev.now % fuCycle = 0 ∧ (mirror 1 2 [mirrored]).dev.twin.ready = [] ++ [⟨5, [mirrored], 0⟩] ∧ mirrored.kind = 2 ∧
    (mirror 1 2 [mirrored]).dev.hostUsed < 3840 ∧ ((mirror 1 2 [mirrored]).dev.mirrorAction 5 mirrored).needs = [] ∧ (mirror 0 3 []).dev.get Reg.twinMirrorState ≠ 1 ∧
    (mirror 0 3 []).dev.get Reg.twinMirrorState ≠ 2 ∧ (mirror 0 2 []).dev.twin.closed.find? (fun e => e.num == 5) = none ∧ (∀ e ∈ (mirror 1 1 []).dev.twin.ready, e.num ≤ 5) ∧
    (mirror 1 1 []).dev.standby = true ∧ (mirror 0 1 []).dev.standby = false ∧ serving.dev.get Reg.twinMateState = 0 ∧ (mirror 1 2 []).dev.twin.ready = [] ++ [⟨5, [], 0⟩] ∧ (mirror 1 1 []).dev.get Reg.twinMirrorState = 1 := by decide +kernel


/-- Client port 4: type, enable 3, training mode 1, its lane and the port in a state, a member of a FlexE group with flex. -/
def client (flex : Bool) (rxs st : Nat) : State :=
  on serving (fun d => ((((((({ d with lane := { d.lane with flexActive := if flex then [⟨1, [⟨4, 1, []⟩], [(0, 3)]⟩] else [] } }).set (Reg.lanePortType 4) 6).set
    (Reg.lanePortEnable 4) 3).set (Reg.laneTrain 4) 1).set (Reg.laneRxState 4) rxs).set (Reg.laneTxState 4) 2).set (Reg.lanePortState 4) st))

/-- A FlexE configuration applied. -/
def flexDue : Action := due 8 Reg.laneFlexeApply.ref 4 [] false

theorem wit_ports : serving.fresh.writes (req 1) 1 (Reg.lanePortType 4).ref = true ∧ valueCheck (Reg.lanePortType 4) (rangeOf (Reg.lanePortType 4).ref) ⟨1, 6⟩ = none ∧
    portTypeCheck 4 6 serving.dev = none ∧ (portTypeCheck 5 6 (client false 3 2).dev).isSome = true ∧ serving.fresh.writes (req 1) 1 (Reg.laneTrain 4).ref = true ∧
    trainCheck 9 1 serving.dev = none ∧ (trainCheck 5 1 (client false 3 2).dev).isSome = true ∧ (client false 3 2).dev.dead = false ∧
    (client false 3 2).dev.get (Reg.laneTrain 4) = 1 ∧ (client false 3 2).dev.get (Reg.laneRxState 4) = 3 ∧ serving.dev.get (Reg.laneTrain 7) ≠ 1 ∧
    2 ≤ (client false 3 2).dev.get (Reg.laneRxState 4) ∧ (client false 4 2).dev.get (Reg.laneRxState 4) = 4 := by decide +kernel

theorem wit_flex : (client true 4 2).dev.flexMember 4 = true ∧ (set (client true 4 2) Reg.laneFlexeRemoved 16).dev.flexRemoved 4 = true ∧
    (client true 4 2).dev.get (Reg.lanePortState 4) = 2 ∧ (client true 4 2).dev.lane.overheadLost.contains 4 = false ∧ (client false 4 2).dev.flexMember 4 = false ∧
    (sent 1 Reg.laneFlexeNext.ref [1, 2, 3] serving).endsBlock (req 1) 1 Reg.laneFlexeNext.ref (BitVec.ofNat 32 (crc32 [1, 2, 3]))
      { ref := Reg.laneFlexeNext.ref, writing := true, session := 1, total := 3, data := [1, 2, 3], transport := 0, addr := 5 } ∧
    (firing flexDue serving).dev.fires 9 flexDue 8 ∧ flexDue.target = Reg.laneFlexeApply.ref ∧
    (on serving (fun d => { d with lane := { d.lane with switching := some [1, 2] } })).dev.lane.switching = some [1, 2] := by decide +kernel

/-- The mate link runs: marks seen on lane 3, lanes to change to. -/
def mate (r : Nat × Nat × Nat) : State :=
  on (set serving Reg.laneMateEnable 0xFF) (fun d => { d with lane := { d.lane with mateOn := true, marks := [(3, r)], txNext := some (8, 0), rxNext := some (8, 0) } })

/-- The marker of a lane in a cycle. -/
def marker (lane cycle : Nat) : BitVec 128 :=
  BitVec.ofNat 128 (lane * 2 ^ 117 + 0xB5 * 2 ^ 120 + cycle * 2 ^ 16 + crc16 112 ((lane * 2 ^ 117 + 0xB5 * 2 ^ 120 + cycle * 2 ^ 16) / 2 ^ 16))

theorem wit_mate : (mate (2, 0, 4)).dev.dead = false ∧ (mate (2, 0, 4)).dev.lane.mateOn = true ∧ bitAt ((mate (2, 0, 4)).dev.get Reg.laneMateEnable) 3 = true ∧
    tblGetD (mate (2, 0, 4)).dev.lane.marks 3 (0, 0, 0) = (2, 0, 4) ∧ tblGetD (mate (2, 1, 4)).dev.lane.marks 3 (0, 0, 0) = (2, 1, 4) ∧
    (mate (2, 0, 4)).dev.markOk (marker 3 5).toNat = true ∧ markLane (marker 3 5).toNat = 3 ∧ markLane (marker 2 5).toNat ≠ 3 ∧
    (mate (2, 0, 4)).dev.markOk (marker 2 5).toNat = true ∧ 4 + 1 = markCycle (marker 3 5).toNat ∧ bitAt ((mate (0, 0, 0)).dev.get Reg.laneMateRxLanes) 3 = false ∧
    (mate (2, 0, 4)).dev.lane.txNext = some (8, 0) ∧ 0 ≤ (mate (2, 0, 4)).dev.now / fuCycle ∧ (mate (2, 0, 4)).dev.lane.rxNext = some (8, 0) := by decide +kernel

/-- The reference ready, the converter at some work, sequence 2 of two steps of two results. -/
def converter (w : Conv) (run : Option SeqRun) : State :=
  on (set serving Reg.monRefState 2) (fun d => ({ d with bias := { d.bias with visited := some 3 }, mon := { d.mon with
      work := w, calTemp := some 1000, seqs := match run with
        | some r => [(2, r)]
        | none => [] } }).setDom (Reg.monSeqSteps 2).ref
    (beBytes 8 (20 * 2 ^ 56 + 256 * 2 ^ 24 + 2 * 2 ^ 16) ++ beBytes 8 (21 * 2 ^ 56 + 256 * 2 ^ 24 + 2 * 2 ^ 16)))

/-- Those steps. -/
def steps : List Nat := beBytes 8 (20 * 2 ^ 56 + 256 * 2 ^ 24 + 2 * 2 ^ 16) ++ beBytes 8 (21 * 2 ^ 56 + 256 * 2 ^ 24 + 2 * 2 ^ 16)

/-- The sequence in a pass. -/
def pass (step taken : Nat) : SeqRun := { startAt := 0, inPass := true, step := step, discard := 0, sum := 9, taken := taken, ovr := false, resumed := false, records := [], due := false, stop := false }

/-- A start of sequence 2 that fires. -/
def startDue : Action := due 8 (Reg.monSeqRun 2).ref 1 [] false

theorem wit_converter : (converter .visit none).dev.get Reg.monRefState = 2 ∧ (converter .visit none).dev.mon.work = .visit ∧ (converter .visit none).dev.bias.visited = some 3 ∧
    (converter (.seq 2) (some (pass 0 1))).dev.mon.work = .seq 2 ∧ (converter (.seq 2) (some (pass 0 1))).dev.seqRun? 2 = some (pass 0 1) ∧
    1 < stepCount (((converter (.seq 2) none).dev.seqSteps 2).getD 0 0) ∧ (converter (.seq 2) none).dev.mon.calQueued = false ∧ serving.dev.phase ≠ .reset ∧
    (set serving Reg.monRefState 1).dev.get Reg.monRefState = 1 ∧ serving.fresh.writes (req 1) 1 Reg.monRefEnable.ref = true ∧ refEnableCheck 1 serving.dev = none ∧
    (refEnableCheck 0 (converter .selfCal none).dev).isSome = true ∧ serving.fresh.writes (req 1) 1 Reg.monCalStart.ref = true ∧
    (converter .selfCal none).dev.mon.work = .selfCal ∧ (converter .visit none).dev.mon.calTemp = some 1000 ∧ (converter .visit none).dev.tempMoved 1000 2500 = true := by
  decide +kernel

theorem wit_sequences : (sent 1 (Reg.monSeqSteps 2).ref steps serving).endsBlock (req 1) 1 (Reg.monSeqSteps 2).ref (BitVec.ofNat 32 (crc32 steps))
      { ref := (Reg.monSeqSteps 2).ref, writing := true, session := 1, total := 16, data := steps, transport := 0, addr := 5 } ∧
    serving.dev.seqRun? 2 = none ∧ (converter (.seq 2) (some (pass 0 1))).dev.seqRun? 2 ≠ none ∧ (recordsOf 8 steps).all stepValid = true ∧
    serving.dev.claimAll (ownerSeq 2) ((recordsOf 8 steps).map stepChan) = none ∧ (set serving (Reg.monSeqPeriod 2) 100).dev.get (Reg.monSeqPeriod 2) ≠ 0 ∧
    (converter .idle none).dev.seqSteps 2 ≠ [] ∧ (firing startDue (converter .idle none)).dev.fires 9 startDue 8 ∧ startDue.target = (Reg.monSeqRun 2).ref ∧
    stepCount (((converter (.seq 2) none).dev.seqSteps 2).getD 0 0) ≤ 2 ∧ 0 + 1 < ((converter (.seq 2) none).dev.seqSteps 2).length ∧
    ((converter (.seq 2) none).dev.seqSteps 2).length ≤ 1 + 1 ∧ stepCount (((converter (.seq 2) none).dev.seqSteps 2).getD 1 0) ≤ 2 ∧
    (converter .idle none).dev.dead = false := by decide +kernel

/-- Calibration of carrier 0: run and state, both directions active, ramps and reports. -/
def calibrating (run state : Nat) (f : CalSide → CalSide) : State :=
  on serving (fun d => (((((((d.set (Reg.calState 0) state).set (Reg.lineTxState 0) 3).set (Reg.lineRxState 0) 3).set (Reg.calTxEnable 0) 1).set (Reg.lineRxLoad 0 0) 32).set
    (Reg.lineTxLoad 0 0) 32).putCal 0 (f { d.calAt 0 with run := run })))

theorem wit_calibration : serving.fresh.writes (req 1) 1 (Reg.calRun 0).ref = true ∧ (serving.dev.calAt 0).run = 0 ∧ ((calibrating 1 2 id).dev.calAt 0).run = 1 ∧
    (calibrating 1 2 id).dev.get (Reg.calState 0) = 2 ∧ (calibrating 1 2 id).dev.dead = false ∧
    ((calibrating 1 3 (fun x => { x with rxRamp := { x.rxRamp with step := 63 } })).dev.calAt 0).rxRamp.step = 63 ∧ (calibrating 1 3 id).dev.get (Reg.calState 0) = 3 ∧
    ((calibrating 0 0 (fun x => { x with txRamp := { x.txRamp with step := 5 } })).dev.calAt 0).txRamp.step < 64 ∧ ((calibrating 2 4 id).dev.calAt 0).run = 2 ∧
    (calibrating 2 4 id).dev.get (Reg.lineTxState 0) = 3 ∧ ((calibrating 2 4 (fun x => { x with iter := 4 })).dev.calAt 0).iter = 4 ∧
    (calibrating 2 4 id).dev.rxReportGroup 0 = some 0 ∧ (calibrating 2 4 id).dev.rxReportGroup 0 ≠ some 5 ∧
    ((calibrating 2 4 (fun x => { x with averaging := true, reports := List.replicate 9 (List.replicate 8 1) })).dev.calAt 0).averaging = true ∧
    ((⟨0, 3, List.replicate 8 1⟩ : CalMsg).valid.toNat % 4 = 3) ∧
    (reportMeans (List.replicate 10 (List.replicate 8 1))).zipIdx.all (fun e => (calibrating 2 4 id).dev.inDeadband e.2 e.1) = true ∧
    (reportMeans (List.replicate 10 (List.replicate 8 90))).zipIdx.all (fun e => (calibrating 2 4 id).dev.inDeadband e.2 e.1) = false ∧
    64 ≤ ((calibrating 2 4 id).dev.calAt 0).txRamp.step ∧ ((calibrating 2 4 id).dev.calAt 0).averaging = false ∧ (calibrating 2 4 id).dev.on (Reg.hubEnable 0) = false ∧
    (calibrating 2 4 id).dev.txReportGroup 0 = some 0 ∧ serving.fresh.writes (req 1) 1 (Reg.calTxEnable 0).ref = true ∧ calTxEnableCheck 0 1 serving.dev = none ∧
    (calTxEnableCheck 0 1 (set serving (Reg.hubEnable 0) 1).dev).isSome = true ∧
    (sent 2 Reg.calSet.ref [1, 2] serving).endsBlock (req 2) 2 Reg.calSet.ref (BitVec.ofNat 32 (crc32 [1, 2]))
      { ref := Reg.calSet.ref, writing := true, session := 2, total := 2, data := [1, 2], transport := 0, addr := 5 } := by decide +kernel

/-- Member 4 left its group and has been up again for long. -/
def leftLong : State :=
  on (set (client true 4 2) Reg.laneFlexeRemoved 16) (fun d => { d with now := 100000 * fuSec, lane := { d.lane with flexUp := [(4, 0)] } })

theorem wit_portEdges : (client true 4 2).dev.get (Reg.lanePortType 4) ≠ 0 ∧ bitAt ((client true 4 2).dev.get (Reg.lanePortEnable 4)) 0 = true ∧
    bitAt ((set (client true 4 2) (Reg.lanePortEnable 4) 2).dev.get (Reg.lanePortEnable 4)) 0 = false ∧ (client false 1 2).dev.get (Reg.laneRxState 4) ≤ 1 ∧
    leftLong.dev.flexRejoins 4 = true ∧ (client true 4 2).dev.flexRejoins 4 = false ∧ leftLong.dev.dead = false ∧
    serving.dev.lane.switching = none := by decide +kernel

/-- Lane 3 of the mate link locked, after uncorrectable codewords in this millisecond. -/
def worn (n : Nat) : State := on (set (mate (2, 0, 4)) Reg.laneMateRxLanes 8) (fun d => { d with lane := { d.lane with cwBad := [(3, d.now, n)] } })

theorem wit_mateEdges : serving.dev.lane.mateOn = false ∧ (worn 5).dev.mateDegrades 3 (laneReceived []).2.2 = false ∧
    (worn 100000).dev.mateDegrades 3 (laneReceived []).2.2 = true ∧ (mate (2, 0, 4)).dev.mateDegrades 3 (laneReceived []).2.2 = false ∧
    bitAt ((worn 5).dev.get Reg.laneMateRxLanes) 3 = true ∧ (none : Option (BitVec 128)).all (fun w => !(worn 5).dev.markOk w.toNat || markLane w.toNat != 3) = true ∧
    (worn 5).dev.lane.mateClock = 0 ∧ serving.dev.lane.txNext.all (fun e => decide (serving.dev.now / fuCycle < e.2)) = true ∧ serving.dev.lane.rxNext = none := by
  decide +kernel

/-- A sequence that has its period. -/
def periodic (r : SeqRun) : State := set (converter .idle (some r)) (Reg.monSeqPeriod 2) 100

theorem wit_converterEdges : serving.dev.get Reg.monRefState ≠ 2 ∧ (converter .idle none).dev.mon.work = .idle ∧ serving.dev.mon.refSeen = false ∧
    44 ≤ (on (converter .selfCal none) (fun d => { d with mon := { d.mon with calConv := List.replicate 44 5 } })).dev.mon.calConv.length ∧
    (converter .selfCal none).dev.mon.calConv.length < 44 ∧ serving.dev.dead = false ∧
    (converter .idle none).dev.tempMoved ((converter .idle none).dev.getI (Reg.calTempLast 0)) 3000 = true ∧
    (set serving (Reg.calRxEnable 0) 1).dev.on (Reg.calRxEnable 0) = true ∧ (serving.dev.calAt 0).run = 0 ∧ (steps.drop 1).length % 8 ≠ 0 ∧
    (recordsOf 8 (beBytes 8 (40 * 2 ^ 56))).all stepValid = false ∧
    (serving.dev.claimAll (ownerSeq 2) ((recordsOf 8 steps).map stepChan)).isSome = false ∧
    ((set serving (Reg.monChOwner 20) 1).dev.claimAll (ownerSeq 2) ((recordsOf 8 steps).map stepChan)).isSome = true := by decide +kernel

theorem wit_passes : (periodic (pass 0 0)).dev.seqRun? 2 = some (pass 0 0) ∧ (periodic (pass 0 0)).dev.get (Reg.monSeqPeriod 2) ≠ 0 ∧
    (pass 0 0).stop = false ∧ (pass 0 0).inPass = true ∧ (periodic { pass 0 0 with inPass := false }).dev.seqRun? 2 = some { pass 0 0 with inPass := false } ∧
    serving.dev.seqSteps 2 = [] ∧ (converter .idle none).dev.seqRun? 2 = none ∧ (periodic { pass 0 0 with stop := true }).dev.seqRun? 2 = some { pass 0 0 with stop := true } ∧
    (converter .idle none).dev.mon.work ≠ .seq 2 ∧ 1 < stepCount (((converter (.seq 2) none).dev.seqSteps 2).getD 0 0) ∧
    serving.dev.get (Reg.monSeqPeriod 2) = 0 := by decide +kernel

theorem wit_calibrationEdges : ((calibrating 1 2 id).dev.calAt 0).run = 1 ∧ ((calibrating 2 4 id).dev.calAt 0).run = 2 ∧ 64 ≤ (serving.dev.calAt 0).rxRamp.step ∧
    ((calibrating 2 4 (fun x => { x with txRamp := { x.txRamp with step := 63 } })).dev.calAt 0).txRamp.step = 63 ∧ (serving.dev.calAt 0).iter < 4 ∧
    (List.replicate 3 (List.replicate 8 (1 : Int))).length < 10 ∧ serving.dev.on (Reg.hubEnable 0) = false ∧
    serving.dev.get (Reg.lineRxState 0) ≠ 3 ∧ (set serving (Reg.hubEnable 0) 1).dev.on (Reg.hubEnable 0) = true ∧
    calTxEnableCheck 0 0 (calibrating 2 4 id).dev = none := by decide +kernel


/-- Bytes of member records: reference and CLEAR. -/
def memberBytes (l : List (Nat × Nat)) : List Nat := l.flatMap (fun e => beBytes 4 (e.1 * 256 + e.2))

/-- Counter 2 of block 3, cleared, and counter 1 of block 4. -/
def two : List Nat := memberBytes [((Reg.telCnt 3 2).ref, 1), ((Reg.telCnt 4 1).ref, 0)]

/-- Group 5 with those members, its destination, records waiting. -/
def grouped (dest : Nat) (w : List RingRec) : State :=
  on serving (fun d => (((d.setDom (Reg.telGrpMembers 5).ref two).set (Reg.telGrpDest 5) dest).onTel (fun t => { t with waiting := w })))

/-- A dump of group 5, and a record of it. -/
def dump : Action := due 5 (Reg.telGrpDump 5).ref 1 [5] false
def dumped : RingRec := ⟨1, 5, 2, 0, 77, 0, false, 0, List.replicate 16 0⟩

theorem wit_counters : serving.fresh.writes (req 1) 1 (Reg.telCntCtrl 3 2).ref = true ∧ ctrlValid 3 0x80010000 = true ∧ ctrlValid 3 0x80030009 = false ∧
    serving.fresh.writes (req 1) 1 (Reg.telCnt 3 2).ref = true := by decide +kernel

theorem wit_members : (sent 1 (Reg.telGrpMembers 5).ref two serving).endsBlock (req 1) 1 (Reg.telGrpMembers 5).ref (BitVec.ofNat 32 (crc32 two))
      { ref := (Reg.telGrpMembers 5).ref, writing := true, session := 1, total := 8, data := two, transport := 0, addr := 5 } ∧
    (recordsOf 4 two).length ≤ 168 ∧ two.length % 4 = 0 ∧ two.length ≤ 1024 ∧ (two.drop 1).length % 4 ≠ 0 ∧ (set serving (Reg.telGrpDest 5) 1).dev.get (Reg.telGrpDest 5) ≠ 0 := by decide +kernel

theorem wit_validMembers : (recordsOf 4 two).all memberValid = true := by decide +kernel

theorem wit_invalidMembers : (recordsOf 4 (memberBytes [((Reg.telCycles 3).ref, 1)])).all memberValid = false := by decide +kernel

/-- The same member 169 times. -/
def many : List Nat := memberBytes (List.replicate 169 ((Reg.telCnt 4 1).ref, 0))

theorem wit_manyMembers : (recordsOf 4 many).all memberValid = true ∧ 168 < (recordsOf 4 many).length := by
  have h : recordsOf 4 many = List.replicate 169 ((Reg.telCnt 4 1).ref * 256) := by decide +kernel
  have v : memberValid ((Reg.telCnt 4 1).ref * 256) = true := by decide +kernel
  rw [h, List.length_replicate, List.all_replicate, v]; exact ⟨by simp, by decide⟩

theorem wit_dumps : serving.dev.dead = false ∧ (firing dump (grouped 0 [])).dev.fires 9 dump 5 ∧ dump.args = [5] ∧ dump.origin = .host ∧
    (grouped 0 [dumped]).dev.tel.waiting.any (fun r => r.typ == 1 && r.id == 5) = true ∧
    ((grouped 0 []).dev.tel.waiting.any (fun r => r.typ == 1 && r.id == 5) || !(grouped 0 []).dev.telRoom (ceilTo 64 (64 + 8 * ((grouped 0 []).dev.members 5).length))) = false ∧
    (grouped 2 []).dev.get (Reg.telGrpDest 5) ≠ 1 ∧ (grouped 2 []).dev.get (Reg.telGrpDest 5) ≤ 2 ∧ (grouped 1 []).dev.get (Reg.telGrpDest 5) = 1 := by decide +kernel

/-- The group's own latch, every 5 ms; its counter at 77, which a counter of the telemetry block does not count. -/
theorem wit_latches : (firing (due 5 0 0 [5] true) (set (grouped 0 []) (Reg.telGrpPeriod 5) 5)).dev.fires 9 (due 5 0 0 [5] true) 5 ∧
    (set (grouped 0 []) (Reg.telGrpPeriod 5) 5).dev.get (Reg.telGrpPeriod 5) ≠ 0 ∧ ((grouped 0 []).dev.members 5)[0]? = some ((Reg.telCnt 3 2).ref * 256 + 1) ∧
    memberClear ((Reg.telCnt 3 2).ref * 256 + 1) = true ∧ memberRef ((Reg.telCnt 3 2).ref * 256 + 1) = (Reg.telCnt 3 2).ref ∧
    (poisonRefs 11 0x9FF0 ++ noticed Reg.schedList.ref ++ noticed (Reg.telGrpRecord 5).ref).contains (Reg.telCnt 3 2).ref = false ∧
    (((grouped 0 []).dev.members 5).map memberRef).contains (Reg.memPoisonConsumed 10).ref = false := by decide +kernel

theorem wit_ring : (grouped 0 []).dev.tel.waiting = [] ∧ (grouped 0 [dumped]).dev.tel.waiting = [dumped] ∧
    (grouped 0 [dumped]).dev.ringHeld ((grouped 0 [dumped]).dev.get Reg.telRingWrite + recSize dumped) = false ∧
    (on (set (grouped 0 [dumped]) Reg.telRingWrite 0x100000000) (fun d => d.onTel (fun t => { t with reading := some (0, 64) }))).dev.ringHeld
      ((set (grouped 0 [dumped]) Reg.telRingWrite 0x100000000).dev.get Reg.telRingWrite + recSize dumped) = true ∧ recSize dumped ≤ ringBytes ∧
    serving.fresh.writes (req 1) 1 Reg.telRingFrom.ref = true ∧ valueCheck Reg.telRingFrom (rangeOf Reg.telRingFrom.ref) ⟨8, 64⟩ = none ∧
    (set serving Reg.telRingWrite 128).dev.get Reg.telRingOldest ≤ 64 ∧ 64 < (set serving Reg.telRingWrite 128).dev.get Reg.telRingWrite ∧
    serving.dev.get Reg.telRingWrite ≤ 64 := by decide +kernel

/-- A start of set 1, by the host or by its period. -/
def sweepDue (own : Bool) : Action := due 8 (Reg.telSweepStart 1).ref 1 [] own

/-- Sweeps under way, sets due. -/
def sweeping (ws : List (Nat × Sweep)) (l : List Nat) : State := on serving (fun d => d.onTel (fun t => { t with sweeps := ws, due := l }))

theorem wit_sweepStarts : (firing (sweepDue false) serving).dev.fires 9 (sweepDue false) 8 ∧ (sweepDue false).target = (Reg.telSweepStart 1).ref ∧
    (sweepDue false).origin ≠ .device ∧ serving.dev.sweep? 1 = none ∧ (sweeping [(1, ⟨0, [], 0, [], 0⟩)] []).dev.sweep? 1 ≠ none ∧
    (firing (sweepDue true) serving).dev.fires 9 (sweepDue true) 8 ∧ (sweepDue true).origin = .device ∧ serving.dev.get (Reg.telSweepPeriod 1) = 0 ∧
    (set serving (Reg.telSweepPeriod 1) 10).dev.get (Reg.telSweepPeriod 1) ≠ 0 ∧ 1 ∈ (sweeping [] [1]).dev.tel.due ∧ 1 ∉ serving.dev.tel.due ∧
    serving.dev.action? 9 = none := by decide +kernel

/-- Every set under way, a flow, a queue and a group to read. -/
def reading (done : List Nat) : State :=
  on (group 1 id id) (fun d => { d with
    tel := { d.tel with sweeps := [(0, ⟨0, done, 0, [], 0⟩), (1, ⟨0, done, 0, [], 0⟩), (2, ⟨0, done, 0, [], 0⟩)] },
    pkt := { d.pkt with flows := [(5, { flowOf (flow 1).toNat 0 with valid := true })], queues := [(9, { queueNew 9 with cfg := egressRec, state := 1 })] } })

theorem wit_sweepItems : (reading []).dev.telRoom 128 = true ∧ (reading []).dev.sweep? 0 = some ⟨0, [], 0, [], 0⟩ ∧ (tblGet (reading []).dev.pkt.flows 5).any (·.valid) = true ∧
    (reading []).dev.comes 0 = true ∧ (reading []).dev.comes fuCycle = false ∧ (tblGet (reading []).dev.pkt.flows 6).any (·.valid) = false ∧
    [6].any (fun k => (tblGet (reading []).dev.pkt.flows k).any (·.valid)) = false ∧ [6, 5].any (fun k => (tblGet (reading []).dev.pkt.flows k).any (·.valid)) = true ∧
    (set serving (Reg.telSweepClear 1) 1).dev.on (Reg.telSweepClear 1) = true ∧ serving.dev.on (Reg.telSweepClear 1) = false ∧ serving.dev.sweep? 1 = none ∧
    nextOf [] (((reading []).dev.pkt.queues.filter (fun e => qcEnable e.2.cfg)).map (·.1)) = some 9 ∧
    nextOf [9] (((reading [9]).dev.pkt.queues.filter (fun e => qcEnable e.2.cfg)).map (·.1)) = none ∧ nextOf [] (reading []).dev.fab.active.groupList = some 5 ∧
    nextOf [5] (reading [5]).dev.fab.active.groupList = none ∧
    (on serving (fun d => { d with now := 1000 * fuMs, tel := { d.tel with bwCycles := 10, bwBytes := [(4, 1000)] } })).dev.bwEnds = true ∧ serving.dev.bwEnds = false := by decide +kernel

/-- A record waits whose body is l. -/
def bulky (l : List Nat) : State := on serving (fun d => d.onTel (fun t => { t with waiting := [{ dumped with body := l }] }))

/-- The buffer has no room beside a mebibyte. -/
theorem wit_noRoom : (bulky (List.replicate 1048576 0)).dev.telRoom 128 = false := by
  have go : ∀ l : List Nat, 1048576 ≤ l.length → (bulky l).dev.telRoom 128 = false := by
    intro l h
    show decide (0 + (64 + l.length + 64 - 1) / 64 * 64 + 128 ≤ 2 ^ 20) = false
    exact decide_eq_false (by omega)
  exact go _ (Nat.le_of_eq List.length_replicate.symm)


/-- The device in a phase of its start. -/
def starting (p : Phase) (f : Pwr → Pwr) : State := on State.reset (fun d => { d with phase := p, pwr := f d.pwr })

theorem wit_reset : serving.dev.phase ≠ .reset ∧ (starting .reset id).dev.phase = .reset ∧ (starting .reset (fun p => { p with clock := true })).dev.phase = .reset ∧
    (starting .reset (fun p => { p with clock := true })).dev.pwr.clock = true ∧ (starting .reset (fun p => { p with clock := false })).dev.pwr.clock = false ∧
    (starting .boot id).dev.phase = .boot ∧ (starting .loading id).dev.phase = .loading ∧ (starting .loading (fun p => { p with active := 0 })).dev.pwr.active < 2 ∧ serving.dev.phase ≠ .boot ∧
    serving.dev.phase ≠ .loading ∧ (starting .running (fun p => { p with writing := some (1, 9) })).dev.pwr.writing = some (1, 9) ∧
    (starting .recovery (fun p => { p with writing := some (1, 9) })).dev.phase = .recovery ∧ serving.dev.pwr.writing = none := by decide +kernel

/-- Slots of the boot code's choice: both valid, the first failed so often. -/
def slotPair (st0 st1 fails : Nat) : Pair ImgSlot := ⟨⟨st0, 77, fails⟩, ⟨st1, 78, 0⟩⟩

theorem wit_booted : ((slotPair 1 1 2).at 0).state = 1 ∧ ((slotPair 1 1 2).at 0).fails < 3 ∧ 3 ≤ ((slotPair 1 1 3).at 0).fails ∧ ((slotPair 1 0 3).at 1).state ≠ 1 ∧
    ((slotPair 0 1 0).at 0).state ≠ 1 ∧ ((slotPair 0 0 0).at 1).state ≠ 1 ∧ (starting .running (fun p => { p with writing := some (1, 9), active := 0 })).dev.pwr.active ≠ 1 := by
  decide

/-- A valid image in slot 1, a switch to it, a trial. -/
def imaged (trial : Bool) (slot : Nat) : State := on serving (fun d => { d with pwr := { d.pwr with trial := trial, slots := ⟨d.pwr.slots.c0, ⟨slot, 77, 0⟩⟩ } })
def switchDue : Action := { due 6 Reg.pwrImgSwitch.ref 1 [] false with kind := .pps }

theorem wit_images : (sent 2 Reg.pwrImgData.ref [1, 2, 3] serving).endsBlock (req 2) 2 Reg.pwrImgData.ref (BitVec.ofNat 32 (crc32 [1, 2, 3]))
      { ref := Reg.pwrImgData.ref, writing := true, session := 2, total := 3, data := [1, 2, 3], transport := 0, addr := 5 } ∧
    serving.dev.phase = .running ∧ (firing switchDue (imaged false 1)).dev.fires 9 switchDue 6 ∧ switchDue.value < 2 ∧
    ((imaged false 1).dev.pwr.slots.at 1).state = 1 ∧ ((imaged false 0).dev.pwr.slots.at 1).state ≠ 1 ∧ (firing switchDue (imaged false 0)).dev.fires 9 switchDue 6 ∧
    serving.fresh.writes (req 2) 2 Reg.pwrImgConfirm.ref = true ∧ (imaged true 1).dev.pwr.trial = true ∧ (imaged false 1).dev.pwr.trial = false ∧
    (imaged true 1).dev.dead = false ∧ (imaged true 1).dev.phase ≠ .loading ∧ (imaged true 1).dev.pwr.active < 2 ∧
    imageValid serving.dev.pwr.rollback [1, 2, 3] = false := by decide +kernel

/-- Control restarting, with an action that fell due meanwhile. -/
def restarting (late : Bool) (bake : Nat) : State :=
  on (firing { due 8 (Reg.telSweepStart 1).ref 1 [] false with late1 := late, bake := bake } serving) (fun d => { d with phase := .restarting })

theorem wit_restarts : (on serving (fun d => { d with phase := .restarting })).dev.phase = .restarting ∧ serving.dev.sched.bundles.all (fun b => b.values.isEmpty) = true ∧
    (on serving (fun d => { d with phase := .restarting })).dev.fellDue = [] ∧
    (restarting true 5).dev.fellDue = [{ due 8 (Reg.telSweepStart 1).ref 1 [] false with late1 := true, bake := 5 }] ∧
    (restarting false 0).dev.fellDue = [{ due 8 (Reg.telSweepStart 1).ref 1 [] false with late1 := false, bake := 0 }] ∧
    (restarting false 5).dev.fellDue = [{ due 8 (Reg.telSweepStart 1).ref 1 [] false with late1 := false, bake := 5 }] ∧
    swaps (due 8 (Reg.telSweepStart 1).ref 1 [] false) = false ∧ serving.dev.phase ≠ .restarting := by decide +kernel

/-- An entry into a power state, and a wake. -/
def sleepDue (r p : Nat) : Action := due 7 0 0 [0, r, p] true
def wakeDue (r : Nat) : Action := due 7 0 0 [1, r] true

/-- A resource asleep or waking. -/
def slept (r : Nat) (waking : Bool) : State := on serving (fun d => { d with resources := [(r, ⟨2, waking, 0, true⟩)] })

/-- A write of LINE_RX_ENABLE that waits for resource 300 alone, its row, the device it finds. -/
def waitsFor : Deferred := ⟨req 1, 2, (Reg.lineRxEnable 0).ref, 1, [], [300]⟩
def deferring : State := on (slept 300 true) (fun d => { d with deferred := [waitsFor] })

theorem wit_deferred : deferring.dev.deferred = [waitsFor] ∧ waitsFor.needs = [300] ∧ waitsFor.svc = 2 ∧ (rowOf waitsFor.ref).isSome = true ∧ deferring.dev.journals = false ∧
    (match rowOf waitsFor.ref with
     | some row => (plainEffect row waitsFor.ref 1 ({ deferring.fresh.takeSeq.awake 300 with deferred := [] } : Device)).isOk
     | none => false) = true ∧
    (slept 840 true).dev.resource 840 = ⟨2, true, 0, true⟩ ∧ serving.dev.resource 300 = ⟨0, false, 0, false⟩ := by decide +kernel

theorem wit_power : serving.dev.dead = false ∧ (firing (sleepDue 300 2) serving).dev.fires 9 (sleepDue 300 2) 7 ∧ (firing (sleepDue resHbm 3) serving).dev.fires 9 (sleepDue resHbm 3) 7 ∧
    (firing (sleepDue 801 2) serving).dev.fires 9 (sleepDue 801 2) 7 ∧ (sleepDue 300 2).args = [0, 300, 2] ∧ (firing (wakeDue 300) (slept 300 false)).dev.fires 9 (wakeDue 300) 7 ∧
    ((slept 300 false).dev.resource 300).state ≠ 0 ∧ ((slept 300 false).dev.resource 300).waking = false ∧ ((slept 300 true).dev.resource 300).waking = true ∧
    (slept 300 true).dev.deferred.all (fun x => x.needs.any (· != 300)) = true ∧ ((slept resHbm true).dev.resource resHbm).waking = true ∧
    ((slept 801 true).dev.resource 801).waking = true ∧ serving.fresh.writes (req 1) 1 Reg.pwrFecActive.ref = true ∧
    valueCheck Reg.pwrFecActive (rangeOf Reg.pwrFecActive.ref) ⟨1, 12⟩ = none ∧ fecActiveCheck 12 serving.dev = none ∧
    (fecActiveCheck 1 (set (set serving (Reg.lineRxEnable 0) 1) (Reg.lineRxEnable 1) 1).dev).isSome = true := by decide +kernel

/-- The store with a saved image, and a DOMAIN's slot. -/
def stored (valid rewriting : Bool) (next : Option (List Nat)) : State :=
  on serving (fun d => { d with store := { d.store with saved := { d.store.saved with valid := valid }, liveDoms := [((Reg.monSeqSteps 2).ref, ⟨4, some [1], some [2], rewriting, next⟩)] } })

/-- An image being saved. -/
def saving : State := on serving (fun d => { d with store := { d.store with saving := some { d.store.saved with valid := true } } })

theorem wit_store : serving.fresh.writes (req 1) 1 Reg.dictSave.ref = true ∧ serving.dev.storeBusy = none ∧ saving.dev.storeBusy.isSome = true ∧ saving.dev.store.saving.isSome = true ∧
    saving.dev.dead = false ∧ serving.dev.store.saving = none ∧ serving.fresh.writes (req 1) 1 Reg.dictRestore.ref = true ∧ serving.fresh.writes (req 2) 2 Reg.dictRestore.ref = true ∧
    serving.dev.store.loading = false ∧ (stored true false none).dev.store.saved.valid = true ∧ (stored false false none).dev.store.saved.valid = false ∧
    (sent 2 Reg.dictImport.ref [1, 2, 3] serving).endsBlock (req 2) 2 Reg.dictImport.ref (BitVec.ofNat 32 (crc32 [1, 2, 3]))
      { ref := Reg.dictImport.ref, writing := true, session := 2, total := 3, data := [1, 2, 3], transport := 0, addr := 5 } ∧
    tblGet (stored true true none).dev.store.liveDoms (Reg.monSeqSteps 2).ref = some ⟨4, some [1], some [2], true, none⟩ ∧
    tblGet (stored true true (some [3])).dev.store.liveDoms (Reg.monSeqSteps 2).ref = some ⟨4, some [1], some [2], true, some [3]⟩ ∧
    tblGet (stored true false none).dev.store.liveDoms (Reg.monSeqSteps 2).ref = some ⟨4, some [1], some [2], false, none⟩ ∧
    (tblGet (stored true false none).dev.store.liveDoms (Reg.monSeqSteps 2).ref).any (·.rewriting) = false ∧
    (tblGet serving.dev.store.liveDoms (Reg.monSeqSteps 2).ref).any (·.rewriting) = false := by decide +kernel

/-- The device booting, with a request and what is stored. -/
def booting (request : Nat) (live : List (Nat × StoreRec)) : State :=
  on State.reset (fun d => { d with phase := .boot, store := { d.store with request := request, live := live, saved := { d.store.saved with valid := true } } })

theorem wit_load : (booting 0 []).dev.phase = .boot ∧ (booting 0 []).dev.sched.bundles = [] ∧ (booting 0 []).dev.store.request = 0 ∧ (booting 0 []).dev.store.liveDoms = [] ∧
    (booting 0 []).dev.store.live = [] ∧ 5 ≠ storedDefault (BitVec.ofNat 24 Reg.telBwWindow.ref).toNat ∧ 500 ≠ Reg.telBwWindow.dflt ∧
    valueCheck Reg.telBwWindow (rangeOf Reg.telBwWindow.ref) ⟨4, 500⟩ = none ∧ (valueCheck Reg.telBwWindow (rangeOf Reg.telBwWindow.ref) ⟨4, 70000⟩).isSome = true ∧
    (booting 1 []).dev.store.saved.valid = true ∧ (booting 1 []).dev.store.saved.scalars = [] ∧ (booting 1 []).dev.store.saved.domains = [] ∧
    (booting 2 []).dev.store.request = 2 ∧ (∀ e ∈ (booting 3 [(Reg.fecMinIter.ref, ⟨1, 5, none, false⟩)]).dev.store.live, e.1 / 256 < 0x1100 ∨ 0x1108 < e.1 / 256) := by decide +kernel

/-- The device loading, with what is left to load. -/
def loading (live : List (Nat × StoreRec)) (doms : List (Nat × List Nat)) (swap : Option Nat) (l : List Action) : State :=
  on State.reset (fun d => { d with phase := .loading, store := { d.store with live := live, loadDoms := doms, loadSwap := swap }, sched := { d.sched with actions := l } })

theorem wit_resume : (loading [] [] none []).dev.phase = .loading ∧ (loading [] [] none []).dev.store.loadSwap = none ∧ (loading [] [] none []).dev.store.loadDoms = [] ∧
    (loading [(Reg.fecMinIter.ref, ⟨1, 5, none, false⟩)] [] none []).dev.store.live.all (fun e => !enableRef e.1) = true ∧
    (loading [((Reg.lanePortEnable 3).ref, ⟨1, 3, none, false⟩)] [] none []).dev.deviceUsed < 256 ∧ (loading [] [(Reg.fabMapActive.ref, [1, 2])] (some 4) []).dev.action? 4 = none ∧
    (loading [] [(Reg.fabMapActive.ref, [1, 2])] (some 4) []).dev.get Reg.fabMapGen ≠ ofBytes ([1, 2].take 2) ∧ (loading [] [] none []).dev.store.log.length < 256 ∧
    (loading [] [] (some 9) [due 1 0 7 [] true]).dev.action? 9 = some (due 1 0 7 [] true) ∧ serving.dev.phase ≠ .loading := by decide +kernel

/-- The step takes the command: the queue is not empty. -/
def waitingCommand : State := { serving with pending := [.mateLinkDown] }

theorem wit_step : State.reset.pending = [] ∧ waitingCommand.pending ≠ [] := ⟨rfl, by simp [waitingCommand]⟩


/-! ### Well-formedness: one ill-formed command for each check, and a well-formed one beside it -/

theorem test_wf_val : (Instr.write (req 1) 0x580204 ⟨1, 1⟩).wellFormed = true ∧ (Instr.write (req 1) 0x580204 ⟨1, 256⟩).wellFormed = false := by decide +kernel

theorem test_wf_valLength : (Instr.write (req 1) 0x580204 ⟨1441, 1⟩).wellFormed = false := by decide +kernel

theorem test_wf_addr : [0, 1, 2, 3].map (fun k => ((Instr.read { req 1 with transport := k, addr := 0 } [0x580204] []).wellFormed,
    (Instr.read { req 1 with transport := k, addr := 2 ^ 60 } [0x580204] []).wellFormed)) = List.replicate 4 (true, false) := by decide +kernel

theorem test_wf_member : (Instr.bundle (req 1) false [⟨0x580204, ⟨1, 1⟩⟩]).wellFormed = true ∧
    (Instr.bundle (req 1) false [⟨0x580204, ⟨1, 1⟩⟩, ⟨0x580204, ⟨1, 256⟩⟩]).wellFormed = false := by decide +kernel

theorem test_wf_event : (Instr.arbiterCycle [⟨1, 0, 0, 0, 0⟩]).wellFormed = true ∧ (Instr.arbiterCycle [⟨0, 0, 0, 0, 0⟩]).wellFormed = false := by decide +kernel

theorem test_wf_adc : (Instr.calEstimateDone 0 ⟨[1, 2, 3, 4], 0, 0, [1, 2, 3, 4, 5, 6, 7, 8], []⟩).wellFormed = true ∧
    (Instr.calEstimateDone 0 ⟨[1, 2, 3], 0, 0, [1, 2, 3, 4, 5, 6, 7, 8], []⟩).wellFormed = false ∧
    (Instr.rxStageComplete 0 1 ⟨[1, 2, 3, 4], 0, 0, [1, 2], []⟩).wellFormed = false := by decide +kernel

theorem test_wf_leaf : (Instr.eopReassemblyTimeout 0 128 0).wellFormed = true ∧ (Instr.eopReassemblyTimeout 0 129 0).wellFormed = false := by decide +kernel

theorem test_wf_records : (Instr.epochReceived 1 [mirrored] true).wellFormed = true ∧ (Instr.epochReceived 1 [{ mirrored with kind := 4 }] true).wellFormed = false ∧
    (Instr.baselineComplete ⟨1, 0, [], [], [], [], 0, [], [], [{ mirrored with kind := 4 }]⟩).wellFormed = false := by decide +kernel

theorem test_wf_mate : (Instr.mateControlMessage ⟨some (1, 5, true, true), none, none, none, none, []⟩).wellFormed = true ∧
    (Instr.mateControlMessage ⟨some (2, 5, true, true), none, none, none, none, []⟩).wellFormed = false ∧
    (Instr.mateControlMessage ⟨none, none, none, none, some (1, [{ mirrored with kind := 4 }]), []⟩).wellFormed = false := by decide +kernel

theorem test_wf_ptp : (Instr.ptpMessage 1 (ptp 0 true)).wellFormed = true ∧ (Instr.ptpMessage 1 { ptp 0 true with domain := 256 }).wellFormed = false := by decide +kernel

theorem test_wf_calReport : (Instr.calReport 0 0 ⟨0, 3, List.replicate 8 1⟩).wellFormed = true ∧ (Instr.calReport 0 0 ⟨0, 3, List.replicate 7 1⟩).wellFormed = false := by decide +kernel

theorem test_wf_snr : (Instr.snrWindowEnd 0 0 9 ⟨[1, 2, 3, 4], 0, 0, 0⟩).wellFormed = true ∧ (Instr.snrWindowEnd 0 0 9 ⟨[1, 2, 3], 0, 0, 0⟩).wellFormed = false := by
  decide +kernel

/-- No row of the table gives bits: no word spells a command, and nothing is put in the queue. -/
theorem test_decode_none (n w : Nat) (s : State) : decodeTableWord n w = none ∧ s.withFetchWord n w = s := ⟨rfl, rfl⟩

/-! ### Worked examples of the manual -/

/-- The example after R30: bake time .000 250 000 5 s, kinds Calendar and PPS. -/
theorem test_boundaries : serving.dev.boundaryAt .calendar (250000 * fuNs + fuNs / 2) = 256000 * fuNs ∧
    serving.dev.boundaryAt .pps (1700000000 * fuSec + 250000 * fuNs + fuNs / 2) = 1700000001 * fuSec := by decide +kernel

/-- Table of R93's example: SNR 15.2, 17.8, 18.0, 14.x and 2.5 dB at margin 1.0 and gap -0.3. -/
theorem test_rule : [1520, 1660, 1730, 1780, 1800, 1720, 1640, 250].map (fun s => ruleCode s 100 (-30) 96 false false) = [77, 85, 88, 91, 92, 88, 84, 0] := by decide +kernel

/-- The hysteresis of the same example: at 15.3 dB and margin 1.3 dB the rule gives 76, at 15.53 dB 78. -/
theorem test_rule_hysteresis : ruleCode 1530 130 (-30) 96 false false = 76 ∧ ruleCode 1553 130 (-30) 96 false false = 78 := by decide +kernel

/-- R134's example: N for sixteen and for fifteen subcarriers at code 88. -/
theorem test_lineSlots : lineSlots (List.replicate 16 88) 1 = 236595 ∧ lineSlots (List.replicate 15 88 ++ [0]) 1 = 221807 := by decide +kernel

/-- Slice-group AIS (R194, R197): the header, and the first payload unit scrambled bit by bit. -/
theorem test_aisBlock : hcrcOk (gridAis none).2 = true ∧ ghAis (gridAis none).2 = true ∧ ghSeq (gridAis (some ⟨4, 255, 0⟩)).2 = 5 ∧
    bitsDown 128 (gridAis (some ⟨4, 0, 0⟩)).2 = scramble (2 ^ 31 - 1) (List.replicate 128 true) := by decide +kernel

/-- A selector that meets two changes takes the one that is a cycle old (R203). -/
theorem test_selector : (selectorStep (3 * fuCycle) { groupNew with pend := [(fuCycle, 1), (5 * fuCycle / 2, 0)] }).1.selected = 1 := by decide +kernel

/-- R155's example: five blocks at code 64. -/
theorem test_burstLength : burstLen 5 64 1 = 1585 := by decide +kernel

/-- Table 15.4: slots of a 25GBASE-R client; R371. -/
theorem test_slots25 : slotsOfRate 25 = 2521 := by decide +kernel

/-- R379's example: the mate port's slots over eight and over seven lanes, and the largest. -/
theorem test_mateSlots : mateSlots 0xFF 1024 = 83304 ∧ mateSlots 0xDF 1024 = 72763 ∧ mateSlots 0xFF 256 = 84072 := by decide +kernel

/-- R228's example: the charge of a 1 500-byte and of a 1 000-byte frame, and the largest for an MTU of 9 216. -/
theorem test_charge : chargeOf 1500 = 1512 ∧ chargeOf 1000 = 1008 ∧ chargeOf 9216 = 9224 := by decide +kernel

/-- The example after R287: θ is +35 ns and the mean delay 195 815.131 ns. -/
theorem test_exchange : exchange ⟨0, 62500140 * 65536, 2480000, (62698475262 * 65536 + 500) / 1000, 0⟩ ⟨0, 62500090 * 65536, 2480000, 0⟩ (62698345 * 65536) 10262 0 = (35000, 195815131) := by
  decide +kernel

/-- Its A: 702.5 ps/nm times 14.608 nm. -/
theorem test_asymmetry : (on (set (set (set serving (Reg.timeLtMode 0) 1) (Reg.lineRxCd 0) 719) (Reg.timeLtFarFreq 0) 191300000) (fun d =>
    (d.set (Reg.lineItlaUse 0) 3).set (Reg.lineItlaFreq 0) 193100000)).dev.asymmetry 0 686 true = some 10262 := by decide +kernel

/-- The example of chapter 12: E is 572.2 ns (the phases here give the same anchor slope, 1.5e-12). -/
theorem test_expectation : (on (set (set serving Reg.timeHoResid 1200) Reg.timeHoDriftSe 600) (fun d =>
    { d with tim := { d.tim with ho := { d.tim.ho with phases := [3, -3, -3, 3] } } })).dev.expectation = 573 := by decide +kernel

/-- The example of chapter 14: unit 1 at class 9, a standby, claims 0x9800 with its epoch inverted and its number. -/
theorem test_claim : (on (set (set (set (twin 1 1 id) Reg.twinHealth 9) Reg.twinUnit 1) Reg.twinEpoch 412) id).dev.claim = 0x9800 + (1023 - 412) * 2 + 1 := by decide +kernel

/-- The example of chapter 19: a record of 100 members takes 896 bytes. -/
theorem test_recordSize : recSize { dumped with body := List.replicate 800 0 } = 896 := by decide +kernel

end Sys2Proof.Tests
end

/-! READ and WRITE (R6, R415, R416): what a read item holds, what an executed write takes, and the frames of both. -/

namespace Sys2Proof.Machine

namespace Device

variable {refs : List Nat} {parts : List Part} {lvl ref : Nat} {r : ObjRow}

/-! ### READ -/

/-- A consumer that meets poisoned data changes its row's count, its block's faults and counters (R256). -/
theorem consumed_keeps (d : Device) (row block : Nat) (h : ∀ x ∈ poisonRefs row block, x ∈ refs) : d.keeps (d.consumed row block) refs parts :=
  keeps_trans (bump_keeps d _ (h _ (by simp [poisonRefs])))
    (keeps_trans (setBit_keeps _ _ _ _ (h _ (by simp [poisonRefs]))) (countEvent_keeps _ _ _ _ (fun x hx => h x (by simp [poisonRefs, hx]))))

theorem poisonedRead_keeps (d : Device) (hr : (Reg.memPoisonReads 0).ref ∈ refs) (h : ∀ x ∈ poisonRefs 8 0xFFF0, x ∈ refs) :
    d.keeps d.poisonedRead refs parts :=
  keeps_trans (bump_keeps d _ hr) (consumed_keeps _ _ _ h)

theorem readItemOr_poisoned {d : Device} (h : (d.readItem lvl ref).1 = stSuccess) :
    d.readItemOr lvl ref true = (stUncorrectable, (d.readItem lvl ref).2.1, []) := if_pos ⟨rfl, h⟩

theorem readItem_domain {d : Device} (hp : d.phase = .running) (hr : rowOf ref = some r) (ht : r.ty = tyDomain) :
    d.readItem lvl ref = (stUseBlock, r.ty, []) := by
  simp [readItem, hr, hp, ht]

theorem readItem_writeOnly {d : Device} (hp : d.phase = .running) (hr : rowOf ref = some r) (ht : r.ty ≠ tyDomain) (ha : r.access = .wo) :
    d.readItem lvl ref = (stDenied, r.ty, []) := by
  simp [readItem, hr, hp, ht, ha]

/-- A scalar that may be read and does not follow from other state reads as the dictionary holds it. -/
theorem readItem_stored {d : Device} (hp : d.phase = .running) (hr : rowOf ref = some r) (ht : r.ty ≠ tyDomain) (ha : r.access ≠ .wo)
    (hl : readLevel (ref / 256) ≤ lvl) (hs : d.shown ref = none) :
    d.readItem lvl ref = (stSuccess, r.ty, beBytes (rowObj r ref).bytes (d.get (rowObj r ref))) := by
  simp [readItem, hr, hp, ht, ha, Nat.not_lt.mpr hl, scalar, hs]

/-! ### WRITE -/

/-- Only a receive enable needs sleeping resources, and it has an effect of its own. -/
theorem writeNeeds_of_ownEffect_none {d e : Device} {v : Nat} (h : ownEffect ref v d = none) : e.writeNeeds ref v = [] := by
  refine if_neg (fun hx => ?_)
  obtain ⟨rfl | rfl, -⟩ := hx <;> simp [ownEffect, rxEffect, Reg.lineRxEnable] at h

/-- Sending an effect's answer, or withholding it, changes nothing besides. -/
theorem withholdReply_keeps (d : Device) (q : Req) (ref : Nat) (x : Device × Reply) :
    x.1.keeps ((d.withhold q ref x).1.reply q 2 (d.withhold q ref x).2) refs parts :=
  keeps_trans (withhold_keeps d q ref x) (reply_keeps _ _ _ _)

end Device

theorem objOf_ref (r : ObjRow) (ref : Nat) : (objOf r ref).ref = ref := by
  unfold objOf; split
  · rename_i h; exact h.symm
  · rfl

/-- No write is open to a request without a session (Table 18.1). -/
theorem writeLevelOf_ne_zero (r : ObjRow) (ref v : Nat) : writeLevelOf r ref v ≠ 0 := by
  have h : 1 ≤ rangeLevel (ref / 256) := by
    unfold rangeLevel; split
    · decide
    · split <;> decide
  unfold writeLevelOf; omega

theorem plainEffect_stored {r : ObjRow} {ref v : Nat} {d : Device} (ha : r.access = .rw) (hn : ownEffect ref v d = none) :
    plainEffect r ref v d = .ok (d.putValue (objOf r ref) (rangeKeep r.range v)) := by
  simp [plainEffect, hn, ha]

/-- A clear of an object with neither a place of its own nor a counter behind it writes the Default. -/
theorem clearEffect_default {r : ObjRow} {ref : Nat} {d : Device} (hg : ref / 256 ≠ 0x3012) (ht : ¬(0x9100 ≤ ref / 256 ∧ ref / 256 ≤ 0x910F))
    (hp : d.packetClear ref = none) : clearEffect r ref d = d.set (rowObj r ref) (rowDefault r ref) := by
  simp [clearEffect, hg, ht, hp]

theorem exec_read (s : State) (q : Req) (refs poisoned : List (BitVec 24)) :
    exec (.read q refs poisoned) s = onDev s (fun d => d.serve q 1 0 false Reg.pwrResetCause.ref (fun lvl d =>
      if 64 < refs.length then (d, .fail (err stMalformed))
      else (d.each (refs.filter (fun r => poisoned.contains r && (d.readItem lvl r.toNat).1 == stSuccess)) (fun _ x => x.poisonedRead),
        .ok (refs.flatMap (fun r => itemBytes (d.readItemOr lvl r.toNat (poisoned.contains r))))))) := rfl

theorem exec_write (s : State) (q : Req) (ref : BitVec 24) (v : Val) :
    exec (.write q ref v) s = onDev s (fun d => d.serve q 2 (levelOf ref.toNat v.raw) true ref.toNat (fun _ d => writeAny q ref.toNat v d)) := rfl

section Executed

variable {s : State} {q : Req} {ref : BitVec 24} {v : Val} {r : ObjRow}

/-- A WRITE of an object that the device executes: what the row's access makes of it, and its answer. -/
theorem run_writeAny (hr : rowOf ref.toNat = some r) (hw : s.fresh.writes q (writeLevelOf r ref.toNat v.raw) ref.toNat = true) :
    exec (.write q ref v) s =
      .next (s.after ((writeAny q ref.toNat v (s.fresh.found q)).1.reply q 2 (writeAny q ref.toNat v (s.fresh.found q)).2)) := by
  have hg : s.fresh.grants q (levelOf ref.toNat v.raw) = true := by
    unfold levelOf; rw [hr]; exact Device.writes_grants hw
  exact run_served (f := fun _ d => writeAny q ref.toNat v d) (exec_write s q ref v) hg

/-- A refused WRITE: the error is answered, nothing is written. -/
theorem run_writeAny_refused {e : Err} (hr : rowOf ref.toNat = some r) (hw : s.fresh.writes q (writeLevelOf r ref.toNat v.raw) ref.toNat = true)
    (he : writeAny q ref.toNat v (s.fresh.found q) = (s.fresh.found q, .fail e)) :
    ∃ t, exec (.write q ref v) s = .next t ∧ t.answers (respOf q 2 e.status (errBytes e)) ∧ s.leaves t numbered [] := by
  refine ⟨_, run_writeAny hr hw, ?_⟩
  rw [he]
  exact ⟨Device.reply_fail_answers _ _ _ _ _,
    State.leaves_of_keeps (Device.keeps_trans (Device.found_keeps _ _ (by simp [numbered])) (Device.reply_keeps _ _ _ _))⟩

theorem writeAny_domain (d : Device) (hr : rowOf ref.toNat = some r) (ht : r.ty = tyDomain) :
    writeAny q ref.toNat v d = (d, .fail (err stUseBlock)) := by
  simp [writeAny, hr, ht]

theorem writeAny_readOnly (d : Device) (hr : rowOf ref.toNat = some r) (ht : r.ty ≠ tyDomain) (ha : r.access = .ro) :
    writeAny q ref.toNat v d = (d, .fail (err stDenied)) := by
  simp [writeAny, hr, ht, ha]

/-- A write of an RW object with neither a check nor an effect of its own, when executed, stores the value. -/
theorem writeAny_stored (d : Device) (hr : rowOf ref.toNat = some r) (ht : r.ty ≠ tyDomain) (ha : r.access = .rw)
    (hw : d.writes q (writeLevelOf r ref.toNat v.raw) ref.toNat = true) (hv : valueCheck (objOf r ref.toNat) r.range v = none)
    (hn : ownEffect ref.toNat v.raw (d.found q) = none) :
    writeAny q ref.toNat v (d.found q) =
      (d.found q).withhold q ref.toNat ((d.found q).putValue (objOf r ref.toNat) (rangeKeep r.range v.raw), okWrite) := by
  have ha' : writeAny q ref.toNat v (d.found q) = writePlain q r ref.toNat v (d.found q) := by simp [writeAny, hr, ht, ha]
  rw [ha']
  unfold writePlain
  rw [Device.plainWriteR_granted ((objOf_ref r ref.toNat).symm ▸ hw) (writeLevelOf_ne_zero _ _ _) hv, plainEffect_stored ha hn]
  dsimp only
  rw [Device.writeNeeds_of_ownEffect_none hn, Device.whenReady_nil, plainEffect_stored ha hn]
  rfl

/-- A write of an RWC object, when executed, clears it. -/
theorem writeAny_cleared (d : Device) (hr : rowOf ref.toNat = some r) (ht : r.ty ≠ tyDomain) (ha : r.access = .rwc)
    (hw : d.writes q (writeLevelOf r ref.toNat v.raw) ref.toNat = true) (hv : v.len = (rowObj r ref.toNat).bytes)
    (hc : clearCheck ref.toNat (d.found q) = none) :
    writeAny q ref.toNat v (d.found q) = (clearEffect r ref.toNat (d.found q), okWrite) := by
  have hb : q.bake = 0 := by
    simp only [Device.writes, Bool.and_eq_true, beq_iff_eq] at hw; exact hw.1.2
  simp [writeAny, hr, ht, ha, writeClear, Device.found_writer hw (writeLevelOf_ne_zero _ _ _), hb, hv, hc]

/-- An executed write of a plain RW object: it holds the value, its reserved bits 0 even where a 1 was written (log entry 7). -/
theorem run_write_stored (hr : rowOf ref.toNat = some r) (hw : s.fresh.writes q (writeLevelOf r ref.toNat v.raw) ref.toNat = true)
    (hf : followsByItself ref.toNat = false) (ha : r.access = .rw) (ht : r.ty ≠ tyDomain) (hv : valueCheck (objOf r ref.toNat) r.range v = none)
    (hself : (written ref.toNat).contains ref.toNat = false) (hn : ownEffect ref.toNat v.raw (s.fresh.found q) = none) :
    ∃ t, exec (.write q ref v) s = .next t ∧
      t.dev.get (objOf r ref.toNat) = rangeKeep r.range v.raw % 2 ^ (objOf r ref.toNat).width ∧
      s.leaves t (ref.toNat :: written ref.toNat) [.store, .journal] := by
  have ho : (objOf r ref.toNat).ref = ref.toNat := objOf_ref _ _
  refine ⟨_, run_writeAny hr hw, ?_⟩
  rw [writeAny_stored s.fresh hr ht ha hw hv hn]
  have hk := Device.withholdReply_keeps (refs := []) (parts := []) (s.fresh.found q) q ref.toNat
    ((s.fresh.found q).putValue (objOf r ref.toNat) (rangeKeep r.range v.raw), okWrite)
  constructor
  · rw [State.get_of_write hk (ho.symm ▸ hf)]
    exact Device.putValue_get_same _ _ _ (ho.symm ▸ hself)
  · refine State.leaves_of_write (Device.putValue_keeps _ _ _ ?_ ?_ ?_ ?_) hk ?_ <;> simp [ho, written]

/-- An executed write of an RWC object whose clear writes the Default. -/
theorem run_write_default (hr : rowOf ref.toNat = some r) (hw : s.fresh.writes q (writeLevelOf r ref.toNat v.raw) ref.toNat = true)
    (hf : followsByItself ref.toNat = false) (he : writeAny q ref.toNat v (s.fresh.found q) = (clearEffect r ref.toNat (s.fresh.found q), okWrite))
    (hd : clearEffect r ref.toNat (s.fresh.found q) = (s.fresh.found q).set (rowObj r ref.toNat) (rowDefault r ref.toNat)) :
    ∃ t, exec (.write q ref v) s = .next t ∧ t.dev.get (rowObj r ref.toNat) = rowDefault r ref.toNat % 2 ^ r.width ∧
      t.answers (respOf q 2 stSuccess (beBytes 4 0)) ∧ s.leaves t (ref.toNat :: numbered) [] := by
  refine ⟨_, run_writeAny hr hw, ?_⟩
  rw [he, hd]
  have hk : ((s.fresh.found q).set (rowObj r ref.toNat) (rowDefault r ref.toNat)).keeps _ [] [] := Device.reply_keeps _ q 2 okWrite
  refine ⟨?_, Device.reply_ok_answers _ _ _ _ _, ?_⟩
  · rw [State.get_of_write hk hf]
    exact Device.get_set_same _ _ _
  · exact State.leaves_of_write (Device.set_keeps _ _ _ (List.mem_cons_self)) hk (by simp [numbered])

/-- A READ that the device executes: an item for each reference; only the poison it met is counted. -/
theorem run_read {refs poisoned : List (BitVec 24)} (hg : s.fresh.grants q 0 = true) (hlen : refs.length ≤ 64) :
    ∃ t, exec (.read q refs poisoned) s = .next t ∧
      t.answers (respOf q 1 stSuccess (refs.flatMap (fun r =>
        itemBytes ((s.fresh.found q).readItemOr (s.fresh.privilege q) r.toNat (poisoned.contains r))))) ∧
      s.leaves t (numbered ++ if poisoned = [] then [] else
        [(Reg.memPoisonReads 0).ref, (Reg.memPoisonConsumed 7).ref, (blkFaults 0xFFF0).ref] ++ eventCounters 0xFFF0) [] := by
  refine ⟨_, run_served (exec_read s q refs poisoned) hg, ?_⟩
  rw [if_neg (Nat.not_lt.mpr hlen)]
  refine ⟨Device.reply_ok_answers _ _ _ _ _, State.leaves_of_keeps ?_⟩
  refine Device.keeps_trans (Device.found_keeps _ q (by simp [numbered])) (Device.keeps_trans ?_ (Device.reply_keeps _ _ _ _))
  refine Device.each_keeps' _ _ (fun r hr x => ?_) _
  have hne : poisoned ≠ [] := by rintro rfl; simp at hr
  rw [if_neg hne]
  refine Device.poisonedRead_keeps x (List.mem_append_right _ (List.mem_append_left _ List.mem_cons_self)) (fun y hy => ?_)
  exact List.mem_append_right _ (List.mem_cons_of_mem _ hy)

end Executed

/-- Settles O2: an executed READ answers an item for each reference, and an executed WRITE does what the row's access says. -/
theorem readsAndWritesAnswer : Obligations.ReadsAndWritesAnswer := by
  unfold Obligations.ReadsAndWritesAnswer
  refine ⟨fun s q refs poisoned hg hlen => ⟨run_read hg hlen, fun r lvl h => ?_, fun r row hr => ?_⟩,
    fun s q ref v row hr hw hf => ⟨?_, ?_, ?_, ?_⟩⟩
  · rw [Device.readItemOr_poisoned h]; exact ⟨rfl, rfl⟩
  · have hp : (s.fresh.found q).phase = .running := (Device.found_phase _ q).trans (Device.grants_running hg)
    refine ⟨Device.readItem_domain hp hr, Device.readItem_writeOnly hp hr, fun ht ha hl hs hne => ?_⟩
    have hget : (s.fresh.found q).get (rowObj row r) = s.dev.get (rowObj row r) := Device.found_get s.fresh q hne
    rw [Device.readItem_stored hp hr ht ha hl hs, hget]
  · exact fun ha ht hv hself hn => run_write_stored hr hw hf ha ht hv hself hn
  · intro ha ht hv hc
    have he := writeAny_cleared s.fresh hr ht ha hw hv hc
    refine ⟨⟨_, run_writeAny hr hw, by rw [he]⟩, fun hg htel hp => ?_⟩
    exact run_write_default hr hw hf he (clearEffect_default hg htel hp)
  · exact fun ha ht => run_writeAny_refused hr hw (writeAny_readOnly _ hr ht ha)
  · exact fun ht => run_writeAny_refused hr hw (writeAny_domain _ hr ht)

end Sys2Proof.Machine

/-! Soft-decision FEC (R106 to R123): the frames of HELD_CODEWORD_RETRY and of FEC_BER_WINDOW_END are wider than the line's objects in states that the
statements' premises let in. -/

namespace Sys2Proof.Machine

/-- A frame speaks of the effect itself: an object outside its ranges and references, which does not follow by itself, is in the effect as it was before. -/
theorem State.effect_get_of_leavesAt {s t : State} {out : Host.Outcome State Fault Refusal} {f : Device → Device} {ranges : List (Nat × Nat)} {refs : List Nat}
    {parts : List Part} (he : out = onDev s f) (ht : out = .next t) (hl : s.leavesAt t ranges refs parts) {o : Obj}
    (ho : ranges.any (fun r => decide (r.1 ≤ o.ref / 256 ∧ o.ref / 256 ≤ r.2)) = false) (hr : refs.contains o.ref = false)
    (hf : followsByItself o.ref = false) : (f s.fresh).get o = s.dev.get o := by
  have h : t = s.after (f s.fresh) := Host.Outcome.next.inj (ht.symm.trans (run he))
  obtain ⟨-, hobj, -⟩ := hl
  rw [← State.after_get s (f s.fresh) hf, ← h]
  exact hobj o ho hr hf

/-! ### Placement (R112, R113) -/

/-- Codeword num of group 0 of C0, under the code of 13.6 %, placed at instant 0. -/
def earlyWord (num : Nat) : Codeword := ⟨num, 0, 0, 3, 0, [32], 0, 0, 0, [], none⟩

/-- One engine awake, slot 0 free, two codewords held, and FEC_MAX_ITER of C0 listed as 2^20, far past its 8 bits. Nothing in the statement's clause on held
codewords bounds FEC_MAX_ITER, as the clauses on stops do. -/
def overlongIterations : State :=
  { State.reset with dev := { State.reset.dev with
      dict := [((Reg.lineRxState 0).ref, 3), ((Reg.fecMaxIter 0).ref, 2 ^ 20), (Reg.pwrFecActive.ref, 1)]
      now := 10 ^ 13
      fec := { State.reset.dev.fec with slots := [(1, earlyWord 1), (2, earlyWord 2), (3, earlyWord 3)], held := [earlyWord 4, earlyWord 5] } } }

/-- The second held codeword pre-empts slot 1 after 2^20 iterations, and its bin of FEC_ITER_HIST would lie at index 0x3066, in the slice fabric's range. -/
theorem overlongIterations_counts : (overlongIterations.fresh.retryHeld overlongIterations.fresh.fec.held).get (Reg.fecIterHist 0 (2 ^ 20)) = 1 ∧
    overlongIterations.dev.get (Reg.fecIterHist 0 (2 ^ 20)) = 0 := by decide +kernel

/-- Refutes O22 at its clause on HELD_CODEWORD_RETRY, whose frame is the line's objects: the first held codeword takes the free slot, the next pre-empts a
codeword, and the bin of FEC_ITER_HIST that counts it lies outside that range where the dictionary lists a FEC_MAX_ITER wider than its object. The clause lacks
the premises that those beside it have: carriers below 2 and a bound on FEC_MAX_ITER. -/
theorem not_codewordsAreDecoded : ¬ Obligations.CodewordsAreDecoded := by
  unfold Obligations.CodewordsAreDecoded
  rintro ⟨⟨-, -, held⟩, -⟩
  obtain ⟨t, ht, -, -, hleaves⟩ := held overlongIterations (earlyWord 4) [earlyWord 5] 0 rfl (by decide +kernel) (by decide +kernel)
  have hsame := State.effect_get_of_leavesAt (o := Reg.fecIterHist 0 (2 ^ 20)) (f := fun d => d.retryHeld d.fec.held) rfl ht hleaves
    (by decide) (by decide) (by decide)
  obtain ⟨hafter, hbefore⟩ := overlongIterations_counts
  exact absurd (hafter.symm.trans (hsame.trans hbefore)) (by decide)

/-! ### Windows (R120, R121) -/

/-- FEC_BER_WINDOW of C0 ends on a running device that lists a leaf 4096 of C0 with one bit received and no error. Leaves are numbered 0 to 127
(Table 7.1, R174); the statement does not ask it of the state. -/
def leafBeyondLast : State :=
  { State.reset with dev := { State.reset.dev with
      phase := .running
      now := 10 ^ 14
      fec := { State.reset.dev.fec with win := State.reset.dev.fec.win.put 0 { State.reset.dev.fec.win.at 0 with words := 1 } }
      hub := State.reset.dev.hub.put 0 { State.reset.dev.hub.at 0 with leaves := [(4096, { leafNew with bits := 1 })] } } }

/-- The window's end writes HUB_LEAF_PRE_BER of that leaf, which would lie at index 0x3810, in the slice fabric's range: all ones become 0. -/
theorem leafBeyondLast_reports : ∃ f, exec (.fecBerWindowEnd 0) leafBeyondLast = onDev leafBeyondLast f ∧
    (f leafBeyondLast.fresh).get (Reg.hubLeafPreBer 4096) = 0 ∧ leafBeyondLast.dev.get (Reg.hubLeafPreBer 4096) = 0xFFFFFFFF :=
  ⟨_, execFecBerWindowEnd.eq_1 0 leafBeyondLast, by decide +kernel⟩

/-- Refutes O23 at the frame of FEC_BER_WINDOW_END, the line's objects: a window's end reports the window of every leaf that the hub lists (R120), and the object
of a leaf that no carrier has lies outside that range. The statement lacks the premise that leaves are numbered below 128. -/
theorem not_fecWindowsReport : ¬ Obligations.FecWindowsReport := by
  unfold Obligations.FecWindowsReport
  rintro ⟨windows, -⟩
  obtain ⟨t, ht, -, -, -, -, -, -, -, -, -, hleaves⟩ := (windows leafBeyondLast 0 (by decide +kernel)).2 (by decide +kernel)
  obtain ⟨f, he, hafter, hbefore⟩ := leafBeyondLast_reports
  have hsame := State.effect_get_of_leavesAt (o := Reg.hubLeafPreBer 4096) he ht hleaves (by decide) (by decide) (by decide)
  exact absurd (hafter.symm.trans (hsame.trans hbefore)) (by decide)

end Sys2Proof.Machine

/-! Hub mode (R150 to R173): a leaf that leaves Active has HUB_DS_CANDIDATE of its downstream subcarrier evaluated again (R152). Where the dictionary lists a
HUB_LEAF_DS_SC far past its 8 bits, that candidate lies on an object of another chapter, outside the frames of the statements on hub mode. -/

namespace Sys2Proof.Machine

/-- The subcarrier number whose HUB_DS_CANDIDATE on C0 has the reference of PKT_MTU. -/
def straySc : Nat := Reg.pktMtu.ref - (Reg.hubDsCandidate 0 0).ref

/-- Hub carrier C0 of a running device with what the hub holds beside its objects. Leaves 0 and 1 are Active on that subcarrier, leaf 1 has reported its DS_SNR, and
leaf 0 is granted one block of code 32 on SC0; one missed cycle makes a leaf Lost, one violation makes it Quarantined. PKT_MTU holds 9 000, not its Default. -/
def strayLeaves (h : Hub) : State :=
  { State.reset with dev := { State.reset.dev with
      phase := .running
      dict := [((Reg.hubEnable 0).ref, 1), ((Reg.hubLossCycles 0).ref, 1), ((Reg.hubPoliceLimit 0).ref, 1), ((Reg.hubUsState 0 0).ref, 1),
        ((Reg.hubLeafState 0).ref, 3), ((Reg.hubLeafDsSc 0).ref, straySc),
        ((Reg.hubLeafState 1).ref, 3), ((Reg.hubLeafDsSc 1).ref, straySc), ((Reg.hubLeafDsSnr 1).ref, 2000), (Reg.pktMtu.ref, 9000)]
      doms := [((Reg.hubGrantActive 0).ref, beBytes 8 (32 * 2 ^ 24))]
      hub := ⟨h, State.reset.dev.hub.c1⟩ } }

/-- A switch to an empty grant table has fired and waits for its upstream cycle. -/
def grantWithdrawn : State := strayLeaves ⟨[], [], [⟨1, [], 0, 0⟩], 0, [], []⟩

/-- The path of SC0 is Armed in leaf 0's window. -/
def windowArmed : State := strayLeaves ⟨[], [(0, { pathNew with leaf := 0, windowOpen := true })], [], 0, [], []⟩

/-- A message of leaf 0, which has no key, waits to be checked. -/
def messageUnchecked : State := strayLeaves ⟨[], [], [], 0, [], [⟨0, 0, 0, 0, 0, 0⟩]⟩

/-- The effect of a command takes PKT_MTU, which held 9 000, back to its Default: the candidate there becomes 0, for LINE_LOAD_MASK leaves its subcarrier
out (R93). -/
def State.resetsMtu (s : State) (i : Instr) : Prop :=
  ∃ f, exec i s = onDev s f ∧ (f s.fresh).get Reg.pktMtu = Reg.pktMtu.dflt ∧ s.dev.get Reg.pktMtu = 9000

/-- No frame that leaves PKT_MTU out holds of such a command. -/
theorem State.resetsMtu.not_leavesAt {s t : State} {i : Instr} {ranges : List (Nat × Nat)} {refs : List Nat} {parts : List Part} (h : s.resetsMtu i)
    (ht : exec i s = .next t) (hranges : ranges.any (fun r => decide (r.1 ≤ Reg.pktMtu.ref / 256 ∧ Reg.pktMtu.ref / 256 ≤ r.2)) = false)
    (hrefs : refs.contains Reg.pktMtu.ref = false) : ¬ s.leavesAt t ranges refs parts := by
  intro hleaves
  obtain ⟨f, he, hafter, hbefore⟩ := h
  have hsame := State.effect_get_of_leavesAt he ht hleaves hranges hrefs (by decide)
  exact absurd (hafter.symm.trans (hsame.trans hbefore)) (by decide)

/-- Reception takes the table that leaves leaf 0 out: Active to Dozing (R171). -/
theorem grantUpstreamCycle_resetsMtu : grantWithdrawn.resetsMtu (.grantUpstreamCycle 0) :=
  ⟨_, execGrantUpstreamCycle.eq_1 0 grantWithdrawn, by decide +kernel⟩

/-- The window closes without a detection: Active to Lost (Table 7.5). -/
theorem burstWindowClose_resetsMtu : windowArmed.resetsMtu (.burstWindowClose 0 0) :=
  ⟨_, execBurstWindowClose.eq_1 0 0 windowArmed, by decide +kernel⟩

/-- The message fails its tag: Active to Quarantined (R165, R166). -/
theorem upstreamHubMessage_resetsMtu : messageUnchecked.resetsMtu (.upstreamHubMessage 0) :=
  ⟨_, execUpstreamHubMessage.eq_1 0 messageUnchecked, by decide +kernel⟩

/-- Refutes O32 at the frame of GRANT_UPSTREAM_CYCLE, the objects of the line and of the slice fabric: a withdrawn leaf leaves Active, and the candidate of its
subcarrier may lie outside them. The statement lacks the premise that HUB_LEAF_DS_SC is within its 8 bits. -/
theorem not_hubModeAndGrantTables : ¬ Obligations.HubModeAndGrantTables := by
  unfold Obligations.HubModeAndGrantTables
  intro h
  obtain ⟨-, -, -, -, received⟩ := h grantWithdrawn 0
  obtain ⟨t, ht, -, -, -, hleaves⟩ := received ⟨1, [], 0, 0⟩ [] rfl
  exact grantUpstreamCycle_resetsMtu.not_leavesAt ht (by decide) (by decide) hleaves

/-- Refutes O33 at the frame of BURST_WINDOW_CLOSE, the objects of the line and of the slice fabric: a leaf whose HUB_LOSS_CYCLES are reached leaves Active, and
the candidate of its subcarrier may lie outside them. The statement lacks the premise that HUB_LEAF_DS_SC is within its 8 bits. -/
theorem not_burstsAreReceived : ¬ Obligations.BurstsAreReceived := by
  unfold Obligations.BurstsAreReceived
  intro h
  obtain ⟨-, -, -, -, closes, -⟩ := h windowArmed 0 0
  obtain ⟨-, missed⟩ := closes (by decide +kernel) (by decide +kernel)
  obtain ⟨t, ht, -, -, -, hleaves⟩ := missed (by decide +kernel) (by decide +kernel)
  exact burstWindowClose_resetsMtu.not_leavesAt ht (by decide) (by decide) hleaves

/-- Refutes O34 at the frame of UPSTREAM_HUB_MESSAGE, the objects of the line: a leaf that reaches HUB_POLICE_LIMIT leaves Active, and the candidate of its
subcarrier may lie outside them. The statement lacks the premise that HUB_LEAF_DS_SC is within its 8 bits. -/
theorem not_leavesRegisterAndLeave : ¬ Obligations.LeavesRegisterAndLeave := by
  unfold Obligations.LeavesRegisterAndLeave
  intro h
  obtain ⟨-, checked, -⟩ := h messageUnchecked 0
  obtain ⟨-, failed⟩ := checked ⟨0, 0, 0, 0, 0, 0⟩ [] rfl (by decide +kernel) rfl (by decide)
  obtain ⟨t, ht, -, -, -, -, hleaves⟩ := failed (by decide +kernel)
  exact upstreamHubMessage_resetsMtu.not_leavesAt ht (by decide) (by decide) hleaves

end Sys2Proof.Machine

/-! Memories (R244 to R262): a command ends with the converter taking up work that waits (R391). Where the state lists a sequence far past the eight of R392,
the state object of that sequence lies on a counter of this chapter, and settling writes over what the command counted. -/

namespace Sys2Proof.Machine

/-- The sequence number whose MON_SEQ_STATE has the reference of MEM_CE_COUNT of class 4. -/
def straySequence : Nat := ((Reg.memCeCount 3).ref - (Reg.monSeqState 0).ref) / 256

/-- A running device, its reference ready. The converter is at the visit of bias loop 0, which is closed no more, and a step of the stray sequence waits for it.
Sequences are numbered 0 to 7 (R392); the statement does not ask it of the state. -/
def strayStepWaits : State :=
  { State.reset with dev := { State.reset.dev with
      phase := .running
      dict := [(Reg.monRefState.ref, 2)]
      bias := { State.reset.dev.bias with visited := some 0 }
      mon := { State.reset.dev.mon with
        work := .visit, queue := [straySequence], seqs := [(straySequence, ⟨0, true, 0, 0, 0, 0, false, false, [], false, false⟩)] } } }

/-- The core reads granule 0 of HBM, in which one symbol is wrong. -/
def granuleRead : Instr := .matrixRequest 0 2 false 0 [] 64 false false 1 0 0 []

/-- The read's effect counts one correctable error, from 0. Settling then ends the visit and takes up the step that waits: its sequence's state, 2 (converting),
stands where the count stood. -/
theorem granuleRead_overwritten : ∃ f, exec granuleRead strayStepWaits = onDev strayStepWaits f ∧ strayStepWaits.dev.get (Reg.memCeCount 3) = 0 ∧
    (f strayStepWaits.fresh).get (Reg.memCeCount 3) = 1 ∧ (f strayStepWaits.fresh).settle.get (Reg.memCeCount 3) = 2 :=
  ⟨_, execMatrixRequest.eq_1 0 2 false 0 [] 64 false false 1 0 0 [] strayStepWaits, by decide +kernel⟩

theorem granuleRead_not_counts {t : State} (ht : exec granuleRead strayStepWaits = .next t) : ¬ strayStepWaits.counts t (Reg.memCeCount 3) := by
  intro hcounts
  obtain ⟨f, he, hbefore, -, hsettled⟩ := granuleRead_overwritten
  have hnext : t = strayStepWaits.after (f strayStepWaits.fresh) := Host.Outcome.next.inj (ht.symm.trans (run he))
  have hafter : t.dev.get (Reg.memCeCount 3) = 2 := hnext ▸ (Device.changes_get _ _ _).trans hsettled
  have hcount : t.dev.get (Reg.memCeCount 3) = strayStepWaits.dev.get (Reg.memCeCount 3) + 1 := hcounts (by rw [hbefore]; decide)
  rw [hafter, hbefore] at hcount
  exact absurd hcount (by decide)

/-- Refutes O38 at its clause on permitted reads of the matrix, that a read which finds a correctable error moves MEM_CE_COUNT of its class up by one: settling
writes the state of whatever sequence the converter takes up, and that of a sequence no device has may lie on MEM_CE_COUNT. The statement lacks the premise
that the sequences the converter lists are numbered below 8. -/
theorem not_memoriesAreSweptReadAndWritten : ¬ Obligations.MemoriesAreSweptReadAndWritten := by
  unfold Obligations.MemoriesAreSweptReadAndWritten
  intro h
  obtain ⟨-, -, requests, -⟩ := h strayStepWaits
  obtain ⟨-, -, -, reads⟩ := requests 0 2 false 0 [] 64 false false 1 0 0 [] (by decide)
  obtain ⟨t, -, ht, -, -, -, -, -, corrected, -⟩ := reads (by decide) (by decide) rfl
  exact granuleRead_not_counts ht (corrected (by decide +kernel) (by decide +kernel))

end Sys2Proof.Machine
